-- ==== Sys2Proof/Word.lean ====
section
/-! DEFINITION. The word types of the module and the plainest ways to take a word apart (R11 to R13: little-endian,
bit 0 least significant, a range hi:lo includes both ends). -/

namespace Sys2Proof

/-- One byte. -/
abbrev Byte := BitVec 8
/-- A 32-bit word: a scalar register, a word of a descriptor or of a message. -/
abbrev W32 := BitVec 32
/-- A 64-bit word: an instruction word of the tile sequencer, a fence operand. -/
abbrev W64 := BitVec 64

/-- Bits hi down to lo of a word read as a number (R12). -/
def bitsOf (w hi lo : Nat) : Nat := (w >>> lo) % 2 ^ (hi + 1 - lo)

/-- Bit i of a word read as a number. -/
def bitOf (w i : Nat) : Bool := (w >>> i) % 2 == 1

/-- 1 for true, 0 for false: a flag as the bit that holds it. -/
def b2n (b : Bool) : Nat := if b then 1 else 0

end Sys2Proof
end

