-- ==== Sys2Proof/Syntax.lean ====
section
/-! DEFINITION. The commands of the LSW8-576L: one constructor for each row of spec/opcode_table.json, in the table's
order. A command is one whole and indivisible step of the part (spec/95_what_each_step_holds.md). Its operands say
WHERE the step happens (partition p = die Cp, tile t, function fn: 0 PF and k for VFk, fabric port, lane pair, node
instance inst, context) and what comes into the module FROM OUTSIDE in that step (a word that host memory returned, a
packet, a flit, a measurement). Everything else the step uses stands in the state. -/

namespace Sys2Proof

/-- What a read outside the module (host memory, an RDMA peer) returned. -/
inductive HostRd where
  /-- The bytes that came back, lowest address first. -/
  | data (bytes : List Byte)
  /-- The read ended in an error completion (R539). -/
  | error
  /-- ATS refused the translation (R867, R546). -/
  | noXlate
deriving DecidableEq, Repr

/-- The three scratchpads of a tile (R190). -/
inductive Spc where
  | wm | am | pm
deriving DecidableEq, Repr

/-- A fabric packet: the fields of its 24-byte header (R777) and its data. -/
structure Packet where
  ptype : Nat
  tc : Nat := 0
  vc : Nat := 0
  dstDie : Nat := 0
  dstSpace : Nat := 0
  destModule : Nat := 0
  srcModule : Nat := 0
  txn : Nat := 0
  destCtx : Nat := 0
  srcCtx : Nat := 0
  srcEpoch : Nat := 0
  len : Nat := 0
  dstTile : Nat := 0
  op : Nat := 0
  /-- ACK: the status. WRITE, ADD, SIGNAL: the epoch of the destination context. -/
  status : Nat := 0
  addrHi : Nat := 0
  addrLo : Nat := 0
  rtag : Nat := 0
  low : Nat := 0
  data : List Byte := []
deriving DecidableEq, Repr

/-- What an identity block of R835 tells. -/
structure Identity where
  port : Nat
  lanePair : Nat
  moduleId : Nat
  serial : Nat
deriving DecidableEq, Repr

/-- What the power manager measured for one update (R957, R975): watts in thousandths, the rest in the register's units.
DESIGN CHOICE, log entry 101. -/
structure Measured where
  dMw : Nat
  aMw : Nat
  powerW : Nat
  inputMv : Nat
  input10ma : Nat
  maxDieC : Nat
  maxHbmC : Nat
  outletC : Nat
  inletC : Nat
  /-- What all the tiles available for filler can draw (R962). -/
  fillerMw : Nat
deriving DecidableEq, Repr

/-- The commands. -/
inductive Instr where
  -- the tile sequencer and scalar unit
  | nop (p : Fin 8) (t : Fin 16)
  | endKernel (p : Fin 8) (t : Fin 16)
  | loop (p : Fin 8) (t : Fin 16)
  | sli (p : Fin 8) (t : Fin 16)
  | salu (p : Fin 8) (t : Fin 16)
  | sld (p : Fin 8) (t : Fin 16)
  | sst (p : Fin 8) (t : Fin 16)
  | reservedOpcode (p : Fin 8) (t : Fin 16)
  | imageOverrun (p : Fin 8) (t : Fin 16)
  -- the vector engine
  | vadd (p : Fin 8) (t : Fin 16)
  | vsub (p : Fin 8) (t : Fin 16)
  | vmul (p : Fin 8) (t : Fin 16)
  | vfma (p : Fin 8) (t : Fin 16)
  | vmin (p : Fin 8) (t : Fin 16)
  | vmax (p : Fin 8) (t : Fin 16)
  | vabs (p : Fin 8) (t : Fin 16)
  | vneg (p : Fin 8) (t : Fin 16)
  | vand (p : Fin 8) (t : Fin 16)
  | vor (p : Fin 8) (t : Fin 16)
  | vxor (p : Fin 8) (t : Fin 16)
  | vshl (p : Fin 8) (t : Fin 16)
  | vshr (p : Fin 8) (t : Fin 16)
  | vsra (p : Fin 8) (t : Fin 16)
  | vmov (p : Fin 8) (t : Fin 16)
  | vbcast (p : Fin 8) (t : Fin 16)
  | viota (p : Fin 8) (t : Fin 16)
  | vext (p : Fin 8) (t : Fin 16)
  | vins (p : Fin 8) (t : Fin 16)
  | vperm (p : Fin 8) (t : Fin 16)
  | vpack (p : Fin 8) (t : Fin 16)
  | vcmp (p : Fin 8) (t : Fin 16)
  | vsel (p : Fin 8) (t : Fin 16)
  | mlog (p : Fin 8) (t : Fin 16)
  | mpop (p : Fin 8) (t : Fin 16)
  | mfirst (p : Fin 8) (t : Fin 16)
  | cvt (p : Fin 8) (t : Fin 16)
  | vld (p : Fin 8) (t : Fin 16)
  | vst (p : Fin 8) (t : Fin 16)
  | red (p : Fin 8) (t : Fin 16)
  -- the matrix array
  | mmul (p : Fin 8) (t : Fin 16)
  | mwait (p : Fin 8) (t : Fin 16)
  /-- `conf` bank conflicts met by the pass, the first one in scratchpad `sp` (timing, which comes from outside). -/
  | matrixPassStart (p : Fin 8) (t : Fin 16) (conf : Nat) (sp : Spc)
  | matrixCommandComplete (p : Fin 8) (t : Fin 16)
  -- the tile DMA
  | dma (p : Fin 8) (t : Fin 16)
  | dwait (p : Fin 8) (t : Fin 16)
  | dmaDescriptorStart (p : Fin 8) (t : Fin 16)
  | dmaDescriptorRetire (p : Fin 8) (t : Fin 16)
  /-- The background access displaced a scheduled access of scratchpad `sp`. -/
  | dmaBankStarvation (p : Fin 8) (t : Fin 16) (sp : Spc)
  -- the KV append unit
  | kvapp (p : Fin 8) (t : Fin 16)
  | kvappComplete (p : Fin 8) (t : Fin 16)
  | kvwait (p : Fin 8) (t : Fin 16)
  | kvgather (p : Fin 8) (t : Fin 16)
  -- the special-function unit
  | sfn (p : Fin 8) (t : Fin 16)
  | sglu (p : Fin 8) (t : Fin 16)
  | smpr (p : Fin 8) (t : Fin 16)
  -- the gradient path and the SVUs
  | mmulg (p : Fin 8) (t : Fin 16)
  | gsend (p : Fin 8) (t : Fin 16)
  | gsendRetire (p : Fin 8) (t : Fin 16)
  | gctlQuery (p : Fin 8) (t : Fin 16)
  | gctlRelease (p : Fin 8) (t : Fin 16)
  | svuPhase1Element (p : Fin 8) (t : Fin 16)
  /-- SVU `s` (32 × stack + pseudo-channel) of partition p runs its next group of the kernel `inst`. -/
  | svuStreamGroup (p : Fin 8) (inst : Nat) (svu : Fin 768)
  -- the command processor
  | kernelImageLoadDone (p : Fin 8) (inst : Nat)
  | kernelDispatch (p : Fin 8) (inst : Nat)
  | svuKernelDispatch (p : Fin 8) (inst : Nat)
  /-- `src`: what a host source returned (ignored for a device source). -/
  | copyLinear (p : Fin 8) (inst : Nat) (src : HostRd)
  | copyNvwsStream (p : Fin 8) (inst : Nat) (src : HostRd)
  | copyFabric (p : Fin 8) (inst : Nat) (src : HostRd)
  | copyRdma (p : Fin 8) (inst : Nat) (src : HostRd)
  | kvExport (p : Fin 8) (inst : Nat)
  | kvImport (p : Fin 8) (inst : Nat) (src : HostRd)
  | waitFence (p : Fin 8) (inst : Nat)
  | waitMemoryPoll (p : Fin 8) (inst : Nat) (rd : HostRd)
  | condPoll (p : Fin 8) (inst : Nat) (rd : HostRd)
  | waitTimeout (p : Fin 8) (inst : Nat)
  | signal (p : Fin 8) (inst : Nat)
  | loopIterationStart (p : Fin 8) (inst : Nat) (rd : HostRd)
  | call (p : Fin 8) (inst : Nat)
  | send (p : Fin 8) (inst : Nat)
  | sendArm (p : Fin 8) (inst : Nat)
  | epoch (p : Fin 8) (inst : Nat)
  | event (p : Fin 8) (inst : Nat)
  | join (p : Fin 8) (inst : Nat)
  /-- `cons`: what the read of the ring's consumer count returned (R544), for a node with CREC 1. -/
  | nodeCommit (p : Fin 8) (inst : Nat) (cons : HostRd)
  | completionRecordWrite (p : Fin 8) (ctx : Fin 64) (cons : HostRd)
  | nodeBudget (p : Fin 8) (inst : Nat)
  | nodeIo (p : Fin 8) (inst : Nat)
  | sendAckTimeout (p : Fin 8) (inst : Nat)
  | deadlockCheck
  | slotBoundary (p : Fin 8)
  | graceExpiry (p : Fin 8)
  | regulatorRefill (p : Fin 8)
  -- the Colost Message Interface
  | cmiReqCtrlGo (fn : Fin 9)
  | mcpTakeRequest (fn : Fin 9)
  | cmiRspValidClear (fn : Fin 9)
  | cmiResponseDelivery (fn : Fin 9)
  | identityQuery (fn : Fin 9)
  | ctxCreate (fn : Fin 9)
  | ctxDestroy (fn : Fin 9)
  /-- `clean`: no transaction of the context is outstanding (R577 step 5). -/
  | ctxDrainEnd (ctx : Fin 64) (clean : Bool)
  | ctxZeroingEnd (ctx : Fin 64)
  | ctxQuery (fn : Fin 9)
  | fenceGrant (fn : Fin 9)
  | fenceRevoke (fn : Fin 9)
  | connOpen (fn : Fin 9)
  | connReady (handle : Nat)
  | connClose (fn : Fin 9)
  | memAlloc (fn : Fin 9)
  | memFree (fn : Fin 9)
  | memFreeZeroDone (ctx : Fin 64) (handle : Nat)
  | memMap (fn : Fin 9)
  | memUnmap (fn : Fin 9)
  | bar2WindowSet (fn : Fin 9)
  | svuProgLoad (fn : Fin 9)
  | kvTableSet (fn : Fin 9)
  /-- `nodes`: what the read of the node area returned when INLINE is 0 and NSPACE is 1. -/
  | graphPost (fn : Fin 9) (nodes : HostRd)
  | subgraphRelease (fn : Fin 9)
  | graphAbort (fn : Fin 9)
  | cplRingSet (fn : Fin 9)
  | graphQuery (fn : Fin 9)
  | weightKeyImport (fn : Fin 9)
  /-- `image`: header and manifest as read from a host or peer source. -/
  | weightLoad (fn : Fin 9) (image : HostRd)
  | install (fn : Fin 9) (image : HostRd)
  /-- A shard (or stored chunk) `chunk` of load `load` arrives; `none`: the media read failed (R705). -/
  | weightShardArrival (load : Nat) (chunk : Nat) (shard : Option (List Byte))
  | weightShardTimeout (load : Nat) (chunk : Nat)
  | weightLoadComplete (load : Nat)
  | weightDrop (fn : Fin 9)
  | weightDropComplete (ctx : Fin 64) (binding : Fin 16) (generation : Nat)
  | nvwsImageErase (fn : Fin 9)
  | weightQuery (fn : Fin 9)
  /-- `src`: what the source returned for the superblock; `error` when the repair failed. -/
  | weightRepairComplete (ctx : Fin 64) (binding : Fin 16) (generation : Nat) (src : HostRd)
  | codebookLoad (fn : Fin 9)
  | codebookSlotWriteDone (p : Fin 8) (ctx : Fin 64) (kindA : Bool) (slot : Fin 8)
  | codebookWaitLimit (ctx : Fin 64) (slot : Fin 8)
  | codebookRelease (fn : Fin 9)
  | codebookQuery (fn : Fin 9)
  | sfuSlotWrite (fn : Fin 9)
  | sfuTableWrite (fn : Fin 9)
  | sfuBankPrepare (fn : Fin 9)
  | sfuBankCopyDone (p : Fin 8) (ctx : Fin 64)
  | sfuPrepareWaitLimit (ctx : Fin 64)
  | sfuBankSwitch (fn : Fin 9)
  | sfuBankQuery (fn : Fin 9)
  | powerLatencySet (fn : Fin 9)
  | powerCapSet (fn : Fin 9)
  | slewFloorSet (fn : Fin 9)
  | powerQuery (fn : Fin 9)
  | schedTableSet (fn : Fin 9)
  | regulatorSet (fn : Fin 9)
  | preemptGraceSet (fn : Fin 9)
  | schedQuery (fn : Fin 9)
  | logRead (fn : Fin 9)
  | escalationSet (fn : Fin 9)
  | serviceRestore (fn : Fin 9)
  | partitionReset (fn : Fin 9)
  | jobPatienceSet (fn : Fin 9)
  | debugChallenge (fn : Fin 9)
  /-- `token`: the bytes at the token's host address. -/
  | debugUnlock (fn : Fin 9) (token : HostRd)
  | attestQuote (fn : Fin 9)
  | attestCertChain (fn : Fin 9)
  /-- `clean`: every part stopped within 10 µs (R1002). -/
  | stateSave (fn : Fin 9) (clean : Bool)
  | fullStateSaveDone (p : Fin 8)
  | duskDumpRead (fn : Fin 9)
  | testModeEnter (fn : Fin 9)
  | testModeExit (fn : Fin 9)
  | hbmRepairQuery (fn : Fin 9)
  | softPpr (fn : Fin 9)
  | hardPpr (fn : Fin 9)
  | spareRow (fn : Fin 9)
  /-- `took`: the stack reports that the repair took. -/
  | hbmRepairDone (took : Bool)
  | trainingSavedClear (fn : Fin 9)
  -- register writes and PCIe
  | ptFenceSelWrite (fn : Fin 9) (p : Fin 8) (value : W32)
  | fpControlDisable (port : Fin 6)
  | portDisableDone (port : Fin 6)
  | fpControlEnable (port : Fin 6)
  | dbgResumeGo (p : Fin 8)
  | registerWrite (fn : Fin 9) (offset : Nat) (width : Nat) (value : W64)
  | msixUnmask (fn : Fin 9) (vector : Fin 2048)
  | bar0AccessInvalid (fn : Fin 9) (offset : Nat) (width : Nat) (write : Bool)
  | bar2Read (fn : Fin 9) (offset : Nat) (len : Nat)
  | bar2Write (fn : Fin 9) (offset : Nat) (bytes : List Byte)
  | functionLevelReset (fn : Fin 9)
  | pcieHotReset
  | vfEnableChange (enable : Bool) (numVfs : Fin 9)
  /-- `gts`: rate in tenths of GT/s; `lanes`: trained width. -/
  | pcieLinkTrained (gts : Nat) (lanes : Nat)
  | atsInvalidation (fn : Fin 9) (addr : Nat)
  | atsTranslationCompletion (fn : Fin 9) (p : Fin 8) (inst : Nat) (addr : Nat) (ok : Bool)
  -- Ethernet and RoCE v2
  | rdmaWriteInbound (conn : Nat) (key : W32) (addr : Nat) (bytes : List Byte)
  | rdmaReadInbound (conn : Nat) (key : W32) (addr : Nat) (len : Nat)
  | rdmaWriteImmInbound (conn : Nat) (key : W32) (addr : Nat) (bytes : List Byte) (imm : W32)
  | rdmaRetransmitTimeout (conn : Nat)
  | ethFrameDiscard (port : Fin 2)
  -- Dunxon fabric
  /-- `corrected`: codewords corrected with the flit; `fecOk`: the flit's codewords were correctable. -/
  | flitReceive (port : Fin 6) (lp : Fin 8) (flit : List Byte) (corrected : Nat) (fecOk : Bool)
  | ackProgressTimeout (port : Fin 6) (lp : Fin 8)
  | laneLockLoss (port : Fin 6) (lp : Fin 8)
  | retrainComplete (port : Fin 6) (lp : Fin 8) (ok : Bool)
  | portTrainingRetry (port : Fin 6)
  | identitySend (port : Fin 6) (lp : Fin 8)
  | identityReceived (port : Fin 6) (lp : Fin 8) (block : List Byte)
  | absentLimitExpiry (port : Fin 6)
  | packetForward (port : Fin 6) (lp : Fin 8)
  | reduceHoldExpiry (port : Fin 6) (lp : Fin 8)
  | armCancelExpiry (p : Fin 8)
  | writeArrival (port : Fin 6) (lp : Fin 8)
  | addArrival (port : Fin 6) (lp : Fin 8)
  | signalArrival (port : Fin 6) (lp : Fin 8)
  | fabricAckArrival (port : Fin 6) (lp : Fin 8)
  | fabricCopyAckTimeout (p : Fin 8) (inst : Nat)
  | abort (port : Fin 6) (lp : Fin 8)
  -- HBM
  | patrolScrubRead (p : Fin 8)
  | hbmCaParityError (p : Fin 8) (pc : Fin 96)
  | hbmSelfRefreshReturn (p : Fin 8)
  -- hangs, resets, recovery
  | cpHeartbeatCheck (p : Fin 8)
  | sundownComplete (p : Fin 8) (clean : Bool)
  | partitionComputeReset (p : Fin 8)
  | partitionReinit (p : Fin 8) (trained : Bool)
  | partitionResetEnd (p : Fin 8)
  | tileHang (p : Fin 8) (t : Fin 16)
  | tileStopFail (p : Fin 8) (t : Fin 16)
  | dcpWatchdog (p : Fin 8)
  | mcpWatchdog
  | hubCoreFail (core : Nat)
  -- power, reset and bring-up
  | pwrEnRise
  | pwrEnFall
  | resetNAssert
  | resetNDeassert
  | standbyPowerUp
  | railsInRegulation
  /-- `ok`: every fuse block passed its check. -/
  | dawnEnd (ok : Bool)
  /-- Die temperatures in degrees and rail voltages in mV, by die (R921). -/
  | sunriseEnd (temps railsMv : List Nat)
  | thermalSettle
  /-- Item 0–23: stack Sk; item 24 + 8 × port + lane pair: a lane pair. -/
  | trainingItemDone (item : Fin 72) (marginOk : Bool)
  | partitionZeroed (p : Fin 8)
  /-- Core 0–95 SVU, 96–111 tile sequencer, 112 CP. -/
  | morningCoreVerify (p : Fin 8) (core : Fin 113) (digestOk : Bool)
  | nvwsMountDone (ok : Bool)
  | readiness
  /-- `tempC`: die temperature, `railMv`: rail voltage stored with the record. -/
  | savedRecordWrite (item : Fin 72) (tempC : Nat) (railMv : Nat)
  | fwSvnRaise
  | thermalThrottleStep (p : Fin 8) (hot cool : Bool)
  | thermalTrip
  | coolantOutletHigh
  | overcurrent
  | inputOvervoltage
  | inputUndervoltage
  | refclkLoss
  | envelopeUpdate (m : Measured)
  | fillerStart (p : Fin 8) (t : Fin 16)
  | activityStepDown (p : Fin 8) (powerAfterMw : Nat)
  | activityExit (p : Fin 8)
  | a4Entry
  | a4Exit
  -- management
  | firmwareBundleUpdate (bundle : List Byte)
  | cablingPlanWrite (record : List Byte)
  | vfMapWrite (record : List Byte)
  | ethAddressRecordWrite (record : List Byte)
  | pldmSensorRefresh (values : List Nat)
  | smbusAlertResponse
  | jtagInstruction (code : Nat)
  | standbyPowerLoss
  | rampStartDelay
  | thermNRelease
  | debugChallengeExpiry
  | attestQuoteDone (opId : Nat)
  | bar2Resize (fn : Fin 9) (log2GiB : Nat)
  | rdmaAckArrival (conn : Nat) (nak : Bool) (bytes : List Byte)
  | congestionNotificationPacket (conn : Nat)
  | arpNdRequest (port : Fin 2) (addr : Nat)
  | ethLinkUp (port : Fin 2)
deriving DecidableEq, Repr

end Sys2Proof
end

