-- ==== Sys2Proof/Decode.lean ====
section
/-! DEFINITION. The words that spell commands. No row of spec/opcode_table.json gives bits, so no word spells a command
(DESIGN CHOICE, log entry 1): a command comes into the module through its queue. -/

namespace Sys2Proof

/-- The command that a word spells by the table's bits: none, for the table gives no row bits (DESIGN CHOICE, log entry 1). -/
def decodeTableWord (_nbits _w : Nat) : Option Instr := none

end Sys2Proof
end

