-- ==== Sys2Proof/Config.lean ====
section
/-! DEFINITION. What one module fixes and the spec leaves open, and the free values: constants without a body, so that
nothing can be proved of their values. -/

namespace Sys2Proof.Config

/-- Free values: a value that the spec calls undefined, open or random. A step takes freeNat k for the counter k of the
state and advances the counter, so each use is a value of its own. DESIGN CHOICE, log entry 3. -/
opaque freeNat : Nat → Nat

/-- The polynomial of segment `seg` of built-in function `fn` (R354, R355), native (mode 0) or of the compatibility mode (mode 1),
at a reduced argument; argument and value are fixed-point numbers with 640 fraction bits. The ROM is not in the spec. DESIGN
CHOICE, log entry 4. -/
opaque sfuSegment : Nat → Nat → Nat → Int → Int

/-- LDEXP of a number A by a NaN B: R377 states no q. DESIGN CHOICE, log entry 4. -/
opaque ldexpNan : Nat → Nat

/-- The segment of a binade lookup of a NaN: R376 states none. DESIGN CHOICE, log entry 4. -/
opaque nanSegment : Nat → Nat

/-- Byte k of the SHA-256 of FIPS 180-4. DESIGN CHOICE, log entry 5. -/
opaque sha256Byte : List Byte → Nat → Byte

/-- SHA-256: 32 bytes. -/
def sha256 (b : List Byte) : List Byte := (List.range 32).map (sha256Byte b)

/-- Whether a SLH-DSA signature verifies: public key, message, signature (FIPS 205). DESIGN CHOICE, log entry 5. -/
opaque slhVerify : List Byte → List Byte → List Byte → Bool

/-- SLH-DSA signature by the module's attestation key (R1052). DESIGN CHOICE, log entry 5. -/
opaque slhSign : List Byte → List Byte

/-- ML-KEM-1024 decapsulation by the module's key: the 32-byte shared secret of a ciphertext (R716). DESIGN CHOICE, log entry 5. -/
opaque kemDecap : List Byte → List Byte

/-- AES-256-GCM decryption: key, nonce, associated data, ciphertext with tag (R712, R716). DESIGN CHOICE, log entry 5. -/
opaque gcmOpen : List Byte → List Byte → List Byte → List Byte → Option (List Byte)

/-- AES-256-XTS: key, unit number, data (R739). DESIGN CHOICE, log entry 5. -/
opaque xtsDecrypt : List Byte → Nat → List Byte → List Byte

/-- AES-256-XTS encryption (R739). DESIGN CHOICE, log entry 5. -/
opaque xtsEncrypt : List Byte → Nat → List Byte → List Byte

/-- The bytes of the Twilight ROM, which MR0 measures (R1048). DESIGN CHOICE, log entry 5. -/
opaque twilightRom : List Byte

/-- Where a 64-byte line of a pseudo-channel lies in its DRAM, as word 1 of HBM_REPAIR gives it: stack-ID in [25:24], bank group in
[23:22], bank in [21:20], row in [17:0]. The spec places none of them in an address (R653, R676). DESIGN CHOICE, log entry 12. -/
opaque hbmRow : Nat → Nat

/-- The factory MAC address of an Ethernet port (R871). DESIGN CHOICE, log entry 148. -/
opaque factoryMac : Nat → BitVec 48

/-- Hard repairs that a bank group of a pseudo-channel has when new (R680 gives no number). -/
opaque hardPpr : Nat

/-- Soft repairs that a bank group of a pseudo-channel has when new (R680 gives no number). -/
opaque softPpr : Nat

/-- The manufacturing CA, identity and KEM certificates, by number 0 to 2 (R1053). DESIGN CHOICE, log entry 5. -/
opaque cert : Nat → List Byte

/-- The attestation key's certificate: hub counter at its certification and MR0 to MR2 (R1053). DESIGN CHOICE, log entry 5. -/
opaque akCert : Nat → List Byte → List Byte

/-- The payload of a WEIGHT_QUERY reply: R743 names what it holds and gives no layout. DESIGN CHOICE, log entry 22. -/
opaque weightQueryWords : List Nat → List Nat

/-- The word by which a reply names the state of a generation, by its place in the table of R725, which gives no codes. DESIGN CHOICE, log entry 22. -/
opaque genStateWord : Nat → Nat

/-- The payload of a SFU_BANK_QUERY reply: R392 names what it holds and gives no layout. DESIGN CHOICE, log entry 22. -/
opaque sfuQueryWords : List Nat → List Nat

/-- The value that an ARGMAX or TOPK of INT32 puts where it has no element: R335 gives −Inf, which INT32 has not.
DESIGN CHOICE, log entry 8. -/
opaque redFillInt : BitVec 32

/-- Word w of place k of the log SRAM where no record lies: the spec does not say what it reads as. DESIGN CHOICE, log entry 22. -/
opaque logSram : Nat → Nat → Nat

end Sys2Proof.Config
end

