-- ==== Sys2Proof/Machine/StTile.lean ====
section
/-! DEFINITION. Plain-data parts of the state that sit in one tile: scratchpads, registers, sequencer, queues
(chapters 03 to 07, 09, 10 of the spec). -/

namespace Sys2Proof.Machine

/-- A sparse table: keys strictly rising; a key that is absent stands for the value that the reading accessor names. -/
abbrev Tab (α : Type) := List (Nat × α)

/-- A memory: addresses strictly rising, no entry equal to 0, an unlisted address reads 0. -/
abbrev Mem := List Host.Cell

/-- One scratchpad of a tile (R190): its bytes, the lines whose poison bit is set and the lines whose kernel-written bit
is set (R202), the 64-bit words whose parity bit is wrong (R201), and the words that a permanent storage defect makes read
with a parity error whatever is written (R213). Line and word lists are strictly rising.
DESIGN CHOICE, log entry 11. -/
structure Spad where
  bytes : Mem := []
  poison : List Nat := []
  kw : List Nat := []
  bad : List Nat := []
  defect : List Nat := []
deriving DecidableEq, Repr

/-- The class of an internal-form value, in two bits. -/
inductive IClass where
  | zero | finite | infinity | nan
deriving DecidableEq, Repr

/-- A value in internal form (R74): class, sign, 9-bit exponent with bias 255, 11-bit significand with an explicit leading bit. -/
structure Internal where
  cls : IClass
  sign : Bool
  exp : BitVec 9
  sig : BitVec 11
deriving DecidableEq, Repr

/-- A weight set of the array: by sub-problem, output column and reduction index, the internal-form values of one weight, its
scale applied: one, or the pieces of an FP32 weight (R76, R123). -/
abbrev WSet := List (List (List (List Internal)))

/-- A loop that the sequencer has entered (R290, R291): the body runs from `start` to the word before `stop`. -/
structure LoopFrame where
  start : Nat
  stop : Nat
  count : Nat
  iter : Nat
  idx : Nat
deriving DecidableEq, Repr

/-- A page table of a context on a partition (R402). -/
structure PTab where
  base : Nat
  entries : Nat
deriving DecidableEq, Repr

/-- A LEN publication that a tile requested (R425): the value and the head group of the KVAPP. -/
structure Pub where
  len : Nat
  group : Nat
deriving DecidableEq, Repr

/-- A kernel as one tile runs it: what R504 latches, the sequencer's program counter and loop stack, and what the tile
has gathered for the commit. -/
structure Run where
  inst : Nat
  ctx : Nat
  image : List Nat
  pc : Nat := 0
  loops : List LoopFrame := []
  cbMask : Nat := 0
  mpMask : Nat := 0
  bank : Nat := 0
  pt : Option PTab := none
  mapVer : Nat := 0
  /-- OR of the arithmetic status of the tile's matrix commands (R156). -/
  astat : Nat := 0
  /-- Bank conflicts (R198). -/
  conflicts : Nat := 0
  /-- Publications by SEQ_ADDR (R427). -/
  pubs : Tab Pub := []
  /-- Tensor ids that the kernel named in a GACC command on this tile (R463). -/
  gnamed : List Nat := []
  /-- The buffer addresses that those commands gave, by tensor id. -/
  gbufs : Tab (Nat × Nat) := []
  /-- Tensor ids that GCTL RELEASE named (R465). -/
  greleased : List Nat := []
  ended : Bool := false
  /-- Die counter at the tile's last sign of progress (R983). -/
  progress : Nat := 0
deriving DecidableEq, Repr

/-- An outstanding matrix command (R151): header and sub-problem descriptors as read at issue, the scalar offsets, for
an MMULG the gradient extension and mask bytes, the GACC source and destination, the next pass and the status so far. -/
structure MCmd where
  hdr : List Nat
  subs : List (List Nat)
  wOff : Nat := 0
  xOff : Nat := 0
  yOff : Nat := 0
  gext : Option (List Nat) := none
  mask : List Byte := []
  /-- GACC: source buffer address, none for +0 (R458). -/
  gsrc : Option Nat := none
  gdst : Nat := 0
  pass : Nat := 0
  flags : Nat := 0
deriving DecidableEq, Repr

/-- What an outstanding tile DMA entry does. -/
inductive DmaJob where
  /-- A DMA descriptor's 16 words, with the scalar offsets (R215). -/
  | desc (w : List Nat) (srcOff dstOff : Nat)
  /-- KVGATHER: descriptor words, sequence descriptor words, first token, end token (R434). -/
  | gather (w : List Nat) (seq : List Nat) (first stop : Nat)
  /-- GSEND: descriptor words, layer descriptor words, hyper-parameter words, mask bytes, source address, and the number
  of elements that phase 1 has taken (R467 to R473). -/
  | gsend (w : List Nat) (layer : List Nat) (hp : List Nat) (mask : List Byte) (src : Nat) (sent : Nat)
deriving DecidableEq, Repr

/-- An entry of the tile DMA queue: active once started, done when its data has moved (R216, R217). `acc` holds the
statistics accumulators of the SVUs that a GSEND has reached, by SVU number: 8 × 32 FP32 words (R477). -/
structure DmaEnt where
  job : DmaJob
  active : Bool := false
  done : Bool := false
  acc : Tab (List Nat) := []
deriving DecidableEq, Repr

/-- A KVAPP whose rows are written and which has not completed (R418, R419). -/
structure KvEnt where
  seqAddr : Nat
  group : Nat
  first : Nat
  count : Nat
deriving DecidableEq, Repr

/-- One tile. The register files: an absent key reads 0; M0 reads as all ones (R292). -/
structure Tile where
  wm : Spad := {}
  am : Spad := {}
  pm : Spad := {}
  v : Tab (BitVec 8192) := []
  m : Tab (BitVec 1024) := []
  s : Tab W32 := []
  /-- Registers and instruction words that carry a parity error (R343). -/
  badV : List Nat := []
  badM : List Nat := []
  badS : List Nat := []
  badImem : List Nat := []
  /-- The active and the shadow weight set of the array's cells (R125): by sub-problem and output column, the weight
  at each reduction index of the pass they were loaded for. -/
  wAct : WSet := []
  wShadow : WSet := []
  /-- Parity errors of the array (R143): the cells, 128 × row + column, whose active or shadow weight register holds one, and
  the points of the sum path, 128 × (row below which the sub-array ends, less 1) + column, that carry one. -/
  badAct : List Nat := []
  badShadow : List Nat := []
  badSum : List Nat := []
  /-- 64-bit words of the SFU's ROM and of its two banks that carry a parity error (R395): ROM words by the segment that they
  serve (`romKey`), bank words by bank, slot and word (`bankKey`). A ROM error stays (the note after R396). -/
  badRom : List Nat := []
  badBank : List Nat := []
  run : Option Run := none
  /-- The two halves of the instruction memory (R505): 8,192 words of 64 bits each, from word 0 up; a word past the end of a list
  is 0 (DESIGN CHOICE, log entry 110). `half` is the half in use, and `loaded` the instance whose image stands in the other one. -/
  imem0 : List Nat := []
  imem1 : List Nat := []
  half : Nat := 0
  loaded : Option Nat := none
  mq : List MCmd := []
  dq : List DmaEnt := []
  kvq : List KvEnt := []
  /-- Tensor ids whose LIVE bit is 1, and whose SEL bit is 1 (R457). -/
  live : List Nat := []
  sel : List Nat := []
  /-- Buffer addresses of committed tensor ids (R465). -/
  gbuf : Tab (Nat × Nat) := []
  /-- The context of the last kernel that ran here (R605). -/
  lastCtx : Option Nat := none
  /-- Die counter at which a kill reached the tile that has not yet stopped (R984). -/
  killedAt : Option Nat := none
  filler : Bool := false
deriving DecidableEq, Repr

end Sys2Proof.Machine
end

