-- ==== Sys2Proof/Machine/StCp.lean ====
section
/-! DEFINITION. Plain-data parts of the state of a partition: node instances, segments, fences, completion rings,
codebook slots, SFU banks, regulators, schedule, HBM and the parts of a context (chapters 06, 08, 09, 11 to 14). -/

namespace Sys2Proof.Machine

/-- State of a node instance (R495). -/
inductive NodeSt where
  | waiting | ready | running | committing | committed | skipped | abandoned
deriving DecidableEq, Repr

/-- STATUS of a completion record (the table after R545), in code order. -/
inductive RecSt where
  | ok | skipped | predError | failed | aborted | fenceError | subError | sendFail
deriving DecidableEq, Repr

/-- What a commit still has to do in device memory, collected during execution: one aligned write of `width` bytes. -/
structure MemWr where
  ctx : Nat
  ver : Nat
  dva : Nat
  width : Nat
  value : Nat
deriving DecidableEq, Repr

/-- A node instance (R495, R504). `words` is the node's sixteen 32-bit words as the MCP copied them (R584). -/
structure Inst where
  ctx : Nat
  seg : Nat
  idx : Nat
  words : List Nat
  st : NodeSt := .waiting
  /-- The CALL or LOOP instance that made it (R501), none in a root segment. -/
  parent : Option Nat := none
  iter : Nat := 0
  /-- Order of READY (R500) and whether it is a re-run or a pre-empted node, which go first. -/
  readyNo : Nat := 0
  rerun : Bool := false
  reruns : Nat := 0
  preempts : Nat := 0
  /-- Die counter at first dispatch (TIMEOUT) and at the last dispatch (BUDGET). -/
  firstAt : Option Nat := none
  dispAt : Nat := 0
  /-- Die counter before which a condition word is not read again (R513, R514, R1116). -/
  nextPoll : Nat := 0
  /-- Latched at first dispatch: mapping version (R659), image, arguments, page table, bank, binding generation. -/
  mapVer : Nat := 0
  image : List Nat := []
  args : List Nat := []
  pt : Option PTab := none
  bank : Nat := 0
  bindings : Tab Nat := []
  /-- References of R258 and R386 are held. -/
  refs : Bool := false
  /-- Latched grant (R1115): context and its epoch. -/
  grant : Option (Nat × Nat) := none
  /-- Event names logged once per kernel (R287, R199), and whether one of them forbids a re-run (R263, R439, R752). -/
  evOnce : List Nat := []
  noRerun : Bool := false
  /-- It was killed last for poison that it consumed (R752), and a generation that it holds became DAMAGED while it ran (R754). -/
  tainted : Bool := false
  damaged : Bool := false
  /-- First event code of the node (completion record), status of its record. -/
  event : Nat := 0
  status : RecSt := .ok
  /-- COND's choice (R514). -/
  choice : Option Bool := none
  /-- LOOP: iterations started; the running iteration counts until its nodes resolve (R515). -/
  started : Nat := 0
  /-- Tiles whose run has ended (R296). -/
  endedTiles : List Nat := []
  /-- Result collected from ended tiles: OR of ASTAT, conflicts, publications by tile then SEQ_ADDR. -/
  astat : Nat := 0
  conflicts : Nat := 0
  pubs : Tab (Tab Pub) := []
  gnamed : Tab (List Nat) := []
  greleased : Tab (List Nat) := []
  /-- Device-memory writes of commit step 1 (R530). -/
  writes : List MemWr := []
  /-- SEND source bytes as staged (R796), with whether staging has been done. -/
  staged : Option (List Byte) := none
  /-- Fabric transactions that have not been acknowledged, and whether one failed (R530 step 3, R532). -/
  acks : List Nat := []
  /-- Packets that wait for a free transaction number (R779). -/
  unsent : List Packet := []
  ackBad : Bool := false
  sentAt : Nat := 0
  /-- SVU kernel: stream groups done per SVU; total groups left. -/
  svuDone : Tab Nat := []
  /-- SVU kernel: its descriptor, its layer descriptor, hyper-parameters and layer totals as read at dispatch (R480, R693),
  and its writes, which become visible at the commit point (R699). -/
  svuDesc : List Nat := []
  svuLayer : List Nat := []
  svuHp : List Nat := []
  svuTot : List Nat := []
  svuOut : List (Nat × List Byte) := []
  /-- Whether the node's execution has ended. -/
  ended : Bool := false
  /-- A record of this node waits at step 6 (R531). -/
  held : Bool := false
  fenceWord : Nat := 0
  commitAt : Nat := 0
  /-- Armed reduction of this node (R804). -/
  arm : Option Nat := none
  /-- The 4 KiB host pages whose translation the node waits for, whether it has asked for those of its source, and the bytes of a COPY
  to host memory that waits for those of its destination (R509, R865, R867). -/
  xlWait : List Nat := []
  xlAsked : Bool := false
  hostWait : Option (List Byte) := none
deriving DecidableEq, Repr

/-- A stored segment (R487): root or subgraph, its nodes' words. -/
structure Seg where
  root : Bool
  nodes : List (List Nat)
deriving DecidableEq, Repr

/-- State of a codebook slot (R257). -/
inductive CbSt where
  | empty | valid | loadWait | writing | releaseWait
deriving DecidableEq, Repr

/-- A codebook slot of one expander kind on one partition for one context (R255, R257, R258, R606). `entries` are the
(BASE, WIDTH) pairs as FP32 words. -/
structure CbSlot where
  st : CbSt := .empty
  size32 : Bool := false
  gen : Nat := 0
  entries : List (Nat × Nat) := []
  refs : Nat := 0
  /-- New contents while a load waits or writes: size, generation, entries, load operation. -/
  next : Option (Bool × Nat × List (Nat × Nat) × Nat) := none
deriving DecidableEq, Repr

/-- A micro-program slot (R372, R373): the 28 payload words of SFU_SLOT_WRITE and 256 segments of four words. -/
structure SfuSlot where
  words : List Nat := []
  segs : Tab (List Nat) := []
deriving DecidableEq, Repr

/-- A bank of sixteen slots (R380), and the kernels that have latched it (R386). -/
structure SfuBank where
  slots : Tab SfuSlot := []
  count : Nat := 0
deriving DecidableEq, Repr

/-- A completion ring (R542): base, size, consumer-count address, the next record's number. -/
structure Ring where
  base : Nat
  sizeLog2 : Nat
  cons : Nat
  k : Nat := 0
deriving DecidableEq, Repr

/-- What a context has on one partition (R256, R380, R400, R522, R542, R606). -/
structure CtxPart where
  cbW : Tab CbSlot := []
  cbA : Tab CbSlot := []
  bank0 : SfuBank := {}
  bank1 : SfuBank := {}
  active : Nat := 0
  /-- The long operation of a waiting SFU_BANK_PREPARE, and whether this partition is copying (R388). A bank switch, which the CP
  makes at its next dispatch decision (R390), is made at once. -/
  prep : Option Nat := none
  copying : Bool := false
  /-- The registered page table (R402). -/
  pt : Option PTab := none
  /-- A page table that takes effect at the next command boundary (R404). -/
  ptNext : Option PTab := none
  /-- Fence words by local index (R522), 64 bits. -/
  fences : Tab Nat := []
  ring : Option Ring := none
  broken : Bool := false
  held : Bool := false
  recordsLost : Nat := 0
  segs : Tab Seg := []
  /-- Nodes with CREC 1 whose record has yet to be written, in instance order: the instance, and its eight record words
  with PHASE 0 once the record is ready (R545). -/
  recs : List (Nat × Option (List Nat)) := []
deriving DecidableEq, Repr

/-- A mapping of a context (R657, R662): `units` 64 KiB units from `dva`; unit i is the 64 KiB unit `frames[i]` of
partition `part`, numbered from the partition's first byte. Live at mapping versions born ≤ v < died (R659). -/
structure Mapping where
  dva : Nat
  units : List Nat
  big : Bool
  writable : Bool
  part : Nat
  /-- Allocation handle, or 0 for a weight window (R745). -/
  handle : Nat
  born : Nat
  died : Option Nat := none
deriving DecidableEq, Repr

/-- An allocation (R661): pages as 64 KiB unit numbers, one per page. -/
structure Alloc where
  part : Nat
  big : Bool
  pages : List Nat
  /-- A MEM_FREE is freeing it: its long operation, and whether the zeroing has begun (R664). -/
  freeing : Option Nat := none
deriving DecidableEq, Repr

/-- A grant (R581). -/
structure Grant where
  grantee : Nat
  first : Nat
  count : Nat
  wait : Bool
  signal : Bool
  /-- Revoked, in force on a partition until its next command boundary (R583): the partitions still to pass one. -/
  revoked : Option (List Nat) := none
deriving DecidableEq, Repr

/-- State of a context (the table before R577). -/
inductive CtxSt where
  | free | open | draining | zeroing
deriving DecidableEq, Repr

/-- Token-bucket regulator (R607 to R618). Balance and refill in 1/256 byte. -/
structure Regulator where
  rate : Nat := 256
  burst : Nat := 4
  balance : Int := 0
  throttled : Nat := 0
  waited : Bool := false
  /-- Bytes of the transfer that moved last whose units wait for the next refills (R611; DEDUCED, log entry 16). -/
  owed : Nat := 0
  /-- Settings that wait for the next command boundary (R615, R616), then for the refill. -/
  next : Option (Nat × Nat) := none
  armed : Option (Nat × Nat) := none
  /-- Closed: RATE 0 in force for new nodes; `closing` holds the nodes dispatched before (R616). -/
  closed : Bool := false
  closing : List Nat := []
deriving DecidableEq, Repr

/-- A schedule slot (R619). -/
structure Slot where
  kind : Nat
  ctx : Nat
  us : Nat
deriving DecidableEq, Repr

/-- A DRAM row's corrected errors of the last 24 h, at most sixteen die counts, newest first, and whether HBM_ROW_DEGRADED has been
logged for it (R676). -/
structure RowCount where
  times : List Nat := []
  logged : Bool := false
deriving DecidableEq, Repr

/-- A partition's three stacks (chapter 14): data by DPA, the lines (DPA / 64) that hold the poison syndrome, lines
with an error the controller cannot correct, lines with a correctable symbol error, free frames and repairs. -/
structure Hbm where
  mem : Mem := []
  poison : List Nat := []
  ue : List Nat := []
  ce : List Nat := []
  rows : Tab RowCount := []
  /-- Next line of the patrol scrub (R677). -/
  scrub : Nat := 0
  selfRefresh : Bool := false
  /-- 64 KiB units in use, rising. -/
  used : List Nat := []
  /-- Consecutive command/address parity errors by pseudo-channel 0–95 of the partition (R675). -/
  ca : Tab Nat := []
  /-- Repairs used, by pseudo-channel × bank group key: hard, soft; spare rows by pseudo-channel; redirections. -/
  hard : Tab Nat := []
  soft : Tab Nat := []
  spare : Tab Nat := []
  redirect : List (Nat × Nat) := []
  /-- Soft repairs that SPI flash records (R683), and stacks whose repairs changed in test (R928). -/
  softKeep : Tab Nat := []
  touched : List Nat := []
  /-- Die counter at which the stacks were woken (R946). -/
  wokenAt : Option Nat := none
deriving DecidableEq, Repr

/-- Where a partition reset stands (R990): Sundown runs; Sundown is complete; the compute part is in reset; the controllers
are back and the cores start again. -/
inductive RstStep where
  | sundown | compute | reinit | ending
deriving DecidableEq, Repr

/-- A partition reset in progress (R986 to R997). -/
structure Reset where
  cause : Nat
  startedAt : Nat
  step : RstStep := .sundown
  memPath : Bool := false
  dump : Bool := false
  dcp : Bool := false
  abandoned : Nat := 0
  ctxMask : Nat := 0
  /-- Long operations of PARTITION_RESET and SERVICE_RESTORE that wait for its end. -/
  waiters : List Nat := []
  /-- Ends after step 6 with the partition out of service: it has reached its limit (R1012), or was out of service before (R1014). -/
  toOos : Bool := false
  stays : Bool := false
  /-- The tiles and the instance table as the reset found them, which the dump of step 5 saves (R637, R999). -/
  stopped : Tab Tile := []
  table : Tab Inst := []
deriving DecidableEq, Repr

/-- Dump summary (R1003). The dump itself stands in the context-0 frames of its holder (R638, R999). -/
structure Dump where
  valid : Bool := false
  complete : Bool := false
  kind : Nat := 0
  noDump : Nat := 0
  holder : Nat := 0
  cause : Nat := 0
  size : Nat := 0
  time : Nat := 0
  ctxMask : Nat := 0
  abandoned : Nat := 0
  recordsLost : Nat := 0
deriving DecidableEq, Repr

/-- An armed reduction of a die (R804 to R808). -/
structure Arm where
  inst : Nat
  ctx : Nat
  rtag : Nat
  bf16 : Bool
  /-- Destination base address B. -/
  base : Nat
  data : List Byte
  /-- Live in the link island, or still waiting in step 3 of its commit (R805, R809). -/
  live : Bool := false
  /-- Byte ranges already consumed, as offsets from B and lengths. -/
  used : List (Nat × Nat) := []
  cancelAt : Option Nat := none
deriving DecidableEq, Repr

/-- An outstanding fabric transaction of a die (R778): who waits for its ACK. -/
structure Txn where
  inst : Nat
  ctx : Nat
  epoch : Nat
  copy : Bool
  at_ : Nat
deriving DecidableEq, Repr

/-- The grace window of a slot boundary (R630): the die counts of the boundary and of the window's end, and the instances that ran
at the boundary and that the new slot does not allow. -/
structure Grace where
  start : Nat
  ends : Nat
  nodes : List Nat
deriving DecidableEq, Repr

/-- An answer from outside the module to a node's transfer. -/
inductive NodeAnswer where
  /-- The RDMA peer has acknowledged the write (R877). -/
  | acknowledged
  /-- The RDMA peer has answered with an error completion (R539). -/
  | nak
  /-- The connection has entered ERROR (R878). -/
  | connError
  /-- The host has refused the translation of the page of an address (R867). -/
  | refused (addr : Nat)
deriving DecidableEq, Repr

/-- A partition: its CP, its DCP, its counters and the link island of its die. -/
structure Part where
  insts : Tab Inst := []
  nextInst : Nat := 0
  nextReady : Nat := 0
  /-- The die counter (R641). -/
  count : Nat := 0
  /-- The map generation counter (R659). -/
  mapGen : Nat := 0
  inService : Bool := false
  oos : Bool := false
  inTest : Bool := false
  reset : Option Reset := none
  /-- Die counter from which the CP's heartbeat counts as unchanged at the latest (R981, R982). -/
  beatAt : Nat := 0
  /-- Die counter at which the DCP's watchdog was last known to be served (R52; DEDUCED, log entry 84). -/
  dcpAt : Nat := 0
  dispHeld : Bool := false
  regs : Tab Regulator := []
  /-- Die counter of the last refill (R609). -/
  refillAt : Nat := 0
  sched : Option (List Slot) := none
  schedNext : Option (List Slot) := none
  frameAt : Nat := 0
  slot : Nat := 0
  frames : Nat := 0
  graceUs : Nat := 0
  graceNext : Option Nat := none
  /-- Grace windows that have not ended, oldest first (R630). -/
  graces : List Grace := []
  kills : Nat := 0
  hbm : Hbm := {}
  /-- SVU program store: words used (R687). -/
  svuWords : Nat := 0
  txns : Tab Txn := []
  nextTxn : Nat := 0
  /-- Staging space in use, bytes (R796). -/
  staging : Nat := 0
  /-- Fabric ports whose DISABLE the partition has seen at a command boundary (R818). -/
  portOff : List Nat := []
  arms : Tab Arm := []
  nextArm : Nat := 0
  /-- Activity state A0 to A4 and the die counter since which the partition has been idle (R941). -/
  act : Nat := 0
  idleAt : Option Nat := some 0
  dump : Dump := {}
  /-- Counted resets: hub counter of each (R1011). -/
  resetLog : List Nat := []
  /-- Tile duty of the die in sixteenths (R967). -/
  duty : Nat := 16
  throttling : Bool := false
  throttleAt : Nat := 0
  /-- A full-state save holds the partition stopped (R636, R1060), the long operation that waits for it. -/
  frozen : Bool := false
  saveOp : Option Nat := none
  /-- What came for its nodes while it was stopped, oldest first (R636): fabric acknowledgements, and answers from outside, each with its
  node. -/
  acksHeld : List Packet := []
  answersHeld : List (Nat × NodeAnswer) := []
  /-- The TEST_MODE_EXIT that brings the partition back (R928). -/
  testExit : Option Nat := none
  /-- Die count at which the partition last entered its activity state. -/
  actAt : Nat := 0
  /-- Contexts whose last dispatch the partition saw. -/
  lastCtx : Nat := 0
deriving DecidableEq, Repr

end Sys2Proof.Machine
end

