-- ==== Sys2Proof/Machine/StHub.lean ====
section
/-! DEFINITION. Plain-data parts of the state of the hub: mailboxes, contexts, the error log, fabric ports, weights,
bring-up, power and security (chapters 12, 15 to 22). -/

namespace Sys2Proof.Machine

/-- One occurrence of an event (R979, R1022): code, context, partition, and the data words of the raising chapter. -/
structure Ev where
  code : Nat
  ctx : Nat := 0
  part : Option Nat := none
  data : List Nat := []
deriving DecidableEq, Repr

/-- A log record (R1022). -/
structure LogRec where
  seq : Nat
  code : Nat
  ctx : Nat
  part : Option Nat
  count : Nat
  time : Nat
  data : List Nat
  /-- Order of the record across both areas (R1028). -/
  ord : Nat := 0
  /-- Its place in its area of the SRAM: records fill an area upwards, and one that replaces another takes its place
  (R1025, R1026; DESIGN CHOICE, log entry 22). -/
  slot : Nat := 0
deriving DecidableEq, Repr

/-- A fatal-record slot of SPI flash: the fatal record and those that precede it, and the ABORT_SEQ and hub counter of its trailer,
whose CRC follows from the rest (R1028). -/
structure FatalRec where
  recs : List LogRec := []
  abortSeq : Nat := 0
  hub : Nat := 0
deriving DecidableEq, Repr

/-- Rate count of a source in the current second (R1024), and the sequence of its newest record. -/
structure LogRate where
  second : Nat
  made : Nat
  newest : Nat
deriving DecidableEq, Repr

/-- The error log (R1022 to R1030). Records are held newest first; `rate` is keyed by 16 × code + (die + 1, 0 for the
hub). `lost` is keyed by class. -/
structure Log where
  general : List LogRec := []
  fatal : List LogRec := []
  genSeq : Nat := 0
  fatSeq : Nat := 0
  lost : Tab Nat := []
  lastLoss : Option Nat := none
  rate : Tab LogRate := []
  page : Nat := 0
  ord : Nat := 0
deriving DecidableEq, Repr

/-- A reply that waits for the response buffer (R556): sequence, opcode, context, status, detail, payload words. -/
structure Reply where
  seq : Nat
  opcode : Nat
  ctx : Nat
  status : Nat
  detail : Nat
  payload : List Nat
  /-- The number of the request that it answers. -/
  req : Nat := 0
  /-- The numbers of simple requests taken before it, whose replies go first (R560). -/
  after : List Nat := []
deriving DecidableEq, Repr

/-- A queued event message (R563, R570). `lost` marks EVENTS_LOST, whose `code` is the first code dropped. -/
structure EvMsg where
  code : Nat
  ctx : Nat
  part : Option Nat
  rep : Nat
  time : Nat
  data : List Nat
  lost : Bool := false
deriving DecidableEq, Repr

/-- A request that the MCP has taken: header fields, payload words, and the number of the request among those that the MCP has taken
from its function, which is the model's own. -/
structure Req where
  seq : Nat
  opcode : Nat
  ctx : Nat
  payload : List Nat
  no : Nat := 0
deriving DecidableEq, Repr

/-- A BAR2 window entry (R854). -/
structure Window where
  ctx : Nat
  dva : Nat
  /-- Length in units of 2 MiB, and BAR_OFFSET. -/
  units : Nat
  writable : Bool
  off : Nat
deriving DecidableEq, Repr

/-- One MSI-X vector (R869): table entry words, mask, pending. -/
structure Vec where
  addr : Nat := 0
  data : Nat := 0
  masked : Bool := true
  pending : Bool := false
deriving DecidableEq, Repr

/-- A PCIe function: its mailbox (R549 to R564), windows, vectors and selections. -/
structure Fn where
  reqBuf : Mem := []
  /-- Words of the request buffer that the host has overwritten while GO reads 1: offset, and value before (R1111). -/
  rewritten : Tab Nat := []
  rspBuf : Mem := []
  go : Bool := false
  rspValid : Bool := false
  rspSeq : Nat := 0
  irqEn : Bool := false
  irqVec : Nat := 0
  /-- Outstanding requests (R554): number and sequence number. `reqNo` numbers the next request. -/
  outst : List (Nat × Nat) := []
  reqNo : Nat := 0
  replies : List Reply := []
  events : List EvMsg := []
  /-- PT_FENCE_SEL.CTX by partition (R1098). -/
  fenceSel : Tab Nat := []
  latUs : Nat := 30
  allowA4 : Bool := false
  bar2 : Tab Window := []
  bar2Log2 : Nat := 0
  vecs : Tab Vec := []
  msixEn : Bool := false
  msixMask : Bool := false
  atsEn : Bool := false
  /-- Enable Relaxed Ordering of the function's Device Control register (R853; PRESUMED 1, log entry 130). -/
  relaxed : Bool := true
  /-- The function's ACS Control register: P2P Request Redirect [2], Completion Redirect [3], Direct Translated [6] (R864). -/
  acsCtl : Nat := 0
  /-- Translations that ATS has completed: host page numbers (4 KiB) held in the cache (R866, R867), the pages of Translation Requests
  that are outstanding, and the pages of Invalidation Completions sent, oldest first (R865, R866). -/
  ats : List Nat := []
  xlReq : List Nat := []
  invDone : List Nat := []
deriving DecidableEq, Repr

/-- A long operation that has not replied (R560, R572). `deadline` is a hub count; `kind` is the message opcode. -/
structure LongOp where
  fn : Nat
  req : Nat := 0
  seq : Nat
  opcode : Nat
  ctx : Nat
  payload : List Nat
  deadline : Option Nat := none
  /-- Parts still to finish: partitions, or instances. -/
  todo : List Nat := []
  /-- Counts for the reply. -/
  a : Nat := 0
  b : Nat := 0
deriving DecidableEq, Repr

/-- What a weight generation is (R738 to R746). -/
inductive GenSt where
  | loading | loaded | dropping | damaged
deriving DecidableEq, Repr

/-- A weight generation of a binding (R723 to R727): the image's header and region-entry words and hash list, the NVWS image or
0, its content key, the source of the load (SOURCE, SOURCE_ADDR, CONN), its frames, and where it is bound. -/
structure WGen where
  st : GenSt
  header : List Nat := []
  regions : List (List Nat) := []
  hashes : List (List Byte) := []
  /-- NVWS image handle, 0 where the load did not come from the NVWS or the image has been erased. -/
  image : Nat
  key : List Byte
  srcKind : Nat := 0
  srcAddr : Nat := 0
  conn : Nat := 0
  /-- Per-partition frames, as 64 KiB unit numbers in window order. -/
  units : Tab (List Nat) := []
  /-- Partitions on which the binding is bound to this generation (R725). -/
  bound : List Nat := []
  /-- Partitions that unbind it at their next command boundary (R741). -/
  unbinding : List Nat := []
  /-- Partitions on which it is DAMAGED although it is not elsewhere (R755). -/
  damagedOn : List Nat := []
deriving DecidableEq, Repr

/-- A superblock whose repair is pending (R752 to R754): byte range in the partition's part of the window. -/
structure Repair where
  ctx : Nat
  binding : Nat
  gen : Nat
  part : Nat
  off : Nat
  len : Nat
deriving DecidableEq, Repr

/-- A weight binding of a context (R722 to R725): its DVA window and generations. -/
structure Binding where
  window : Nat := 0
  span : Nat := 0
  gens : Tab WGen := []
deriving DecidableEq, Repr

/-- A context (R573 to R577). -/
structure Ctx where
  st : CtxSt := .free
  epoch : Nat := 0
  owner : Nat := 0
  parts : List Nat := []
  grants : List Grant := []
  maps : List Mapping := []
  mapVer : Nat := 0
  allocs : Tab Alloc := []
  bindings : Tab Binding := []
  keys : Tab (List Byte) := []
  /-- Imported keys that wait for the running loads of their handles (R717). -/
  keysNext : Tab (List Byte) := []
  progs : Tab (List Nat) := []
  job : Nat := 0
  patienceMs : Nat := 0
  cpart : Tab CtxPart := []
  cmr : List Byte := []
  /-- Frames of the weight bindings that step 6 of the teardown removed, for step 7 to zero (R577): 64 KiB units by partition. -/
  toZero : Tab (List Nat) := []
  /-- Teardown (R577): abandoned count, FENCED, drain limit as hub count, the destroy's long operation. -/
  abandoned : Nat := 0
  fenced : Bool := false
  drainBy : Nat := 0
  destroyOp : Option Nat := none
deriving DecidableEq, Repr

/-- A lane pair of a fabric port (R763 to R772). -/
structure LanePair where
  up : Bool := false
  txSeq : Nat := 0
  rxSeq : Nat := 0
  /-- Flits sent and not acknowledged: sequence and bytes (R765, R766). -/
  replay : List (Nat × List Byte) := []
  /-- Packets that wait to be sent, with their source: an ingress port 0–5, or 6 for the local die (R776). -/
  txq : List (Nat × Packet) := []
  rxq : List Packet := []
  /-- How many of the first packets of `rxq` came before the last training, whose grant leaves their credits unowed (R772). -/
  old : Nat := 0
  /-- Round-robin places of R776: the traffic class served last, and the source served last by class, 4 the control class. -/
  lastTc : Nat := 3
  lastSrc : Tab Nat := []
  /-- Credits that the receiver has freed and not yet returned, by class, in 64-byte units. -/
  owed : Tab Nat := []
  /-- The hub count since which the packet at the head of a buffer class of TC3 is held (R808), by class. -/
  heldAt : Tab Nat := []
  /-- Payload bytes of a packet that spans flits. -/
  partialRx : List Byte := []
  nakSent : Bool := false
  naks : Nat := 0
  nakSeq : Nat := 0
  /-- Transmit credits left by class 0–9, in 64-byte units (R773, R774). -/
  credits : Tab Nat := []
  retraining : Bool := false
  /-- Lanes are locked and the identity exchange runs (R835). -/
  locked : Bool := false
  retrains : Nat := 0
  crcErrors : Nat := 0
  /-- The partner's identity of the last exchange, and whether this training or retrain has received one (R835, R840). -/
  identity : Option Identity := none
  seen : Bool := false
  lastAck : Nat := 0
  /-- The hub count at which the lane pair last sent its identity, in this training or retrain (R835). -/
  identAt : Option Nat := none
deriving DecidableEq, Repr

/-- State of a fabric port (R769, R819, R838). -/
inductive PortSt where
  | down | training | up | disabled
deriving DecidableEq, Repr

/-- A fabric port: state, check results and counters. -/
structure Port where
  st : PortSt := .down
  waived : Bool := false
  check : Nat := 0
  disable : Bool := false
  /-- The port's neighbour lies in the module's slice (R816). -/
  inSlice : Bool := false
  disabling : Option Nat := none
  /-- A new plan disables the port, which then trains afresh (R834). -/
  replan : Bool := false
  lps : Tab LanePair := []
  txBytes : Nat := 0
  rxBytes : Nat := 0
  fwdBytes : Nat := 0
  fec : Nat := 0
  fecu : Nat := 0
  replays : Nat := 0
  /-- Hub counts of completed retrains (R769). -/
  trainedAt : List Nat := []
  errStatus : Nat := 0
  retryAt : Nat := 0
  absentBy : Option Nat := none
  /-- FP_NEIGHBOUR: module and port of lane pair 0 at the last check (R837). -/
  neighbour : Option (Nat × Nat) := none
deriving DecidableEq, Repr

/-- State of an RDMA connection. -/
inductive ConnSt where
  | opening | ready | error
deriving DecidableEq, Repr

/-- An RDMA connection (R872 to R879): the sixteen words of CONN_OPEN, the numbers of its reply, the rate in millionths of the
line rate with the hub count of its last change, the outbound requests that have not been answered (partition, instance),
oldest first, and the retransmissions of the oldest. -/
structure Conn where
  st : ConnSt := .opening
  ctx : Nat
  fn : Nat
  words : List Nat
  qpn : Nat := 0
  key : Nat := 0
  op : Nat := 0
  rate : Nat := 1000000
  rateAt : Nat := 0
  outst : List (Nat × Nat) := []
  retries : Nat := 0
  /-- The local address that the connection took when it was opened (R884), and the hub count at which its oldest request was last
  sent (R878). -/
  addr : List Byte := []
  sentAt : Nat := 0
deriving DecidableEq, Repr

/-- A completion that the module returned to a PCIe read: the function, whether the EP bit is set (R859), the bytes; or the Request
Retry Status answer to a configuration request (R902). -/
structure Cpl where
  fn : Nat
  ep : Bool := false
  rrs : Bool := false
  bytes : List Byte
deriving DecidableEq, Repr

/-- A write that the module has posted to host memory: address, bytes, the Relaxed Ordering attribute (R853), and the id and epoch
of the context that it belongs to, 0 where it belongs to none (R575). -/
structure HostWr where
  addr : Nat
  bytes : List Byte
  relaxed : Bool := false
  ctx : Nat := 0
  epoch : Nat := 0
deriving DecidableEq, Repr

/-- What the module has sent on Ethernet: connection, kind (0 RDMA WRITE, 1 WRITE with Immediate, 2 READ request, 3 NAK of an
inbound request, 4 READ response, 5 an ARP or Neighbor Discovery answer of a port), key, address, bytes, immediate, the id and
epoch of the context (R575), and of a READ request the number of bytes. -/
structure EthOut where
  conn : Nat
  kind : Nat
  key : Nat := 0
  addr : Nat := 0
  bytes : List Byte := []
  imm : Nat := 0
  ctx : Nat := 0
  epoch : Nat := 0
  len : Nat := 0
deriving DecidableEq, Repr

/-- An image in the weight store (R703 to R714): header and region words, the hash list and the signature of a signed image, the
stack of chunk 0, each stored chunk's ciphertext, and the chunks marked bad (R750). -/
structure NvImage where
  header : List Nat
  regions : List (List Nat)
  hashes : List (List Byte)
  sig : List Byte := []
  s0 : Nat := 0
  chunks : Tab (List Byte) := []
  bad : List Nat := []
deriving DecidableEq, Repr

/-- The weight store: images by handle, chunks in use and chunks ever written by stack, stacks whose wear has been logged
(R704, R706). -/
structure Nvws where
  images : Tab NvImage := []
  used : Tab Nat := []
  writes : Tab Nat := []
  worn : List Nat := []
  mounted : Bool := false
deriving DecidableEq, Repr

/-- A running load or install (R728 to R739): its long operation, the request words, the content key, the image as read (an
install stores its chunks here until the directory entry is written), the chunks still to come, the failed reads of each, the
re-reads in all, the hub count of the last request, and the handle an install will give. -/
structure Load where
  op : Nat
  ctx : Nat
  words : List Nat
  key : List Byte
  image : NvImage
  todo : List Nat
  tries : Tab Nat := []
  rereads : Nat := 0
  reqAt : Nat := 0
  /-- Hub count of the last new request of a chunk that is read again (R735, R736). -/
  reReq : Tab Nat := []
  handle : Nat := 0
deriving DecidableEq, Repr

/-- The PCIe endpoint: trained rate in tenths of GT/s and width, SR-IOV enable and NumVFs, System Page Size (R863), the VF partition map record in
SPI flash (no bytes where none was ever written) and the map in effect (PART_MASK of VF1 to VF8, R594 to R597). -/
structure Pcie where
  gts : Nat := 0
  lanes : Nat := 0
  vfEn : Bool := false
  numVfs : Nat := 0
  pageSize : Nat := 1
  mapRecord : List Byte := []
  mask : List Nat := [0, 0, 0, 0, 0, 0, 0, 0]
deriving DecidableEq, Repr

/-- Supplies and sideband pins (R890, R895, R896, R1067 to R1071): standby power of the Twilight island, the PWR_EN and RESET_N
inputs, the 25 MHz reference, main rails ramping and in regulation, the latch of R1069 that keeps them off, the hub count at which PWR_EN last fell,
the outputs THERM_N and ALERT_N, and whether the coolant outlet holds THERM_N low. FAULT_N stands in the state itself. -/
structure Pins where
  standby : Bool := false
  pwrEn : Bool := false
  resetN : Bool := false
  refclk : Bool := true
  ramping : Bool := false
  rails : Bool := false
  latched : Bool := false
  fellAt : Option Nat := none
  thermN : Bool := true
  alertN : Bool := true
  outletHot : Bool := false
deriving DecidableEq, Repr

/-- What last reset the module (R895): standby power came up, PWR_EN fell, RESET_N was asserted, or an event switched the main rails
off (R1009). -/
inductive ResetCause where
  | standby | pwrEn | resetN
  | shutOff (code : Nat)
deriving DecidableEq, Repr

/-- How a training item stands (R905 to R908). -/
inductive TrainSt where
  | idle | saved | refining | waitCold | cold | coldRetry | done | failed
deriving DecidableEq, Repr

/-- A saved training record (R921): die temperature in degrees, rail voltage in mV, hub count, version of the training firmware,
repair records of the stack, partner of the lane pair. -/
structure SavedRec where
  tempC : Nat
  railMv : Nat
  at_ : Nat
  fw : Nat
  repairs : List Nat := []
  partner : Option Identity := none
deriving DecidableEq, Repr

/-- What the fuses of the nine dies hold and Dawn loads (R897): trim and on-die memory repair by die, stepping, serial number, roll-back
counters SEC, HUB, COMPUTE. -/
structure DieFuses where
  trim : List Nat := []
  memRepair : List Nat := []
  stepping : Nat := 0
  serial : Nat := 0
  counters : List Nat := [0, 0, 0]
deriving DecidableEq, Repr

/-- Bring-up (chapter 19): STAGE as GID_BRINGUP numbers it, the counts at its origin and at the end of Dawn, the
cause of a halt, what Sunrise found, the training items 0–71, partitions zeroed, Morning cores by 128 × partition + core (1:
failed once, 2: running, 3: failed), and the count of readiness. `refined` names the items that were refined or trained cold. -/
structure Boot where
  stage : Nat := 1
  dawn : Bool := false
  originAt : Nat := 0
  dawnEndAt : Nat := 0
  haltCause : Nat := 0
  savedAll : Bool := false
  planValid : Bool := false
  partFailed : List Nat := []
  readyAt : Nat := 0
  settled : Bool := false
  items : Tab TrainSt := []
  refined : List Nat := []
  /-- The same items, whatever clears their records meanwhile (GID_BRINGUP.SAVED_ALL). -/
  worked : List Nat := []
  /-- What Dawn has loaded from the fuses (R897). -/
  loaded : Option DieFuses := none
  zeroed : List Nat := []
  cores : Tab Nat := []
  /-- Version the identity block reports: written at the end of Sunrise (R901). -/
  cmi : Bool := false
  /-- Die temperatures and rail voltages at the start of Morning, by die. -/
  temps : List Nat := []
  railsMv : List Nat := []
deriving DecidableEq, Repr

/-- The power manager (R955 to R966, R975): E in mW, cap and floor, the last measurement, D, holds and episodes, and whether the
module is in A4. -/
structure Power where
  e : Nat := 0
  capSteps : Nat := 160
  floorPct : Nat := 30
  avgMw : Nat := 0
  dMw : Nat := 0
  powerW : Nat := 0
  inputMv : Nat := 0
  input10ma : Nat := 0
  maxDieC : Nat := 0
  maxHbmC : Nat := 0
  outletC : Nat := 0
  inletC : Nat := 0
  fillerMw : Nat := 0
  hold : Bool := false
  capActive : Bool := false
  short : Bool := false
  nextAt : Nat := 0
  a4 : Bool := false
  a4Waking : Bool := false
  a4Ports : Tab Nat := []
deriving DecidableEq, Repr

/-- The live debug challenge (R1055, R1056): level, nonce, EXPIRES. -/
structure Challenge where
  level : Nat
  nonce : List Byte
  expires : Nat
deriving DecidableEq, Repr

/-- Fuses, keys and measurements (chapter 22): serial, trim, memory repair and stepping of the dies (R897), digests of the signing keys and of the debug authority, revoked key
indices, counters SEC, HUB, COMPUTE, the firmware banks and the active one, the manifest of the running bundle, MR0 to MR7,
the attestation key's certificate (no bytes where no key exists), the challenge, EVER, UNLOCKS and DBG_RESUME.PARTITION. -/
structure Sec where
  serial : Nat := 0
  trim : List Nat := []
  memRepair : List Nat := []
  stepping : Nat := 0
  keyDigests : List (List Byte) := []
  dbgDigest : List Byte := []
  revoked : List Nat := []
  counters : List Nat := [0, 0, 0]
  bankA : List Byte := []
  bankB : List Byte := []
  badA : Bool := false
  badB : Bool := false
  activeB : Bool := false
  /-- The bank that the running firmware came from: false for A. -/
  runsB : Bool := false
  /-- The bundle that runs: what that bank held when Sunrise loaded it (R568, R1052). -/
  run : List Byte := []
  raised : Bool := false
  mr : List (List Byte) := List.replicate 8 (List.replicate 32 0)
  akCert : List Byte := []
  chal : Option Challenge := none
  ever : Bool := false
  unlocks : Nat := 0
  resumePart : Nat := 0
deriving DecidableEq, Repr

/-- An HBM repair that runs (R679 to R684): its long operation, the kind (0 soft, 1 hard, 2 spare row) and the payload words. -/
structure RepairOp where
  op : Nat
  kind : Nat
  words : List Nat
deriving DecidableEq, Repr

/-- An attestation quote being signed (R1052, R1054): its long operation, the body taken, host address. -/
structure QuoteOp where
  op : Nat
  body : List Byte
  addr : Nat
deriving DecidableEq, Repr

end Sys2Proof.Machine
end

