-- ==== Sys2Proof/Machine/State.lean ====
section
/-! DEFINITION. The state of the module, its faults and refusals, and the state at reset. -/

namespace Sys2Proof.Machine

/-- Why a step stops. -/
inductive Fault where
  /-- A command whose operand no real part could present: a flit that is not 256 bytes, in FLIT_RECEIVE. Safe: nothing is
  claimed of it. -/
  | badOperand (what : String)
deriving DecidableEq, Repr

/-- Why a command has no meaning. -/
inductive Refusal where
  /-- Raised by the dispatcher for a row of the opcode table that has no meaning yet. Safe: nothing can be proved of it. -/
  | notModelled (mnemonic : String)
  /-- Raised by a meaning whose row the spec gives no effect. Safe: the machine stops where the part goes on. -/
  | noEffectGiven (what : String)
deriving DecidableEq, Repr

/-- The module. -/
structure State where
  /-- Commands that wait, first in first out. -/
  pending : List Instr := []
  tiles : Tab Tile := []
  parts : Tab Part := []
  ctxs : Tab Ctx := []
  fns : Tab Fn := []
  /-- Requests that the MCP has taken and not begun, oldest first, with their functions; the function served last (R555). -/
  taken : List (Nat × Req) := []
  rrLast : Nat := 8
  log : Log := {}
  ops : Tab LongOp := []
  nextOp : Nat := 0
  ports : Tab Port := []
  /-- The hub counter (R642). -/
  hub : Nat := 0
  mcpReady : Bool := false
  /-- Hub count at which the watchdogs of the MCP and of the other hub cores were last known to be served (R52, R985; DEDUCED, log
  entry 84). -/
  mcpAt : Nat := 0
  ready : Bool := false
  /-- A Module-fatal event has stopped the module (R1007). -/
  stopped : Bool := false
  faultN : Bool := true
  /-- Job abort counter (R1020), and aborts seen: source module, sequence, hub count (R817). -/
  abortSeq : Nat := 0
  abortsSeen : List (Nat × Nat × Nat) := []
  moduleId : Nat := 0
  /-- Fatal records in SPI flash: slot and bytes as words (R1028); the next slot. -/
  flashFatal : Tab FatalRec := []
  nextFatal : Nat := 0
  pldm : List Ev := []
  /-- The PLDM counters of Corrected events, by code (R1029). -/
  pldmCounts : Tab Nat := []
  /-- Hub counts of Module-fatal events, and of the counted resets of partitions that SERVICE_RESTORE brought back (R1013). -/
  fatalLog : List Nat := []
  /-- Pending repairs of resident superblocks (R754). -/
  repairs : List Repair := []
  moduleOos : Bool := false
  escal : List Nat := [3, 10, 6, 60, 1]
  /-- The cabling plan in SPI flash and the plan in effect, as the bytes of the record (R831 to R834). -/
  planStored : Option (List Byte) := none
  /-- The stored plan, or its MODULE_ID, is still to take effect, at the next bring-up (R834). -/
  planWaits : Bool := false
  plan : Option (List Byte) := none
  /-- Source module, die and class (8 × (8 × module + die) + TC) of which a WRITE or ADD was answered other than OK (R794). -/
  fabFail : List Nat := []
  conns : Tab Conn := []
  ethOut : List EthOut := []
  /-- Discarded frames by port (R871). -/
  ethDiscard : Tab Nat := []
  /-- The Ethernet address record as stored, and as each port has taken it (R884). -/
  ethRecord : List Byte := []
  ethAddr : Tab (List Byte) := []
  nvws : Nvws := {}
  loads : Tab Load := []
  nextLoad : Nat := 0
  pcie : Pcie := {}
  /-- TRC_CONTROL.ENABLE and TRC_MADE (R1099); the debug level (R1056). -/
  trcEn : Bool := false
  trcMade : Nat := 0
  dbgLevel : Nat := 0
  /-- Cycles of blocked contexts seen by the last deadlock check (R541), each as its sorted contexts. -/
  cycles : List (List Nat) := []
  pins : Pins := {}
  boot : Boot := {}
  saved : Tab SavedRec := []
  power : Power := {}
  sec : Sec := {}
  /-- Shut-off events that the Twilight island holds for the next Sunrise (R1009, R1068), oldest first: code, hub count, mV, 10 mA. -/
  twilight : List (List Nat) := []
  /-- The cause of the last module reset, in the Twilight island (R895). -/
  resetCause : ResetCause := .standby
  /-- Events of Dawn and early Sunrise that wait for the log (R936). -/
  early : List Ev := []
  hbmOp : Option RepairOp := none
  quotes : Tab QuoteOp := []
  /-- The instruction in the TAP's instruction register, IDCODE at reset, and the data register that it has selected (R887 to R889). -/
  jtag : Nat := 1
  jtagDr : Nat := 0x10576C63
  /-- PLDM sensor values of the last refresh (R881), and the readiness state sensor (R915). -/
  sensors : List Nat := []
  readySensor : Bool := false
  /-- Component identifiers of the firmware updates that PLDM has taken, oldest first (R882). -/
  fwUpdates : List Nat := []
  /-- What PLDM has reported of each firmware bundle written, oldest first: whether it was accepted (R1043). -/
  fwResults : List Bool := []
  /-- The die counts that the Twilight island keeps through A4, with the hub count at which it took them (R643, R895). -/
  keptCounts : Option (Nat × List Nat) := none
  /-- Identity blocks that lane pairs have sent (R835): port, lane pair, bytes. -/
  identOut : List (Nat × Nat × List Byte) := []
  /-- Flits that lane pairs have sent, replayed ones and IDLE flits among them, oldest first (R763 to R766): port, lane pair, bytes. -/
  flitOut : List (Nat × Nat × List Byte) := []
  /-- Writes the module has posted to host memory, oldest first. -/
  hostOut : List HostWr := []
  /-- Completions of PCIe reads, oldest first. -/
  cpls : List Cpl := []
  /-- The next unused index of Config.freeNat: the model's own field, no part of the hardware. -/
  free : Nat := 0
deriving DecidableEq, Repr

/-- The module at reset. DESIGN CHOICE, log entry 9. DEDUCED, log entry 10. -/
def State.reset : State := {}

end Sys2Proof.Machine
end

