-- ==== Sys2Proof/Machine/Ops.lean ====
section
/-! DEFINITION. The named operations over sparse tables, memories and words, and the accessors of the state's parts. Every
meaning reads and writes the state through these. -/

namespace Sys2Proof.Machine

/-! Sparse tables. -/

/-- The entry of key k. -/
def tabFind {α : Type} : Tab α → Nat → Option α
  | [], _ => none
  | (j, x) :: t, k => if k = j then some x else tabFind t k

/-- The entry of key k, or d. -/
def tabGet {α : Type} (d : α) (t : Tab α) (k : Nat) : α :=
  match tabFind t k with
  | some x => x
  | none => d

/-- Put x at key k, keys strictly rising. -/
def tabSet {α : Type} : Tab α → Nat → α → Tab α
  | [], k, x => [(k, x)]
  | (j, y) :: t, k, x =>
    if k < j then (k, x) :: (j, y) :: t
    else if k = j then (k, x) :: t
    else (j, y) :: tabSet t k x

/-- Remove key k. -/
def tabDel {α : Type} : Tab α → Nat → Tab α
  | [], _ => []
  | (j, y) :: t, k => if k = j then t else (j, y) :: tabDel t k

/-- Change the entry of key k, d standing for an absent one. -/
def tabMod {α : Type} (d : α) (t : Tab α) (k : Nat) (f : α → α) : Tab α := tabSet t k (f (tabGet d t k))

/-- Change every entry. -/
def tabMap {α : Type} (t : Tab α) (f : Nat → α → α) : Tab α := t.map fun e => (e.1, f e.1 e.2)

/-! Sets of numbers, strictly rising. -/

/-- Add x. -/
def setIns : List Nat → Nat → List Nat
  | [], x => [x]
  | y :: l, x => if x < y then x :: y :: l else if x = y then y :: l else y :: setIns l x

/-- Remove x. -/
def setDel (l : List Nat) (x : Nat) : List Nat := l.filter (· != x)

/-- Add every number of a list. -/
def setInsAll (l xs : List Nat) : List Nat := xs.foldl setIns l

/-! Memories: canonical lists of cells. -/

/-- The byte at address a: an unlisted byte reads 0 (R658, R909; DESIGN CHOICE, log entry 6). -/
def memByte : Mem → Nat → Byte
  | [], _ => 0
  | (b, x) :: m, a => if a = b then x else memByte m a

/-- Write one byte, keeping the canonical form: a byte of 0 is not listed. -/
def memPut : Mem → Nat → Byte → Mem
  | [], a, x => if x = 0 then [] else [(a, x)]
  | (b, y) :: m, a, x =>
    if a < b then (if x = 0 then (b, y) :: m else (a, x) :: (b, y) :: m)
    else if a = b then (if x = 0 then m else (a, x) :: m)
    else (b, y) :: memPut m a x

/-- Every listed address is above the bound, addresses rise strictly and no listed byte is 0. -/
def Mem.wfFrom : Option Nat → Mem → Bool
  | _, [] => true
  | lo, (a, x) :: m => (match lo with | none => true | some l => l < a) && x != 0 && Mem.wfFrom (some a) m

/-- The canonical form. -/
def Mem.wf (m : Mem) : Bool := Mem.wfFrom none m

/-- Read n bytes, lowest address first. -/
def memRead (m : Mem) (a n : Nat) : List Byte := (List.range n).map fun i => memByte m (a + i)

/-- Write bytes at ascending addresses. -/
def memWrite : Mem → Nat → List Byte → Mem
  | m, _, [] => m
  | m, a, x :: xs => memWrite (memPut m a x) (a + 1) xs

/-- Write n zero bytes: remove what is listed there. -/
def memZero (m : Mem) (a n : Nat) : Mem := m.filter fun c => c.1 < a || a + n ≤ c.1

/-- Little-endian value of bytes (R11). -/
def leNat : List Byte → Nat
  | [] => 0
  | b :: bs => b.toNat + 256 * leNat bs

/-- The n little-endian bytes of a value. -/
def natLe : Nat → Nat → List Byte
  | 0, _ => []
  | n + 1, v => BitVec.ofNat 8 v :: natLe n (v / 256)

/-- The 32-bit word at byte address a. -/
def memWord (m : Mem) (a : Nat) : Nat := leNat (memRead m a 4)

/-- n 32-bit words from byte address a. -/
def memWords (m : Mem) (a n : Nat) : List Nat := (List.range n).map fun i => memWord m (a + 4 * i)

/-- Word i of a list of words, 0 beyond its end. -/
def wd (l : List Nat) (i : Nat) : Nat := l.getD i 0

/-- The 64-bit value in words i and i + 1. -/
def wd64 (l : List Nat) (i : Nat) : Nat := wd l i + 2 ^ 32 * wd l (i + 1)

/-- The 32-bit words of a byte list (a short last word is padded with 0). -/
def bytesWords : Nat → List Byte → List Nat
  | 0, _ => []
  | n + 1, bs => leNat (bs.take 4) :: bytesWords n (bs.drop 4)

/-- The bytes of 32-bit words. -/
def wordsBytes (ws : List Nat) : List Byte := ws.flatMap (natLe 4)

/-- Every 64-byte line that bytes a to a + n − 1 touch. -/
def linesOf (a n : Nat) : List Nat :=
  if n = 0 then [] else (List.range ((a + n - 1) / 64 - a / 64 + 1)).map (a / 64 + ·)

/-! Accessors. -/

/-- Tile t of partition p. -/
def State.tile (s : State) (p t : Nat) : Tile := tabGet {} s.tiles (16 * p + t)

/-- Replace tile t of partition p. -/
def State.setTile (s : State) (p t : Nat) (x : Tile) : State := { s with tiles := tabSet s.tiles (16 * p + t) x }

/-- Partition p. -/
def State.part (s : State) (p : Nat) : Part := tabGet {} s.parts p

/-- Replace partition p. -/
def State.setPart (s : State) (p : Nat) (x : Part) : State := { s with parts := tabSet s.parts p x }

/-- Context c. -/
def State.ctx (s : State) (c : Nat) : Ctx := tabGet {} s.ctxs c

/-- Post a write to host memory on behalf of context c, 0 for none (R575, R853). -/
def State.post (s : State) (c addr : Nat) (bytes : List Byte) (relaxed : Bool) : State :=
  { s with hostOut := s.hostOut ++ [{ addr, bytes, relaxed, ctx := c, epoch := (s.ctx c).epoch }] }

/-- Replace context c. -/
def State.setCtx (s : State) (c : Nat) (x : Ctx) : State := { s with ctxs := tabSet s.ctxs c x }

/-- What context c has on partition p. -/
def State.cp (s : State) (c p : Nat) : CtxPart := tabGet {} (s.ctx c).cpart p

/-- Replace what context c has on partition p. -/
def State.setCp (s : State) (c p : Nat) (x : CtxPart) : State :=
  s.setCtx c { s.ctx c with cpart := tabSet (s.ctx c).cpart p x }

/-- Function fn. -/
def State.fn (s : State) (k : Nat) : Fn := tabGet {} s.fns k

/-- Replace function fn. -/
def State.setFn (s : State) (k : Nat) (x : Fn) : State := { s with fns := tabSet s.fns k x }

/-- Port k. -/
def State.port (s : State) (k : Nat) : Port := tabGet {} s.ports k

/-- Replace port k. -/
def State.setPort (s : State) (k : Nat) (x : Port) : State := { s with ports := tabSet s.ports k x }

/-- Lane pair n of port k. -/
def State.lp (s : State) (k n : Nat) : LanePair := tabGet {} (s.port k).lps n

/-- Replace lane pair n of port k. -/
def State.setLp (s : State) (k n : Nat) (x : LanePair) : State :=
  s.setPort k { s.port k with lps := tabSet (s.port k).lps n x }

/-- Node instance i of partition p. -/
def State.inst? (s : State) (p i : Nat) : Option Inst := tabFind (s.part p).insts i

/-- Replace node instance i of partition p. -/
def State.setInst (s : State) (p i : Nat) (x : Inst) : State :=
  s.setPart p { s.part p with insts := tabSet (s.part p).insts i x }

/-- Change node instance i of partition p, where it exists. -/
def State.modInst (s : State) (p i : Nat) (f : Inst → Inst) : State :=
  match s.inst? p i with
  | some x => s.setInst p i (f x)
  | none => s

/-- A free value, and the state that has used it (R147, R211, R1111; DESIGN CHOICE, log entry 3). -/
def State.takeFree (s : State) : Nat × State := (Config.freeNat s.free, { s with free := s.free + 1 })

/-- The eight partitions. -/
def allParts : List Nat := [0, 1, 2, 3, 4, 5, 6, 7]

/-- The sixteen tiles of a partition. -/
def allTiles : List Nat := [0, 1, 2, 3, 4, 5, 6, 7, 8, 9, 10, 11, 12, 13, 14, 15]

/-- Counts of the 25 MHz reference clock in n microseconds (R641). -/
def us (n : Nat) : Nat := 25 * n

/-- The user contexts that occupy partition p: not FREE and naming p. -/
def State.ctxsOn (s : State) (p : Nat) : List Nat :=
  (s.ctxs.filter fun e => e.2.st != .free && e.2.parts.contains p).map (·.1)

/-- Answer a next state: the meanings of almost all commands. -/
def next (s : State) : Host.Outcome State Fault Refusal := .next s

end Sys2Proof.Machine
end

