-- ==== Sys2Proof/Machine/EventLog.lean ====
section
/-! DEFINITION. Making event occurrences into log records and event messages (R563, R570, R1022 to R1029, R1104). -/

namespace Sys2Proof.Machine

/-- The class of an event code (R979). -/
def evClass (code : Nat) : Nat := code / 4096 % 16

/-- The counter that an event's time is taken from: the die counter of its partition, else the hub counter (R644). -/
def evTime (s : State) (part : Option Nat) : Nat :=
  match part with
  | some p => (s.part p).count
  | none => s.hub

/-- The function that an event message of context c goes to: the owner of a user context, else the PF (R570). -/
def evFn (s : State) (c : Nat) : Nat := if c = 0 then 0 else (s.ctx c).owner

/-- Count one more dropped message, of event `code`, in EVENTS_LOST messages (R563). -/
def addLost (code : Nat) : List EvMsg → List EvMsg
  | [] => []
  | l :: q =>
    if l.lost then { l with rep := l.rep + 1, data := [wd l.data 0 % 65536 + 65536 * code] } :: q else l :: addLost code q

/-- Put an event message in a function's queue of 64, or fold it into EVENTS_LOST; while one is queued, a drop adds to it
(R563). -/
def queueEvent (q : List EvMsg) (m : EvMsg) : List EvMsg :=
  if q.length < 64 then q ++ [m]
  else if q.any (·.lost) then addLost m.code q
  else
    match q.getLast? with
    | none => [m]
    | some l =>
      q.dropLast ++ [{ code := 0x1294, ctx := 0, part := none, rep := 2, time := l.time,
                       data := [l.code + 65536 * m.code], lost := true }]

/-- Send EVENT_NOTIFY (R570). A stopped module makes none (R1007). -/
def notify (s : State) (m : EvMsg) : State :=
  if s.stopped then s
  else
    let k := evFn s m.ctx
    s.setFn k { s.fn k with events := queueEvent (s.fn k).events m }

/-- Rank of an event's class in the PLDM queue: class 5 goes ahead of class 4, that ahead of classes 2 and 3 (R1029). -/
def pldmRank (code : Nat) : Nat := if evClass code = 5 then 2 else if evClass code = 4 then 1 else 0

/-- The first event of rank r. -/
def pldmOf (q : List Ev) (r : Nat) : Option Ev := q.find? fun x => pldmRank x.code == r

/-- The event of the queue that the management controller sends next: the oldest of the highest rank (R1029). -/
def pldmNext (q : List Ev) : Option Ev := ((pldmOf q 2).or (pldmOf q 1)).or (pldmOf q 0)

/-- The queue, newest first, without its newest event of a class below c; none where there is no such event. -/
def pldmDropLower (c : Nat) : List Ev → Option (List Ev)
  | [] => none
  | x :: q => if evClass x.code < c then some q else (pldmDropLower c q).map (x :: ·)

/-- Put an event in the PLDM queue of 32, which stands in the order of arrival: one that finds it full takes the place of the
newest event of a lower class, or is dropped (R1029). Corrected events are not queued. -/
def pldmQueue (q : List Ev) (e : Ev) : List Ev :=
  if evClass e.code ≤ 1 then q
  else if q.length < 32 then q ++ [e]
  else
    match pldmDropLower (evClass e.code) q.reverse with
    | some q' => q'.reverse ++ [e]
    | none => q

/-- Count an occurrence in the PLDM counters, by which alone Corrected events are reported (R1029). -/
def pldmCount (t : Tab Nat) (e : Ev) : Tab Nat := if evClass e.code = 1 then tabMod 0 t e.code (· + 1) else t

/-- Whether a record stands for the same code, partition and context within 1 s after its first occurrence (R1023). A counter that a
module reset has set back lies before it: the occurrence makes a record of its own (DEDUCED, log entry 29). -/
def coalesces (r : LogRec) (e : Ev) (time : Nat) : Bool :=
  r.code == e.code && r.part == e.part && r.ctx == e.ctx && r.time ≤ time && time < r.time + 25000000

/-- One more occurrence in a record, saturating (R1022). -/
def bump (r : LogRec) : LogRec := { r with count := min (r.count + 1) (2 ^ 32 - 1) }

/-- Add 1 to the count of the record with sequence q, where it is held. -/
def bumpSeq (l : List LogRec) (q : Nat) : List LogRec := l.map fun r => if r.seq = q then bump r else r

/-- The lowest class among records. -/
def lowClass (l : List LogRec) : Nat := l.foldl (fun a r => min a (evClass r.code)) 15

/-- Remove the oldest (last) record of class c; the record removed. -/
def dropOldest (l : List LogRec) (c : Nat) : List LogRec × Option LogRec :=
  let r := l.reverse
  match r.find? (fun x => evClass x.code == c) with
  | none => (l, none)
  | some x => ((r.erase x).reverse, some x)

/-- Key of a source: one event code from one die or from the hub (R1024). -/
def srcKey (e : Ev) : Nat := 16 * e.code + (match e.part with | some p => p + 1 | none => 0)

/-- What logging one occurrence did: the new log, a lost code (R1027), whether a message is made (R570). -/
structure Logged where
  log : Log
  lost : Option Nat
  made : Bool
deriving DecidableEq, Repr

/-- Log one occurrence at counter value `time` (R1023 to R1026). DEDUCED, log entry 29. -/
def logOne (g : Log) (e : Ev) (time : Nat) : Logged :=
  let fatal := 4 ≤ evClass e.code
  let area := if fatal then g.fatal else g.general
  match area with
  | r :: rest =>
    if coalesces r e time then
      let area' := bump r :: rest
      ⟨if fatal then { g with fatal := area' } else { g with general := area' }, none, false⟩
    else make g area fatal
  | [] => make g area fatal
where
  make (g : Log) (area : List LogRec) (fatal : Bool) : Logged :=
    let sec := time / 25000000
    let rt : LogRate := tabGet ⟨sec, 0, 0⟩ g.rate (srcKey e)
    let made := if rt.second = sec then rt.made else 0
    if 100 ≤ made then
      if area.any (fun r => r.seq == rt.newest && r.code == e.code && r.part == e.part) then
        let area' := bumpSeq area rt.newest
        ⟨if fatal then { g with fatal := area' } else { g with general := area' }, none, false⟩
      else ⟨g, some e.code, false⟩
    else
      let seq := if fatal then g.fatSeq else g.genSeq
      let rec_ : LogRec := { seq, code := e.code, ctx := e.ctx, part := e.part, count := 1, time, data := e.data,
                               ord := g.ord }
      let g1 := { g with ord := g.ord + 1, rate := tabSet g.rate (srcKey e) ⟨sec, made + 1, seq⟩ }
      if fatal then
        let full := 2048 ≤ area.length
        let at_ := if full then (area.getLast?.map (·.slot)).getD 0 else area.length
        ⟨{ g1 with fatal := { rec_ with slot := at_ } :: (if full then area.dropLast else area), fatSeq := (seq + 1) % 2 ^ 32 },
          if full then (area.getLast?.map (·.code)) else none, true⟩
      else if area.length < 30720 then
        ⟨{ g1 with general := { rec_ with slot := area.length } :: area, genSeq := (seq + 1) % 2 ^ 32 }, none, true⟩
      else if evClass e.code < lowClass area then
        ⟨{ g1 with rate := tabSet g.rate (srcKey e) ⟨sec, made + 1, rt.newest⟩ }, some e.code, true⟩
      else
        let d := dropOldest area (lowClass area)
        let at_ := (d.2.map (·.slot)).getD 0
        ⟨{ g1 with general := { rec_ with slot := at_ } :: d.1, genSeq := (seq + 1) % 2 ^ 32 }, d.2.map (·.code), true⟩

/-- Count a loss of code c at hub count h (R1027). A trace record, of class 0, counts in TRC_DROPPED alone (R1099). -/
def countLoss (g : Log) (c h : Nat) : Log :=
  { g with lost := tabMod 0 g.lost (evClass c) (fun n => min (n + 1) (2 ^ 32 - 1)),
           lastLoss := if evClass c = 0 then g.lastLoss else some h }

/-- Whether a loss at hub count h is the first after 10 s without loss (R1027). -/
def firstLoss (g : Log) (h : Nat) : Bool :=
  match g.lastLoss with
  | none => true
  | some l => l + 250000000 ≤ h

/-- The n newest records of two lists that are newest first. -/
def newestOf : Nat → List LogRec → List LogRec → List LogRec
  | 0, _, _ => []
  | n + 1, [], r :: b => r :: newestOf n [] b
  | n + 1, r :: a, [] => r :: newestOf n a []
  | n + 1, r :: a, q :: b =>
    if q.ord < r.ord then r :: newestOf n a (q :: b) else q :: newestOf n (r :: a) b
  | _, [], [] => []

/-- The records of a fatal-record slot: the fatal record and the 126 that precede it across both areas (R1028). -/
def fatalRecords (g : Log) : List LogRec := newestOf 127 g.fatal g.general

/-- Append the record of a class 4 or 5 event to SPI flash in rotation over 256 slots (R1028). -/
def writeFatal (s : State) : State :=
  { s with flashFatal := tabSet s.flashFatal s.nextFatal ⟨fatalRecords s.log, s.abortSeq, s.hub⟩, nextFatal := (s.nextFatal + 1) % 256 }

/-- Log an occurrence without following a loss further. DEDUCED, log entry 102. -/
def logEvent1 (s : State) (e : Ev) : State :=
  let time := evTime s e.part
  let l := logOne s.log e time
  let s1 := { s with log := l.log }
  let s2 := match l.lost with
    | some c => { s1 with log := countLoss s1.log c s1.hub }
    | none => s1
  let s3 := if l.made then
      notify s2 { code := e.code, ctx := e.ctx, part := e.part, rep := 1, time, data := e.data }
    else s2
  let q := pldmQueue s3.pldm e
  let s4 := { s3 with pldm := q, pldmCounts := pldmCount s3.pldmCounts e, pins := if q = s3.pldm then s3.pins else { s3.pins with alertN := false } }
  if 4 ≤ evClass e.code && l.made then writeFatal s4 else s4

/-- Log an occurrence (R1023), and LOG_OVERFLOW where it makes the first loss after 10 s without one (R1027, R1104).
DESIGN CHOICE, log entry 30. -/
def logEvent (s : State) (e : Ev) : State :=
  let l := logOne s.log e (evTime s e.part)
  let s1 := logEvent1 s e
  match l.lost with
  | none => s1
  | some c =>
    if evClass c != 0 && firstLoss s.log s.hub then logEvent1 s1 { code := 0x131B, data := [c + 65536 * e.code] } else s1

/-- Make a trace record of an instance's dispatch or commit point (R1099): no event, neither coalesced nor limited. -/
def traceRec (s : State) (code p ctx seg idx iter : Nat) : State :=
  if s.trcEn && 1 ≤ s.dbgLevel then
    let g := s.log
    let r : LogRec := { seq := g.genSeq, code, ctx, part := some p, count := 1, time := (s.part p).count,
                        data := [seg, idx, iter, ctx], ord := g.ord }
    let g1 := { g with ord := g.ord + 1 }
    let s1 := { s with trcMade := (s.trcMade + 1) % 2 ^ 64 }
    if g.general.length < 30720 then
      { s1 with log := { g1 with general := { r with slot := g.general.length } :: g.general, genSeq := (g.genSeq + 1) % 2 ^ 32 } }
    else if 0 < lowClass g.general then { s1 with log := countLoss g1 code s.hub }
    else
      let d := dropOldest g.general 0
      { s1 with log := countLoss { g1 with general := { r with slot := (d.2.map (·.slot)).getD 0 } :: d.1, genSeq := (g.genSeq + 1) % 2 ^ 32 } code s.hub }
  else s

end Sys2Proof.Machine
end

