-- ==== Sys2Proof/Machine/Access.lean ====
section
/-! DEFINITION. Device virtual memory and the HBM lines behind it: translation (R656 to R665), reading and writing with
poison (R669 to R672), resident weights (R751) and scratchpad access (R201 to R209). -/

namespace Sys2Proof.Machine

/-- Why an access ends its node, with the DVA that it met first. -/
inductive AccErr where
  /-- Unmapped, or bits [63:48] not 0 (R665). -/
  | unmapped (dva : Nat)
  /-- A write to a page mapped without WRITABLE (R665). -/
  | readOnly (dva : Nat)
  /-- The frames lie in a partition that is in reset (R993), named by `part`. -/
  | targetReset (dva part : Nat)
deriving DecidableEq, Repr

/-- Whether a mapping is live at version v and covers address a. -/
def Mapping.covers (m : Mapping) (v a : Nat) : Bool :=
  m.born ≤ v && (match m.died with | none => true | some d => v < d) && m.dva ≤ a && a < m.dva + 65536 * m.units.length

/-- The mapping of context c, live at version v, that covers address a. -/
def State.mapOf (s : State) (c v a : Nat) : Option Mapping := (s.ctx c).maps.find? fun m => m.covers v a

/-- Translate address a of context c at mapping version v: partition and DPA (R656 to R659). -/
def translate (s : State) (c v a : Nat) (write : Bool) : Except AccErr (Nat × Nat) :=
  if 2 ^ 48 ≤ a then .error (.unmapped a)
  else
    match s.mapOf c v a with
    | none => .error (.unmapped a)
    | some m =>
      if write && !m.writable then .error (.readOnly a)
      else .ok (m.part, 65536 * wd m.units ((a - m.dva) / 65536) + a % 65536)

/-- Whether an access that partition `frm` makes may reach partition p: a partition in reset serves no cross-die access
(R993). -/
def reachable (s : State) (frm p : Nat) : Bool := frm == p || (s.part p).reset == none

/-- The first address and length of each piece of [a, a + n) that lies in one 64-byte line. -/
def pieces (a n : Nat) : List (Nat × Nat) :=
  (linesOf a n).map fun l => (max a (64 * l), min (a + n) (64 * l + 64) - max a (64 * l))

/-- Whether every byte of [a, a + n) translates for the access; the first error. -/
def checkRange (s : State) (frm c v a n : Nat) (write : Bool) : Option AccErr :=
  (pieces a n).findSome? fun x =>
    match translate s c v x.1 write with
    | .error e => some e
    | .ok (p, _) => if reachable s frm p then none else some (.targetReset x.1 p)

/-- Coded size of a superblock at rate code r (R233). -/
def codedSize (r : Nat) : Nat :=
  if r = 0 then 4096 else if r = 1 then 3104 else if r = 2 then 2592 else if r = 3 then 2080 else 1568

/-- The superblock of a resident region that covers region offset o: region offset and length (R751). `entry i` is the
region's index-table entry i. -/
def superblockAt (region : List Nat) (entry : Nat → Nat) (o : Nat) : Nat × Nat :=
  let raw := (o / 4096 * 4096, 4096)
  if bitOf (wd region 0) 30 then
    let hit := (List.range (wd region 1)).find? fun i =>
      let e := entry i
      let st := wd64 region 10 + 32 * (e % 2 ^ 26)
      bitsOf e 28 26 ≤ 4 && st ≤ o && o < st + codedSize (bitsOf e 28 26)
    match hit with
    | some i => (wd64 region 10 + 32 * (entry i % 2 ^ 26), codedSize (bitsOf (entry i) 28 26))
    | none => raw
  else raw

/-- DPA of offset o in the frames of a generation on a partition. -/
def genDpa (units : List Nat) (o : Nat) : Nat := 65536 * wd units (o / 65536) + o % 65536

/-- The loaded generation, binding and window offset that hold the 64-byte line `line` of partition p, if any. -/
def residentOf (s : State) (p line : Nat) : Option (Nat × Nat × Nat × Nat) :=
  s.ctxs.findSome? fun ce => ce.2.bindings.findSome? fun be => be.2.gens.findSome? fun ge =>
    if ge.2.st = .loaded && !ge.2.damagedOn.contains p then
      match (tabGet [] ge.2.units p).findIdx? (· == line / 1024) with
      | some i => some (ce.1, be.1, ge.1, 65536 * i + 64 * (line % 1024))
      | none => none
    else none

/-- A generation becomes DAMAGED (R754): its repairs are given up, the re-runs that waited for them may not run, and a node that runs
with it does not run again once it has consumed its poison. The held nodes are abandoned by the next command that names them or that
settles a repair (DEDUCED, log entry 146). -/
def damageGen (s : State) (c b g : Nat) (chunk : Nat) : State :=
  let x := s.ctx c
  let B := tabGet {} x.bindings b
  let gens := tabMap B.gens fun k w => if k = g then { w with st := .damaged } else w
  let holds (i : Inst) : Bool := i.ctx == c && tabFind i.bindings b == some g
  let mark (i : Inst) : Inst :=
    if !holds i then i
    else if i.st == .ready && i.rerun && i.tainted then { i with noRerun := true }
    else if i.st == .running then { i with damaged := true }
    else i
  let s1 := { s.setCtx c { x with bindings := tabSet x.bindings b { B with gens } } with
    repairs := s.repairs.filter fun r => !(r.ctx == c && r.binding == b && r.gen == g)
    parts := tabMap s.parts fun _ P => { P with insts := tabMap P.insts fun _ i => mark i } }
  logEvent s1 { code := 0x22B2, ctx := c, data := [c, b, g, chunk] }

/-- The resident region of partition p that covers window offset o. -/
def regionAt (w : WGen) (p o : Nat) : Option (List Nat) :=
  w.regions.find? fun r => !bitOf (wd r 0) 31 && bitsOf (wd r 0) 2 0 == p && wd64 r 6 ≤ o && o < wd64 r 6 + wd64 r 4

/-- The chunk of the payload that window offset o of partition p comes from. -/
def chunkAt (w : WGen) (p o : Nat) : Nat :=
  match regionAt w p o with
  | some r => (wd64 r 2 + (o - wd64 r 6)) / 1048576
  | none => 0

/-- The superblocks of generation w, as window offset and length, that hold a byte of the line at window offset `off` of partition p
(R751): a coded superblock starts at a multiple of 32 bytes, so a line meets at most two. -/
def affectedSbs (w : WGen) (m : Mem) (p off : Nat) : List (Nat × Nat) :=
  let units := tabGet [] w.units p
  ([off, off + 32].filterMap fun o => (regionAt w p o).map fun r =>
    let base := wd64 r 6
    let x := superblockAt r (fun i => memWord m (genDpa units (base + wd64 r 8 + 4 * i))) (o - base)
    (base + x.1, x.2)).eraseDups

/-- Bytes of a shard: a chunk's ciphertext and its tag. -/
def shardBytes : Nat := 1048592

/-- The image byte at which the payload begins, by the image's header words: behind the manifest, at a multiple of 4,096 (R710). -/
def payloadAt (h : List Nat) : Nat := (64 + wd h 10 + 4095) / 4096 * 4096

/-- A RoCE v2 READ request of context c on connection `conn` (R733). -/
def askPeer (s : State) (c conn addr len : Nat) : State :=
  match tabFind s.conns conn with
  | none => s
  | some k =>
    { s with conns := tabSet s.conns conn (if k.outst = [] then { k with sentAt := s.hub } else k)
             ethOut := s.ethOut ++ [{ conn, kind := 2, key := wd k.words 10, addr, len, ctx := c, epoch := (s.ctx c).epoch }] }

/-- The READ request for shard k of an image whose header lies at `addr` of a peer (R713, R733). -/
def askShard (s : State) (c conn addr : Nat) (h : List Nat) (k : Nat) : State :=
  askPeer s c conn (addr + payloadAt h + shardBytes * k) shardBytes

/-- The requests by which the repair of a superblock asks a peer for its chunks again (R754); of another source nothing shows here. -/
def askRepair (s : State) (p c : Nat) (w : WGen) (sb : Nat × Nat) : State :=
  if w.srcKind != 2 then s
  else
    ([chunkAt w p sb.1, chunkAt w p (sb.1 + sb.2 - 1)].eraseDups).foldl (fun s k => askShard s c w.conn w.srcAddr w.header k) s

/-- Poison one superblock of generation g and start its repair, unless it is pending; a 65th pending repair is not started, and the
generation is DAMAGED (R751, R754). -/
def poisonSb (s : State) (p c b g : Nat) (w : WGen) (sb : Nat × Nat) : State :=
  let lines := (pieces sb.1 sb.2).map fun q => genDpa (tabGet [] w.units p) q.1 / 64
  let P := s.part p
  let s1 := s.setPart p { P with hbm := { P.hbm with poison := setInsAll P.hbm.poison lines } }
  let rep : Repair := { ctx := c, binding := b, gen := g, part := p, off := sb.1, len := sb.2 }
  let live := (tabFind (tabGet {} (s.ctx c).bindings b).gens g).any fun w => w.st == .loaded
  if !live || s1.repairs.contains rep then s1
  else if 64 ≤ s1.repairs.length then damageGen s1 c b g (chunkAt w p sb.1)
  else askRepair { s1 with repairs := s1.repairs ++ [rep] } p c w sb

/-- An uncorrectable error in a resident region poisons the superblocks that it hits and starts their repair (R751). -/
def residentPoison (s : State) (p line : Nat) : State :=
  match residentOf s p line with
  | none => s
  | some (c, b, g, off) =>
    match tabFind (tabGet {} (s.ctx c).bindings b).gens g with
    | none => s
    | some w => (affectedSbs w (s.part p).hbm.mem p off).foldl (fun s x => poisonSb s p c b g w x) s

/-- Stack, pseudo-channel index and byte within the pseudo-channel of a DPA of partition p (R653). -/
def hbmPlace (p dpa : Nat) : Nat × Nat × Nat :=
  let u := dpa / 256
  let g := u / 32
  (3 * p + g % 3, Nat.xor (u % 32) (g % 32), g / 3 * 256 + dpa % 256)

/-- Stack-ID, bank group, bank and row of a line, as word 1 of HBM_REPAIR gives them (DESIGN CHOICE, log entry 12). -/
def lineRow (p line : Nat) : Nat := Config.hbmRow ((hbmPlace p (64 * line)).2.2 / 64) % 2 ^ 26

/-- A DRAM row of partition p: pseudo-channel 0–95 of the partition, then the row in it. -/
def rowKey (p line : Nat) : Nat :=
  let pl := hbmPlace p (64 * line)
  (pl.1 % 3 * 32 + pl.2.1) * 2 ^ 32 + lineRow p line

/-- The data of an event about a line of the stacks: the stack with the requester above it, pseudo-channel, bank with its group and
stack-ID above it, row (R669, R702). -/
def hbmData (p line unit : Nat) : List Nat :=
  let pl := hbmPlace p (64 * line)
  [pl.1 + 65536 * unit, pl.2.1, lineRow p line / 2 ^ 20, lineRow p line % 2 ^ 18]

/-- Count a corrected error of the row of a line, and log HBM_CORRECTED and HBM_ROW_DEGRADED (R676). -/
def correctedLine (s : State) (p line : Nat) : State :=
  let key := rowKey p line
  let P := s.part p
  let r : RowCount := tabGet {} P.hbm.rows key
  let times := (P.count :: r.times.filter fun t => P.count < t + 25000000 * 86400).take 16
  let deg := 16 ≤ times.length && !r.logged
  let s1 := s.setPart p { P with hbm := { P.hbm with rows := tabSet P.hbm.rows key ⟨times, r.logged || deg⟩ } }
  let data := hbmData p line 0
  let s2 := logEvent s1 { code := 0x12A0, part := some p, data }
  if deg then logEvent s2 { code := 0x12A1, part := some p, data } else s2

/-- An access to the stacks of a partition in A3 takes them out of self-refresh (R946); an access that the pseudo-channel takes
ends a run of parity errors on it (R675). -/
def wakeHbm (s : State) (p line : Nat) : State :=
  let P := s.part p
  let h := P.hbm
  let pl := hbmPlace p (64 * line)
  let h1 := if h.ca = [] then h else { h with ca := tabDel h.ca (pl.1 % 3 * 32 + pl.2.1) }
  if P.act = 3 then s.setPart p { P with hbm := { h1 with selfRefresh := false, wokenAt := some P.count } }
  else if h.ca = [] then s
  else s.setPart p { P with hbm := h1 }

/-- Read one 64-byte line of partition p for requester `unit`: whether it comes back poisoned (R668 to R670, R676). -/
def readLine (s0 : State) (p line unit : Nat) : Bool × State :=
  let s := wakeHbm s0 p line
  let h := (s.part p).hbm
  if h.poison.contains line then (true, s)
  else if h.ue.contains line then
    let P := s.part p
    let s1 := s.setPart p { P with hbm := { h with ue := setDel h.ue line, poison := setIns h.poison line } }
    let s2 := logEvent s1 { code := 0x22A2, part := some p, data := hbmData p line unit }
    (true, residentPoison s2 p line)
  else if h.ce.contains line then
    let P := s.part p
    (false, correctedLine (s.setPart p { P with hbm := { h with ce := setDel h.ce line } }) p line)
  else (false, s)

/-- Zero the 64 KiB frames of partition p and give them back (R577 step 7, R664): the lines hold good zeros. -/
def zeroUnits (s : State) (p : Nat) (us_ : List Nat) : State :=
  let P := s.part p
  let h := P.hbm
  let mine (line : Nat) : Bool := us_.contains (line / 1024)
  s.setPart p { P with hbm := { h with
    mem := h.mem.filter fun c => !us_.contains (c.1 / 65536)
    poison := h.poison.filter fun l => !mine l
    ue := h.ue.filter fun l => !mine l
    ce := h.ce.filter fun l => !mine l
    used := h.used.filter fun u => !us_.contains u } }

/-- A byte with its poison mark. -/
abbrev PByte := Byte × Bool

/-- The address that an access stopped at. -/
def AccErr.dva : AccErr → Nat
  | .unmapped a | .readOnly a | .targetReset a _ => a

/-- Read [a, a + n) of context c at mapping version v, for an access of partition `frm`: bytes with their poison marks. A read that
stops leaves what the lines before it met (R669, R676). -/
def readDva (s : State) (frm c v a n unit : Nat) : Except (AccErr × State) (List PByte × State) :=
  (pieces a n).foldl (fun acc x =>
    match acc with
    | .error e => .error e
    | .ok (bs, s) =>
      match translate s c v x.1 false with
      | .error e => .error (e, s)
      | .ok (p, d) =>
        if reachable s frm p then
          let r := readLine s p (d / 64) unit
          .ok (bs ++ (memRead (s.part p).hbm.mem d x.2).map (·, r.1), r.2)
        else .error (.targetReset x.1 p, s)) (.ok ([], s))

/-- The requester that HBM_UNCORRECTABLE names for the read by which a part-line write merges (R669, R671; DESIGN CHOICE, log entry
12). -/
def mergeUnit : Nat := 21

/-- Write bytes into one line of partition p. A clean write of the whole line clears its poison; a write of a part reads the line,
with what a read does on an error, and merges into it, so a poisoned line stays poisoned (R669 to R671, R676); poisoned data marks
the line (R209). -/
def writeLine (s0 : State) (p d : Nat) (bs : List PByte) : State :=
  let line := d / 64
  let whole := bs.length = 64
  let s := if whole then wakeHbm s0 p line else (readLine s0 p line mergeUnit).2
  let P := s.part p
  let bad := bs.any (·.2)
  let h := P.hbm
  let poison := if bad then setIns h.poison line else if whole then setDel h.poison line else h.poison
  let h1 : Hbm := { h with
    mem := memWrite h.mem d (bs.map (·.1))
    poison
    ue := if bad || whole then setDel h.ue line else h.ue
    ce := if whole then setDel h.ce line else h.ce }
  s.setPart p { P with hbm := h1 }

/-- Write bytes at a of context c at mapping version v, for an access of partition `frm`. -/
def writeDva (s : State) (frm c v a : Nat) (bs : List PByte) : Except AccErr State :=
  match checkRange s frm c v a bs.length true with
  | some e => .error e
  | none =>
    .ok ((pieces a bs.length).foldl (fun s x =>
      match translate s c v x.1 true with
      | .error _ => s
      | .ok (p, d) => writeLine s p d ((bs.drop (x.1 - a)).take x.2)) s)

/-- The bytes without their marks, and whether any is poisoned. -/
def clean (bs : List PByte) : List Byte × Bool := (bs.map (·.1), bs.any (·.2))

/-- The address of the first poisoned byte of bytes read at a. -/
def poisonAt (a : Nat) (bs : List PByte) : Nat := a + (bs.findIdx? (·.2)).getD 0

/-- Mark bytes as clean. -/
def good (bs : List Byte) : List PByte := bs.map (·, false)

/-! Scratchpads. -/

/-- Size of a scratchpad (R190). -/
def Spc.size : Spc → Nat
  | .wm => 3145728
  | .am => 2097152
  | .pm => 1048576

/-- A scratchpad of a tile. -/
def Tile.spad (x : Tile) : Spc → Spad
  | .wm => x.wm
  | .am => x.am
  | .pm => x.pm

/-- Replace a scratchpad of a tile. -/
def Tile.setSpad (x : Tile) (k : Spc) (d : Spad) : Tile :=
  match k with
  | .wm => { x with wm := d }
  | .am => { x with am := d }
  | .pm => { x with pm := d }

/-- What a checked scratchpad read met in its lines (R207, R208). -/
inductive LineErr where
  /-- Parity error or poison in a line that the kernel did not write (R208). -/
  | input
  /-- Parity error in a line that the kernel wrote. -/
  | parity
  /-- Poison in a line that the kernel wrote. -/
  | poison
deriving DecidableEq, Repr

/-- What the check of one line finds: a unit reads whole lines (R192). Of a parity error and a poison bit in one kernel-written line
the parity error is reported (DESIGN CHOICE, log entry 126). -/
def Spad.lineErr (d : Spad) (line : Nat) : Option LineErr :=
  let par := d.bad.any fun w => w / 8 == line
  let poi := d.poison.contains line
  if !par && !poi then none
  else if !d.kw.contains line then some .input
  else if par then some .parity
  else some .poison

/-- The first line error that a read of [a, a + n) meets. -/
def Spad.readErr (d : Spad) (a n : Nat) : Option LineErr := (linesOf a n).findSome? d.lineErr

/-- Every line error that a read of [a, a + n) meets, with its line, ascending. -/
def Spad.badLines (d : Spad) (a n : Nat) : List (LineErr × Nat) := (linesOf a n).filterMap fun l => (d.lineErr l).map (·, l)

/-- The line of the first error that a read of [a, a + n) meets. -/
def Spad.badLine (d : Spad) (a n : Nat) : Nat := ((d.badLines a n).head?.map (·.2)).getD (a / 64)

/-- Lines of 64 bytes that a bank of a scratchpad holds (R190): 32 banks share its lines. -/
def Spc.linesPerBank (k : Spc) : Nat := Spc.size k / 64 / 32

/-- Entry of line L in its bank (R191). -/
def lineEntry (L : Nat) : Nat := L >>> 5

/-- Bank of line L (R191). -/
def lineBank (L : Nat) : Nat := Nat.xor (Nat.xor L (L >>> 5)) (L >>> 10) % 32

/-- Whether [a, a + n) holds all 64 bytes of line L. -/
def covers (a n L : Nat) : Bool := a ≤ 64 * L && 64 * L + 64 ≤ a + n

/-- The first line error that the merge of a write of [a, a + n) meets: a unit that writes part of a line reads the line and
merges the new bytes into it (R192), and every reader checks (R201, R207, R208). -/
def Spad.mergeErr (d : Spad) (a n : Nat) : Option LineErr :=
  ((linesOf a n).filter fun l => !covers a n l).findSome? d.lineErr

/-- The line of that error. -/
def Spad.mergeLine (d : Spad) (a n : Nat) : Nat :=
  (((linesOf a n).filter fun l => !covers a n l).find? fun l => (d.lineErr l).isSome).getD (a / 64)

/-- Write bytes by a unit of the tile: the lines become kernel-written (R203), poisoned data sets their poison (R205), and a
line whose 64 bytes are all clean new data has its poison cleared (R206). A line written in part holds what it held before
beside the new bytes, so what is poisoned of it stays poisoned and a word not written whole keeps its parity (R192; DEDUCED, log
entry 118); a word with a permanent defect reads with a parity error again (R213). -/
def Spad.write (d : Spad) (a : Nat) (bs : List Byte) (poisoned : Bool) : Spad :=
  let n := bs.length
  let ls := linesOf a n
  { bytes := memWrite d.bytes a bs
    poison := if poisoned then setInsAll d.poison ls else d.poison.filter fun l => !covers a n l
    kw := setInsAll d.kw ls
    bad := d.bad.filter fun w => d.defect.contains w || !(a ≤ 8 * w && 8 * w + 8 ≤ a + n)
    defect := d.defect }

/-- Write bytes that carry poison marks, line by line. -/
def Spad.writeMarked (d : Spad) (a : Nat) (bs : List PByte) : Spad :=
  (pieces a bs.length).foldl (fun d x =>
    let c := clean ((bs.drop (x.1 - a)).take x.2)
    d.write x.1 c.1 c.2) d

/-- Write by a fabric packet: clears the kernel-written bit of each line (R204). -/
def Spad.writeFabric (d : Spad) (a : Nat) (bs : List Byte) : Spad :=
  let ls := linesOf a bs.length
  { d.write a bs false with kw := d.kw.filter fun l => !ls.contains l }

/-- Every line zero, with correct parity and clear bits; a word with a permanent storage defect reads with a parity error
again (R213). -/
def Spad.zero (d : Spad) : Spad := { bad := d.defect, defect := d.defect }

end Sys2Proof.Machine
end

