-- ==== Sys2Proof/Machine/Flags.lean ====
section
/-! DEFINITION. Number formats, exact values and rounding (chapter 02): a floating-point value is a sign, a whole number and
a power of two, operations are exact, and one function rounds. The arithmetic status flags of R102 stand here too. -/

namespace Sys2Proof.Machine

/-- An exact value: NaN, an infinity, or (−1)^neg × m × 2^e. -/
inductive FV where
  | nan
  | inf (neg : Bool)
  | fin (neg : Bool) (m : Nat) (e : Int)
deriving DecidableEq, Repr

/-- A floating-point element format (R60): mantissa bits, exponent bits, bias, largest finite code without sign, whether it
has infinities, canonical NaN code where it has one. -/
structure FFmt where
  mb : Nat
  eb : Nat
  bias : Nat
  maxCode : Nat
  hasInf : Bool
  nan : Option Nat
deriving DecidableEq, Repr

/-- FP32. -/
def fp32 : FFmt := ⟨23, 8, 127, 0x7F7FFFFF, true, some 0x7FC00000⟩
/-- BF16. -/
def bf16 : FFmt := ⟨7, 8, 127, 0x7F7F, true, some 0x7FC0⟩
/-- FP16. -/
def fp16 : FFmt := ⟨10, 5, 15, 0x7BFF, true, some 0x7E00⟩
/-- FP8-E4M3 and the element of MXFP8-E4M3. -/
def e4m3 : FFmt := ⟨3, 4, 7, 0x7E, false, some 0x7F⟩
/-- FP8-E5M2 and the element of MXFP8-E5M2. -/
def e5m2 : FFmt := ⟨2, 5, 15, 0x7B, true, some 0x7E⟩
/-- Element of MXFP6-E3M2. -/
def e3m2 : FFmt := ⟨2, 3, 3, 0x1F, false, none⟩
/-- Element of MXFP6-E2M3. -/
def e2m3 : FFmt := ⟨3, 2, 1, 0x1F, false, none⟩
/-- Element of MXFP4-E2M1. -/
def e2m1 : FFmt := ⟨1, 2, 1, 0x7, false, none⟩

/-- Sign bit position. -/
def FFmt.signBit (f : FFmt) : Nat := f.mb + f.eb

/-- Decode a code (R60 to R62). -/
def FFmt.decode (f : FFmt) (x : Nat) : FV :=
  let neg := bitOf x f.signBit
  let mag := x % 2 ^ f.signBit
  if f.maxCode < mag then
    if f.hasInf && mag = f.maxCode + 1 then .inf neg else .nan
  else
    let ex := mag / 2 ^ f.mb
    let man := mag % 2 ^ f.mb
    if ex = 0 then .fin neg man (1 - (f.bias : Int) - f.mb)
    else .fin neg (2 ^ f.mb + man) ((ex : Int) - f.bias - f.mb)

/-- Whether a rounding of the magnitude goes up: RND 0 nearest even, 1 toward zero, 2 toward −∞, 3 toward +∞ (R105).
`odd` last bit kept, `half` comparison of the rest with one half, `inexact` whether the rest is not 0. -/
def roundUp (rnd : Nat) (neg odd : Bool) (half : Ordering) (inexact : Bool) : Bool :=
  match rnd with
  | 0 => half == .gt || (half == .eq && odd)
  | 1 => false
  | 2 => neg && inexact
  | _ => !neg && inexact

/-- m × 2^e over the quantum 2^q, rounded to a whole number by RND. -/
def roundQuantum (rnd : Nat) (neg : Bool) (m : Nat) (e q : Int) : Nat :=
  if q ≤ e then m * 2 ^ (e - q).toNat
  else
    let k := (q - e).toNat
    let n := m / 2 ^ k
    let r := m % 2 ^ k
    if roundUp rnd neg (n % 2 == 1) (compare (2 * r) (2 ^ k)) (r != 0) then n + 1 else n

/-- The magnitude code of a nonzero finite value after rounding, past maxCode where it overflows. -/
def FFmt.roundMag (f : FFmt) (rnd : Nat) (neg : Bool) (m : Nat) (e : Int) : Nat :=
  if m = 0 then 0
  else
    let emin : Int := 1 - (f.bias : Int)
    let lead : Int := (Nat.log2 m : Int) + e
    let q : Int := max lead emin - f.mb
    let n := roundQuantum rnd neg m e q
    (q - (emin - f.mb)).toNat * 2 ^ f.mb + n

/-- Put the sign on a magnitude code. -/
def FFmt.withSign (f : FFmt) (neg : Bool) (mag : Nat) : Nat := mag + (if neg then 2 ^ f.signBit else 0)

/-- The code of a NaN, 0 where the format has none. -/
def FFmt.nanCode (f : FFmt) : Nat := f.nan.getD 0

/-- Whether IEEE 754 overflow under RND gives the largest finite value. -/
def overflowToMax (rnd : Nat) (neg : Bool) : Bool :=
  match rnd with
  | 0 => false
  | 1 => true
  | 2 => !neg
  | _ => neg

/-- Round a value into a format with infinities by RND, overflow as IEEE 754 gives or, with `sat`, the largest finite; the
code, and whether a finite value overflowed. For FP8-E4M3: NaN, or ±448 with `sat` (R106, R108). -/
def FFmt.encode (f : FFmt) (rnd : Nat) (sat : Bool) (v : FV) : Nat × Bool :=
  match v with
  | .nan => (f.nanCode, false)
  | .inf neg =>
    if f.hasInf then (f.withSign neg (f.maxCode + 1), false)
    else if sat then (f.withSign neg f.maxCode, false)
    else (f.nanCode, false)
  | .fin neg m e =>
    let mag := f.roundMag rnd neg m e
    if mag ≤ f.maxCode then (f.withSign neg mag, false)
    else if sat then (f.withSign neg f.maxCode, true)
    else if f.hasInf then
      (f.withSign neg (if overflowToMax rnd neg then f.maxCode else f.maxCode + 1), true)
    else (f.nanCode, true)

/-- Round to nearest even into FP32. -/
def toF32 (v : FV) : Nat := (fp32.encode 0 false v).1

/-- The value of FP32 bits. -/
def ofF32 (x : Nat) : FV := fp32.decode x

/-! Exact arithmetic. -/

/-- Signed whole number of a finite value. -/
def sgn (neg : Bool) (m : Nat) : Int := if neg then -(m : Int) else m

/-- The sum of two values, exact; the sign of a zero sum follows IEEE 754 for RND. -/
def FV.add (rnd : Nat) : FV → FV → FV
  | .nan, _ => .nan
  | _, .nan => .nan
  | .inf a, .inf b => if a = b then .inf a else .nan
  | .inf a, .fin _ _ _ => .inf a
  | .fin _ _ _, .inf b => .inf b
  | .fin a m x, .fin b n y =>
    if m = 0 && n = 0 then .fin (if a = b then a else rnd == 2) 0 0
    else
      let e := min x y
      let v := sgn a m * 2 ^ (x - e).toNat + sgn b n * 2 ^ (y - e).toNat
      if v = 0 then .fin (rnd == 2) 0 0 else .fin (v < 0) v.natAbs e

/-- Change the sign. -/
def FV.neg : FV → FV
  | .nan => .nan
  | .inf a => .inf (!a)
  | .fin a m e => .fin (!a) m e

/-- Clear the sign. -/
def FV.abs : FV → FV
  | .nan => .nan
  | .inf _ => .inf false
  | .fin _ m e => .fin false m e

/-- The product of two values, exact. -/
def FV.mul : FV → FV → FV
  | .nan, _ => .nan
  | _, .nan => .nan
  | .inf a, .inf b => .inf (a != b)
  | .inf a, .fin b n _ => if n = 0 then .nan else .inf (a != b)
  | .fin a m _, .inf b => if m = 0 then .nan else .inf (a != b)
  | .fin a m x, .fin b n y => .fin (a != b) (m * n) (x + y)

/-- a × b + c, exact. -/
def FV.fma (rnd : Nat) (a b c : FV) : FV := FV.add rnd (FV.mul a b) c

/-- Whether a value is a zero. -/
def FV.isZero : FV → Bool
  | .fin _ m _ => m == 0
  | _ => false

/-- Whether a value is NaN. -/
def FV.isNan : FV → Bool
  | .nan => true
  | _ => false

/-- Whether a value is an infinity. -/
def FV.isInf : FV → Bool
  | .inf _ => true
  | _ => false

/-- The sign of a value. -/
def FV.sign : FV → Bool
  | .nan => false
  | .inf a => a
  | .fin a _ _ => a

/-- Order of two values, −0 equal to +0, none where one is NaN. -/
def FV.cmp : FV → FV → Option Ordering
  | .nan, _ => none
  | _, .nan => none
  | .inf a, .inf b => some (if a = b then .eq else if a then .lt else .gt)
  | .inf a, .fin _ _ _ => some (if a then .lt else .gt)
  | .fin _ _ _, .inf b => some (if b then .gt else .lt)
  | .fin a m x, .fin b n y =>
    let e := min x y
    some (compare (sgn a m * 2 ^ (x - e).toNat) (sgn b n * 2 ^ (y - e).toNat))

/-- The quotient, with enough bits that rounding to FP32 is correct: a remainder sets the last bit (R689). -/
def FV.div : FV → FV → FV
  | .nan, _ => .nan
  | _, .nan => .nan
  | .inf _, .inf _ => .nan
  | .inf a, .fin b _ _ => .inf (a != b)
  | .fin a _ _, .inf b => .fin (a != b) 0 0
  | .fin a m x, .fin b n y =>
    if n = 0 then (if m = 0 then .nan else .inf (a != b))
    else
      let k := 80 + Nat.log2 n
      let q := m * 2 ^ k / n
      let r := m * 2 ^ k % n
      .fin (a != b) (2 * q + b2n (r != 0)) (x - y - k - 1)

/-- Whole square root of n < 4^k, bit by bit. -/
def isqrt (k n : Nat) : Nat :=
  (List.range k).foldl (fun r i => let t := r + 2 ^ (k - 1 - i); if t * t ≤ n then t else r) 0

/-- The square root, with enough bits that rounding to FP32 is correct (R689). -/
def FV.sqrt : FV → FV
  | .nan => .nan
  | .inf a => if a then .nan else .inf false
  | .fin a m x =>
    if m = 0 then .fin a 0 0
    else if a then .nan
    else
      let k : Nat := if (x - 80) % 2 = 0 then 80 else 81
      let n := m * 2 ^ k
      let r := isqrt (Nat.log2 n / 2 + 1) n
      .fin false (2 * r + b2n (r * r != n)) ((x - k) / 2 - 1)

/-- A whole number. -/
def FV.ofInt (v : Int) : FV := .fin (v < 0) v.natAbs 0

/-- Multiply by 2^k. -/
def FV.scale (k : Int) : FV → FV
  | .fin a m e => .fin a m (e + k)
  | v => v

/-- Round a value to a whole number by RND; 0 for NaN and infinities. -/
def FV.toInt (rnd : Nat) : FV → Int
  | .fin a m e => sgn a (roundQuantum rnd a m e 0)
  | _ => 0

/-- The exponent of the leading bit of a nonzero finite value (floor of the base-2 logarithm). -/
def FV.lead : FV → Option Int
  | .fin _ m e => if m = 0 then none else some ((Nat.log2 m : Int) + e)
  | _ => none

/-! IEEE operations on codes of a format (R310, R311). -/

/-- Sum rounded once. -/
def fAdd (f : FFmt) (rnd a b : Nat) : Nat := (f.encode rnd false (FV.add rnd (f.decode a) (f.decode b))).1
/-- Difference rounded once. -/
def fSub (f : FFmt) (rnd a b : Nat) : Nat := (f.encode rnd false (FV.add rnd (f.decode a) (f.decode b).neg)).1
/-- Product rounded once. -/
def fMul (f : FFmt) (rnd a b : Nat) : Nat := (f.encode rnd false (FV.mul (f.decode a) (f.decode b))).1
/-- Product plus addend rounded once. -/
def fFma (f : FFmt) (rnd a b c : Nat) : Nat := (f.encode rnd false (FV.fma rnd (f.decode a) (f.decode b) (f.decode c))).1

/-- IEEE 754-2019 minimum: NaN where either is NaN, −0 below +0 (R312). -/
def FV.min (a b : FV) : FV :=
  match FV.cmp a b with
  | none => .nan
  | some .lt => a
  | some .gt => b
  | some .eq => if a.sign then a else b

/-- IEEE 754-2019 maximum (R312). -/
def FV.max (a b : FV) : FV :=
  match FV.cmp a b with
  | none => .nan
  | some .gt => a
  | some .lt => b
  | some .eq => if a.sign then b else a

/-- The predicate PRED of R316 over an order: 0 EQ, 1 NE, 2 LT, 3 LE, 4 GT, 5 GE, 6 UN. -/
def predHolds (pred : Nat) (o : Option Ordering) : Bool :=
  match pred, o with
  | 0, some .eq => true
  | 1, some .eq => false
  | 1, _ => true
  | 2, some .lt => true
  | 3, some .lt => true
  | 3, some .eq => true
  | 4, some .gt => true
  | 5, some .gt => true
  | 5, some .eq => true
  | 6, none => true
  | _, _ => false

/-- Key of FP32 bits in the total order of R329: NaN above all, then by value with −0 below +0. -/
def redKey (x : Nat) : Int :=
  match ofF32 x with
  | .nan => 2 ^ 40
  | _ => if 2 ^ 31 ≤ x then -((x : Int) - 2 ^ 31) - 1 else x

/-- Two's complement value of the low `w` bits. -/
def sInt (w x : Nat) : Int := if bitOf x (w - 1) then (x % 2 ^ w : Nat) - (2 ^ w : Nat) else (x % 2 ^ w : Nat)

/-- The low `w` bits of a whole number. -/
def uNat (w : Nat) (v : Int) : Nat := (v % (2 ^ w : Nat)).toNat

/-- Clamp to the range of `w`-bit two's complement. -/
def clampS (w : Nat) (v : Int) : Int := max (-(2 ^ (w - 1) : Nat)) (min v ((2 ^ (w - 1) : Nat) - 1))

/-! Format codes (R58, R60). -/

/-- The element format of a floating-point code 0x0–0x9. -/
def ffmtOf : Nat → FFmt
  | 0 => fp32
  | 1 => bf16
  | 2 => fp16
  | 3 => e4m3
  | 4 => e5m2
  | 5 => e4m3
  | 6 => e5m2
  | 7 => e3m2
  | 8 => e2m3
  | _ => e2m1

/-- Element width in bits. -/
def fmtBits : Nat → Nat
  | 0 => 32
  | 1 => 16
  | 2 => 16
  | 3 => 8
  | 4 => 8
  | 5 => 8
  | 6 => 8
  | 7 => 6
  | 8 => 6
  | 9 => 4
  | 10 => 8
  | 11 => 8
  | _ => 4

/-- Whether the code names an MX format. -/
def isMx (c : Nat) : Bool := 5 ≤ c && c ≤ 10

/-- Whether the code names INT8 or INT4. -/
def isIntFmt (c : Nat) : Bool := c == 11 || c == 12

/-- The value of an element code without scale (R61 to R63, R71). -/
def elemVal (c x : Nat) : FV :=
  if c = 10 then (FV.ofInt (sInt 8 x)).scale (-6)
  else if c = 11 then FV.ofInt (sInt 8 x)
  else if c = 12 then FV.ofInt (sInt 4 x)
  else (ffmtOf c).decode x

/-- The value of an element under an E8M0 scale byte (R71 to R73). -/
def mxVal (c x scale : Nat) : FV :=
  if scale = 255 then .nan else (elemVal c x).scale ((scale : Int) - 127)

/-! The internal decoded form (R74 to R76). -/

/-- The internal form of a value whose significand has at most 11 bits (R74, R75). -/
def toInternal : FV → Internal
  | .nan => ⟨.nan, false, 0, 0⟩
  | .inf a => ⟨.infinity, a, 0, 0⟩
  | .fin a m e =>
    if m = 0 then ⟨.zero, a, 0, 0⟩
    else ⟨.finite, a, BitVec.ofInt 9 (e + Nat.log2 m + 255), BitVec.ofNat 11 (m * 2 ^ (10 - Nat.log2 m))⟩

/-- The value that an internal form stands for. -/
def Internal.val (x : Internal) : FV :=
  match x.cls with
  | .zero => .fin x.sign 0 0
  | .finite => .fin x.sign x.sig.toNat ((x.exp.toNat : Int) - 255 - 10)
  | .infinity => .inf x.sign
  | .nan => .nan

/-- The three pieces of an FP32 operand (R76): HI from significand bits [23:13], MID from [12:2], LO from [1:0]. A value that is
not finite stands in HI. -/
def fp32Pieces : FV → List Internal
  | .fin a m e =>
    [toInternal (.fin a (bitsOf m 23 13) (e + 13)), toInternal (.fin a (bitsOf m 12 2) (e + 2)), toInternal (.fin a (bitsOf m 1 0) e)]
  | v => [toInternal v, toInternal (.fin false 0 0), toInternal (.fin false 0 0)]

/-- The internal-form values that stand for an operand of format c and value v: of FP32 its pieces, LO left out where `fast` (R75,
R76, R87, R94). -/
def piecesOf (c : Nat) (fast : Bool) (v : FV) : List Internal :=
  if c ≠ 0 then [toInternal v] else if fast then (fp32Pieces v).take 2 else fp32Pieces v

/-- The value that the pieces of an operand stand for: their sum, a zero with the sign of the first. -/
def piecesVal : List Internal → FV
  | [] => .fin false 0 0
  | x :: l =>
    let s := l.foldl (fun s y => FV.add 0 s y.val) x.val
    if s.isZero then .fin x.sign 0 0 else s

/-- The value of an operand of format c, decoded to internal form, from its value v: an FP32 operand with LO left out where `fast`
(R75, R87, R94). -/
def viaInternal (c : Nat) (fast : Bool) (v : FV) : FV := piecesVal (piecesOf c fast v)

/-- emax of an MX element type (R110). -/
def mxEmax : Nat → Int
  | 5 => 8
  | 6 => 15
  | 7 => 4
  | 8 => 2
  | 9 => 2
  | _ => 0

/-- Convert a value into a non-MX format (R106 and its table). -/
def convert (c rnd : Nat) (sat : Bool) (v : FV) : Nat :=
  if isIntFmt c then
    let w := fmtBits c
    match v with
    | .nan => 0
    | .inf neg => uNat w (if neg then -(2 ^ (w - 1) : Nat) else (2 ^ (w - 1) : Nat) - 1)
    | v => uNat w (clampS w (v.toInt rnd))
  else ((ffmtOf c).encode rnd sat v).1

/-- Convert a value, already divided by the block scale, into an MX element: finite overflow saturates (R111). -/
def mxElem (c rnd : Nat) (sat : Bool) (v : FV) : Nat :=
  if c = 10 then
    match v with
    | .fin a m e => uNat 8 (max (-127) (min 127 (FV.toInt rnd (.fin a m (e + 6)))))
    | _ => 0
  else
    match v with
    | .fin _ _ _ => ((ffmtOf c).encode rnd true v).1
    | v => ((ffmtOf c).encode rnd sat v).1

/-- Encode one MX block (R110): scale byte and element codes. -/
def mxBlock (c rnd : Nat) (sat : Bool) (vs : List FV) : Nat × List Nat :=
  if 7 ≤ c && vs.any (fun v => v.isNan || v.isInf) then (255, vs.map fun _ => 0)
  else
    let lead := vs.foldl (fun (a : Option Int) v =>
      match a, v.lead with
      | some x, some y => some (max x y)
      | none, y => y
      | x, none => x) none
    let x : Int := match lead with
      | none => -127
      | some l => max (-127) (min 127 (l - mxEmax c))
    ((x + 127).toNat, vs.map fun v => mxElem c rnd sat (v.scale (-x)))

/-! Arithmetic status (R102): ISAT 8, OVF 4, NAN_IN 2, INV 1. -/

/-- Bits of two statuses together. -/
def flagsOr (a b : Nat) : Nat := Nat.lor a b

end Sys2Proof.Machine
end

