-- ==== Sys2Proof/Machine/Nodes.lean ====
section
/-! DEFINITION. Node instances: header fields, fences, resolution of edges, groups and segments, completion records, kills,
re-runs, partition reset and module-fatal stop (chapters 11, 12 and 21). -/

namespace Sys2Proof.Machine

/-! Header fields (R494). -/

/-- TYPE. -/
def Inst.ty (i : Inst) : Nat := bitsOf (wd i.words 0) 31 28
/-- NPRED. -/
def Inst.npred (i : Inst) : Nat := bitsOf (wd i.words 0) 27 25
/-- ON_ERR. -/
def Inst.onErr (i : Inst) : Bool := bitOf (wd i.words 0) 24
/-- CREC. -/
def Inst.crec (i : Inst) : Bool := bitOf (wd i.words 0) 23
/-- BUDGET in counts of the die counter; 0 means 50 ms (R494, R537). -/
def Inst.budget (i : Inst) : Nat :=
  let b := bitsOf (wd i.words 3) 31 16
  us (if b = 0 then 50000 else 10 * b)
/-- FENCE_ID. -/
def Inst.fenceId (i : Inst) : Nat := bitsOf (wd i.words 3) 11 0
/-- FENCE_VAL. -/
def Inst.fenceVal (i : Inst) : Nat := wd64 i.words 4 % 2 ^ 63
/-- TILE_MASK of a KERNEL. -/
def Inst.tileMask (i : Inst) : Nat := bitsOf (wd i.words 6) 15 0
/-- The tiles that a KERNEL names. -/
def Inst.tiles (i : Inst) : List Nat := allTiles.filter fun t => i.ty == 0 && !bitOf (wd i.words 6) 31 && bitOf i.tileMask t
/-- CB_MASK of a KERNEL. -/
def Inst.cbMask (i : Inst) : Nat := bitsOf (wd i.words 7) 31 16
/-- MP_MASK of a KERNEL. -/
def Inst.mpMask (i : Inst) : Nat := bitsOf (wd i.words 7) 15 0

/-- An edge: index and branch (R494). -/
def edgeOf (w : Nat) : Nat × Nat := (bitsOf w 11 0, bitsOf w 13 12)

/-- Half word k of a node, k = 0 the low half of word 1 for header edges. -/
def halfWord (ws : List Nat) (word k : Nat) : Nat := wd ws (word + k / 2) / 2 ^ (16 * (k % 2)) % 65536

/-- The edges of a node: those of the header, then a JOIN's further edges (R494, the table after R520). -/
def nodeEdges (ws : List Nat) : List (Nat × Nat) :=
  let n := bitsOf (wd ws 0) 27 25
  let ty := bitsOf (wd ws 0) 31 28
  (List.range n).map (fun k => edgeOf (halfWord ws 1 k)) ++
  (if ty = 10 then (List.range (bitsOf (wd ws 6) 4 0)).map (fun j => edgeOf (halfWord ws 7 j)) else [])

/-- A resolved state (R495). -/
def NodeSt.resolved : NodeSt → Bool
  | .committed | .skipped | .abandoned => true
  | _ => false

/-- Short of its commit point (R528). -/
def NodeSt.short : NodeSt → Bool
  | .waiting | .ready | .running => true
  | _ => false

/-! Fences (R522 to R525). -/

/-- Number of partitions of a context. -/
def State.ctxParts (s : State) (c : Nat) : List Nat := (s.ctx c).parts

/-- The partition and local index of fence f of context c (R522), none where the context has no such fence. -/
def fencePlace (s : State) (c f : Nat) : Option (Nat × Nat) :=
  match (s.ctxParts c)[f / 512]? with
  | some p => some (p, f % 512)
  | none => none

/-- The 64-bit word of fence f of context c. -/
def fenceWord (s : State) (c f : Nat) : Nat :=
  match fencePlace s c f with
  | some (p, l) => tabGet 0 (s.cp c p).fences l
  | none => 0

/-- A fence operation on a word (R524): 0 MAX, 1 ADD, 2 ERROR. -/
def fenceApply (w op v : Nat) : Nat :=
  let e := w / 2 ^ 63
  let x := w % 2 ^ 63
  if op = 0 then e * 2 ^ 63 + max x (v % 2 ^ 63)
  else if op = 1 then e * 2 ^ 63 + min (x + v) (2 ^ 63 - 1)
  else 2 ^ 63 + x

/-- A WAIT on a fence: the context and fence it waits for (R511). -/
def waitFenceOf (i : Inst) : Nat × Nat :=
  let w := wd i.words 6
  let c := bitsOf w 15 10
  (if c = 0 then i.ctx else c, bitsOf w 9 0 + 1024 * bitsOf w 25 24)

/-- Whether an instance is a running WAIT on a fence that has not been released. -/
def Inst.waitsFence (i : Inst) : Bool := i.ty == 2 && !bitOf (wd i.words 6) 27 && i.st == .running && !i.ended

/-- Release a WAIT that fence word w satisfies (R525): `ended`, with status FENCE_ERROR where bit 63 is set. -/
def releaseWait (c f w : Nat) (i : Inst) : Inst :=
  if i.waitsFence && waitFenceOf i == (c, f) && wd64 i.words 12 ≤ w then
    { i with ended := true, status := if 2 ^ 63 ≤ w then .fenceError else i.status }
  else i

/-- Store a fence word and release the waits that it satisfies, on every partition (R524 to R526). -/
def setFence (s : State) (c f w : Nat) : State :=
  match fencePlace s c f with
  | some (p, l) =>
    let x := s.cp c p
    let s1 := s.setCp c p { x with fences := tabSet x.fences l w }
    { s1 with parts := tabMap s1.parts fun _ P => { P with insts := tabMap P.insts fun _ i => releaseWait c f w i } }
  | none => s

/-! Completion records (R542 to R547). -/

/-- Code of a record status. -/
def RecSt.code : RecSt → Nat
  | .ok => 0 | .skipped => 1 | .predError => 2 | .failed => 3 | .aborted => 4 | .fenceError => 5 | .subError => 6
  | .sendFail => 7

/-- The eight words of a completion record with PHASE 0. -/
def recordWords (i : Inst) (st : RecSt) (fence time : Nat) : List Nat :=
  [ 2 ^ 27 * st.code + 2 ^ 25 * min i.reruns 2 + i.seg % 65536,
    2 ^ 28 * (i.astat % 16) + i.idx % 4096,
    65536 * (i.conflicts % 65536) + i.event % 65536,
    i.iter % 2 ^ 32,
    fence % 2 ^ 32, fence / 2 ^ 32 % 2 ^ 32,
    time % 2 ^ 32, time / 2 ^ 32 % 2 ^ 32 ]

/-- Make the record of instance n ready, unless it has been lost. DEDUCED, log entry 32. -/
def putRecord (s : State) (p n : Nat) (i : Inst) (st : RecSt) (fence time : Nat) : State :=
  if i.crec then
    let x := s.cp i.ctx p
    s.setCp i.ctx p { x with recs := x.recs.map fun r => if r.1 = n then (n, some (recordWords i st fence time)) else r }
  else s

/-- The records of the instances that `gone` names are lost and counted (R544, R547, R1003). -/
def CtxPart.loseRecords (x : CtxPart) (gone : Nat → Bool) : CtxPart :=
  { x with recs := x.recs.filter fun r => !gone r.1, recordsLost := x.recordsLost + (x.recs.filter fun r => gone r.1).length }

/-! Replies (R559). -/

/-- Messages whose reply comes when an operation ends (the table after R568). -/
def longMsg (op : Nat) : Bool :=
  [0x0102, 0x0120, 0x0202, 0x0303, 0x0502, 0x0503, 0x0510, 0x0511, 0x0522, 0x0804, 0x0903, 0x0904, 0x0A01, 0x0A02, 0x0A03].contains op

/-- The requests of function k whose replies go ahead of the reply to a simple message (R560): the simple operations that have begun
and not ended. -/
def repliesAhead (s : State) (k : Nat) : List Nat :=
  (s.ops.filter fun e => e.2.fn == k && !longMsg e.2.opcode).map (·.2.req)

/-- Queue a reply of the MCP to request `req` of function k (R559, R560). Function 9 and above stand for a requester that a function
reset discarded (R564): its replies are dropped. -/
def reply (s : State) (k req seq opcode ctx status detail : Nat) (payload : List Nat) : State :=
  if 9 ≤ k then s
  else
    let f := s.fn k
    let after := if longMsg opcode then [] else repliesAhead s k
    s.setFn k { f with replies := f.replies ++ [{ seq, opcode, ctx, status, detail, payload, req, after }] }

/-- End a long operation with a reply. -/
def endOp (s : State) (n status : Nat) (payload : List Nat) : State :=
  match tabFind s.ops n with
  | none => s
  | some o =>
    reply { s with ops := tabDel s.ops n } o.fn o.req o.seq o.opcode o.ctx status (if status ≤ 1 then 0 else 0xFFFFFFFF) payload

/-! Releases of references (R259, R386, R463 are step 8 of the commit; an abandoned node releases without R463). -/

/-- Take one reference off a slot. -/
def derefSlot (x : CbSlot) : CbSlot := { x with refs := x.refs - 1 }

/-- Change the references of every slot that a 16-bit mask names: weight slots in bits 7–0, activation in 15–8. -/
def modRefs (x : CtxPart) (mask : Nat) (f : CbSlot → CbSlot) : CtxPart :=
  (List.range 8).foldl (fun x q =>
    let x := if bitOf mask q then { x with cbW := tabMod {} x.cbW q f } else x
    if bitOf mask (q + 8) then { x with cbA := tabMod {} x.cbA q f } else x) x

/-- A slot whose references are gone: a waiting load starts to write (R268), a waiting release empties it (R272). -/
def drainSlot (x : CbSlot) : CbSlot :=
  if x.refs ≠ 0 then x
  else match x.st with
    | .loadWait => { x with st := .writing }
    | .releaseWait => {}
    | _ => x

/-- Change the count of bank b. -/
def modBank (x : CtxPart) (b : Nat) (f : Nat → Nat) : CtxPart :=
  if b = 0 then { x with bank0 := { x.bank0 with count := f x.bank0.count } }
  else { x with bank1 := { x.bank1 with count := f x.bank1.count } }

/-- The count of the standby bank. -/
def CtxPart.standbyCount (x : CtxPart) : Nat := if x.active = 0 then x.bank1.count else x.bank0.count

/-- A waiting preparation starts to copy once the standby count is 0 (R388). -/
def drainBank (x : CtxPart) : CtxPart :=
  if x.prep ≠ none && x.standbyCount = 0 then { x with copying := true } else x

/-- The slots that a CODEBOOK_LOAD or CODEBOOK_RELEASE names, on one partition (R264, R272). -/
def targetSlots (w : Nat) (x : CtxPart) : List CbSlot :=
  (if bitOf w 8 then [tabGet {} x.cbW (w % 8)] else []) ++ (if bitOf w 9 then [tabGet {} x.cbA (w % 8)] else [])

/-- CODEBOOK_RELEASE answers once every slot that it names is EMPTY on every partition of the context (R272). -/
def settleReleases (s : State) (c : Nat) : State :=
  s.ops.foldl (fun s e =>
    let o := e.2
    if o.opcode = 0x0511 && o.ctx = c &&
        (s.ctx c).parts.all fun p => (targetSlots (wd o.payload 0) (s.cp c p)).all fun q => q.st == .empty then
      endOp s e.1 0 []
    else s) s

/-- Release what a kernel holds on its partition: codebook references and its bank (R258, R386). -/
def releaseRefs (s : State) (p : Nat) (i : Inst) : State :=
  if i.refs then
    let x := modRefs (s.cp i.ctx p) i.cbMask (fun c => drainSlot (derefSlot c))
    settleReleases (s.setCp i.ctx p (drainBank (modBank x i.bank (· - 1)))) i.ctx
  else s

/-! Stopping a kernel on its tiles (R146, R147, R211, R533). -/

/-- 64 free bytes of a killed kernel's line (R211; DESIGN CHOICE, log entry 3). -/
def freeLine (k : Nat) : List Byte := (List.range 64).map fun j => BitVec.ofNat 8 (Config.freeNat k / 256 ^ j)

/-- Every kernel-written line of a scratchpad becomes free bytes; the number of free values used (R211). -/
def scrambleSpad (d : Spad) (k : Nat) : Spad × Nat :=
  d.kw.foldl (fun a l => ({ a.1 with bytes := memWrite a.1.bytes (64 * l) (freeLine a.2) }, a.2 + 1)) (d, k)

/-- The bytes [a, a + n) of a scratchpad that lie in lines the kernel did not write become free bytes, the other bytes of those
lines stay (R147; DESIGN CHOICE, log entry 3). -/
def scrambleBytes (d : Spad) (a n k : Nat) : Spad × Nat :=
  ((pieces a n).filter fun x => !d.kw.contains (x.1 / 64)).foldl (fun q x =>
    ({ q.1 with bytes := memWrite q.1.bytes x.1 ((freeLine q.2).take x.2) }, q.2 + 1)) (d, k)

/-- The PM result regions of a matrix command that has started, as first byte and length (R147, R185). -/
def MCmd.resultRegs (m : MCmd) : List (Nat × Nat) :=
  if m.pass = 0 then []
  else m.subs.map fun w =>
    let h := wd m.hdr 0
    let rows := bitsOf (wd w 13) 19 0
    let cols := bitsOf (wd w 12) 23 0
    let gacc := match m.gext with | some g => bitOf (wd g 0) 31 | none => false
    let y := if gacc then m.gdst else bitsOf (wd w 8) 19 0 + m.yOff
    let ld := if gacc then bitsOf (wd (m.gext.getD []) 4) 19 0 else bitsOf (wd w 9) 19 0
    let e := if gacc || 1 < bitsOf (wd m.hdr 1) 15 0 || (isIntFmt (bitsOf h 31 28) && isIntFmt (bitsOf h 27 24)) then 4
      else fmtBits (bitsOf h 23 20) / 8
    if rows = 0 || cols = 0 then (y, 0) else (y, (rows - 1) * ld + cols * e)

/-- Stop the kernel of a tile: its queues empty, its written lines and the result region of a started matrix command
are undefined, both weight sets are gone (R146, R147, R211). `now` marks the kill for R984. -/
def stopTile (x : Tile) (k now : Nat) : Tile × Nat :=
  let w := scrambleSpad x.wm k
  let a := scrambleSpad x.am w.2
  let q := scrambleSpad x.pm a.2
  let y := (x.mq.flatMap MCmd.resultRegs).foldl (fun q r => scrambleBytes q.1 r.1 r.2 q.2) q
  ({ x with wm := w.1, am := a.1, pm := y.1, mq := [], dq := [], kvq := [], run := none,
            wAct := [], wShadow := [], badAct := [], badShadow := [], killedAt := some now }, y.2)

/-- The arithmetic status of the matrix commands that a kernel has issued on a tile, retired or not (R156). -/
def Tile.status (x : Tile) : Nat :=
  x.mq.foldl (fun f c => flagsOr f c.flags) (match x.run with | some r => r.astat | none => 0)

/-- Stop every tile of partition p that runs instance n; what the tile has gathered of arithmetic status and conflicts stays with
the instance, whose record carries it (R156, R198). -/
def stopTiles (s : State) (p n : Nat) : State :=
  allTiles.foldl (fun s t =>
    let x := s.tile p t
    match x.run with
    | some r =>
      if r.inst = n then
        let y := stopTile x s.free (s.part p).count
        let s1 : State := { s.setTile p t y.1 with free := y.2 }
        if r.ended then s1
        else s1.modInst p n fun i => { i with astat := flagsOr i.astat x.status, conflicts := min (i.conflicts + r.conflicts) 65535 }
      else s
    | none => s) s

/-! Resolution (R495 to R501). -/

/-- How an edge stands: live, dead or failed, none while unresolved (R496). -/
inductive EdgeSt where
  | live | dead | failed
deriving DecidableEq, Repr

/-- Whether the node committed with the error flag on its own fence (R496). `fenceWord` holds the word after the commit. -/
def Inst.fenceErr (i : Inst) : Bool := i.fenceVal ≠ 0 && 2 ^ 63 ≤ i.fenceWord

/-- The state of an edge to predecessor x under BRANCH b. DEDUCED, log entry 36. -/
def edgeSt (x : Inst) (b : Nat) : Option EdgeSt :=
  match x.st with
  | .skipped => some .dead
  | .abandoned => some .failed
  | .committed =>
    if x.fenceErr then some .failed
    else if b = 0 then some .live
    else if x.choice = some (b == 2) then some .live
    else some .dead
  | _ => none

/-- What a WAITING node becomes once its edges have resolved (R497). -/
inductive Verdict where
  | wait | run | skip | fail
deriving DecidableEq, Repr

/-- The rule of R497 over the states of a node's edges. -/
def verdict (edges : List (Option EdgeSt)) (onErr : Bool) : Verdict :=
  if edges.any (· == none) then .wait
  else
    let anyFailed := edges.any (· == some .failed)
    if anyFailed && !onErr then .fail
    else if edges ≠ [] && !edges.any (fun e => e == some .live || (onErr && e == some .failed)) then .skip
    else .run

/-- Same segment instance: the root run or one CALL or LOOP iteration (R501). -/
def sameGroup (a b : Inst) : Bool := a.ctx == b.ctx && a.seg == b.seg && a.parent == b.parent && a.iter == b.iter

/-- The instances of a group: number and instance, ascending. -/
def State.group (s : State) (p : Nat) (i : Inst) : List (Nat × Inst) := (s.part p).insts.filter fun e => sameGroup e.2 i

/-- Raise the own fence of a node (R498, R530 step 5) or set its error flag (R499); the node's fence word afterwards, 0
where the node has no fence or names one out of range (R548). -/
def ownFence (s : State) (i : Inst) (error : Bool) : State × Nat :=
  if i.fenceVal = 0 || (fencePlace s i.ctx i.fenceId).isNone then (s, 0)
  else
    let w := fenceApply (fenceWord s i.ctx i.fenceId) (if error then 2 else 0) i.fenceVal
    (setFence s i.ctx i.fenceId w, w)

/-- Mark instance n resolved with a state and record status: own fence where the commit has not raised it, references
released, record made ready. The successors follow in `settle`. -/
def resolve1 (s : State) (p n : Nat) (st : NodeSt) (rs : RecSt) : State :=
  match s.inst? p n with
  | none => s
  | some i =>
    if i.st.resolved then s
    else
      let f := ownFence s i (st == .abandoned)
      let s1 := releaseRefs f.1 p i
      let j := { i with st, status := rs, fenceWord := f.2, refs := false, ended := true, staged := none }
      let s2 := s1.setInst p n j
      let P := s2.part p
      let s3 := s2.setPart p { P with staging := P.staging - (match i.staged with | some b => b.length | none => 0) }
      putRecord s3 p n j rs f.2 P.count

/-- Node index order within a group: each WAITING node whose edges have resolved becomes READY, skipped or abandoned. -/
def settlePass (s : State) (p : Nat) (g : List (Nat × Inst)) : State :=
  g.foldl (fun s e =>
    match s.inst? p e.1 with
    | none => s
    | some i =>
      if i.st ≠ .waiting then s
      else
        let grp := s.group p i
        let st (x : Nat × Nat) : Option EdgeSt :=
          match grp.find? (fun q => q.2.idx == x.1) with
          | some q => edgeSt q.2 x.2
          | none => some .dead
        match verdict ((nodeEdges i.words).map st) i.onErr with
        | .wait => s
        | .skip => resolve1 s p e.1 .skipped .skipped
        | .fail => resolve1 s p e.1 .abandoned .predError
        | .run =>
          let P := s.part p
          (s.setPart p { P with nextReady := P.nextReady + 1 }).setInst p e.1 { i with st := .ready, readyNo := P.nextReady }) s

/-- Forget the instances of a group that has ended. -/
def dropGroup (s : State) (p : Nat) (i : Inst) : State :=
  let P := s.part p
  s.setPart p { P with insts := P.insts.filter fun e => !sameGroup e.2 i }

/-- After a resolution in the group of instance i: settle the group; when all of it has resolved, a root segment's
storage is freed (R492), a CALL or LOOP iteration ends and its parent follows (R501, R516). Fuel bounds the nesting of
R493. -/
def settle : Nat → State → Nat → Inst → State
  | 0, s, _, _ => s
  | k + 1, s, p, i =>
    let s1 := settlePass s p (s.group p i)
    let g := s1.group p i
    if g.all (fun e => e.2.st.resolved) then
      let bad := g.any fun e => e.2.st == .abandoned
      match i.parent with
      | none =>
        let x := s1.cp i.ctx p
        dropGroup (s1.setCp i.ctx p { x with segs := tabDel x.segs i.seg }) p i
      | some q =>
        let s2 := dropGroup s1 p i
        match s2.inst? p q with
        | none => s2
        | some par =>
          if par.st.resolved then s2
          else if bad then settle k (resolve1 s2 p q .abandoned .subError) p par
          else if par.ty = 6 then s2.setInst p q { par with ended := true }
          else s2
    else s1

/-- The deepest chain of groups: depth 8 of R493 and the root. -/
def nestFuel : Nat := 10

/-- Resolve instance n and settle its group. -/
def resolveNode (s : State) (p n : Nat) (st : NodeSt) (rs : RecSt) : State :=
  match s.inst? p n with
  | none => s
  | some i => if i.st.resolved then s else settle nestFuel (resolve1 s p n st rs) p i

/-- Note the first event of a node for its record. -/
def noteEvent (s : State) (p n code : Nat) : State :=
  s.modInst p n fun i => if i.event = 0 then { i with event := code } else i

/-- The instances below a CALL or LOOP instance, at any depth. -/
def descendants : Nat → Tab Inst → List Nat → List Nat
  | 0, _, _ => []
  | k + 1, t, ps =>
    let d := (t.filter fun e => match e.2.parent with | some q => ps.contains q | none => false).map (·.1)
    if d = [] then [] else d ++ descendants k t d

/-- Abandon instance n, if it has not resolved: its tiles stop, its own fence receives the error flag (R499). A CALL or
LOOP takes the instances below it that are short of their commit point with it. -/
def abandon (s : State) (p n : Nat) (rs : RecSt) : State :=
  match s.inst? p n with
  | none => s
  | some i =>
    if i.st.resolved then s
    else
      let below := descendants nestFuel (s.part p).insts [n]
      let s1 := below.foldl (fun s m =>
        match s.inst? p m with
        | some j => if j.st.short then resolve1 (stopTiles s p m) p m .abandoned rs else s
        | none => s) s
      let s2 := resolveNode (stopTiles s1 p n) p n .abandoned rs
      below.foldl (fun s m =>
        match s.inst? p m with
        | some j => settle nestFuel s p j
        | none => s) s2

/-- The event data that names a node: segment, node index, iteration (R548). -/
def Inst.data (i : Inst) : List Nat := [i.seg, i.idx, i.iter]

/-- The data of a memory event that names a device address: the DVA, the context with the cause above it, segment and node index
(R665, R702). -/
def Inst.dvaData (i : Inst) (a cause : Nat) : List Nat :=
  [a % 2 ^ 32, a / 2 ^ 32, i.ctx + 65536 * cause, i.seg + 65536 * i.idx]

/-- Log an event of a node and note it for the record. -/
def nodeEvent (s : State) (p n code : Nat) (data : List Nat) : State :=
  match s.inst? p n with
  | none => s
  | some i => noteEvent (logEvent s { code, ctx := i.ctx, part := some p, data }) p n code

/-- A node that ends without commit, its fence receiving the error flag, and is not re-run (R166, R344, R548 and the like). -/
def failNode (s : State) (p n code : Nat) (data : List Nat) : State := abandon (nodeEvent s p n code data) p n .failed

/-! Fabric: job aborts (R815, R816). -/

/-- Put a packet of source `src` at the end of the transmit queue of lane pair n of port k. -/
def txPush (s : State) (k n src : Nat) (q : Packet) : State :=
  let l := s.lp k n
  s.setLp k n { l with txq := l.txq ++ [(src, q)] }

/-- The six ports. -/
def allPorts : List Nat := [0, 1, 2, 3, 4, 5]

/-- Send an ABORT on every lane pair of every UP port whose neighbour lies in the slice, but for port `skip`, from which a relayed one
has come. -/
def floodAbort (s : State) (q : Packet) (skip : Option Nat) : State :=
  allPorts.foldl (fun s k =>
    let P := s.port k
    if P.st == .up && P.inSlice && !(P.waived && P.check != 1) && skip != some k then
      allParts.foldl (fun s n => txPush s k n (skip.getD 6) q) s
    else s) s

/-- The ABORT packet of a job (R777, R815). -/
def abortPacket (s : State) (job seq code : Nat) : Packet :=
  { ptype := 4, srcModule := s.moduleId, addrLo := job, rtag := seq, low := code }

/-- Abandon instances at one instant (R536, R589): all of them resolve with the status before anything follows from it. -/
def abandonSet (s : State) (p : Nat) (victims : List Nat) (rs : RecSt) (event : Nat) : State :=
  let s1 := victims.foldl (fun s n =>
    resolve1 (stopTiles (if event = 0 then s else noteEvent s p n event) p n) p n .abandoned rs) s
  victims.foldl (fun s n =>
    match s.inst? p n with
    | some i => settle nestFuel s p i
    | none => s) s1

/-- Abandon every unresolved node instance of context c on partition p that is short of its commit point, with a status and
an event (R536, R577, R1021); the number abandoned. -/
def abandonAll (s : State) (p c : Nat) (rs : RecSt) (event : Nat) : State × Nat :=
  let victims := ((s.part p).insts.filter fun e => e.2.ctx == c && e.2.st.short).map (·.1)
  (abandonSet s p victims rs event, victims.length)

/-- The data of a job's event: partition and die 0, the causing code with ABORT_SEQ above it, the job (R1037). -/
def jobData (job seq code : Nat) : List Nat := [0, 0, code % 65536 + 65536 * seq, job]

/-- Abandon the work of every local context registered to a job, on the ABORT of the causing code (R1021). -/
def jobAbortLocal (s : State) (job seq code : Nat) : State :=
  let cs := (s.ctxs.filter fun e => e.2.st != .free && e.2.job == job).map (·.1)
  cs.foldl (fun s c =>
    let s1 := (s.ctx c).parts.foldl (fun s p => (abandonAll s p c .aborted 0).1) s
    logEvent s1 { code := 0x231A, ctx := c, data := jobData job seq code }) s

/-- The MCP sends the ABORT of a job (R1019, R1020), and abandons the job's local work (R1021).
DEDUCED, log entry 50. -/
def sendJobAbort (s : State) (job code : Nat) : State :=
  let seq := (s.abortSeq + 1) % 65536
  let s1 := { s with abortSeq := seq, abortsSeen := s.abortsSeen ++ [(s.moduleId, seq, s.hub)] }
  let s2 := floodAbort s1 (abortPacket s1 job seq code) none
  jobAbortLocal (logEvent s2 { code := 0x2319, data := jobData job seq code }) job seq code

/-- The jobs of a list of contexts that a patience test picks, each once. -/
def jobsOf (s : State) (cs : List Nat) (f : Ctx → Bool) : List Nat :=
  (cs.filter fun c => (s.ctx c).job != 0 && f (s.ctx c)).foldl (fun l c => setIns l (s.ctx c).job) []

/-! Replies and teardown (R559, R572, R577). -/

/-- Put imported keys in force whose handles no running load uses (R717). -/
def settleKeys (s : State) (c : Nat) : State :=
  let x := s.ctx c
  let busy (h : Nat) : Bool := s.loads.any fun e => e.2.ctx == c && bitsOf (wd e.2.words 0) 15 12 == h
  let go := x.keysNext.filter fun e => !busy e.1
  s.setCtx c { x with keys := go.foldl (fun t e => tabSet t e.1 e.2) x.keys, keysNext := x.keysNext.filter fun e => busy e.1 }

/-- A load that ends without success leaves the running loads; the NVWS space that an install took is free again (R737), and a key
that waited for it comes into force (R717). -/
def stopLoad (s : State) (n : Nat) : State :=
  match tabFind s.loads n with
  | none => s
  | some l =>
    let chunks := wd64 l.image.header 4 / 1048576
    let used := (List.range chunks).foldl (fun t c => tabMod 0 t ((c + l.image.s0) % 4) (· - 1)) s.nvws.used
    settleKeys { s with loads := tabDel s.loads n, nvws := if bitOf (wd l.words 0) 31 then { s.nvws with used } else s.nvws } l.ctx

/-- A load fails, is cancelled or is cut short by a reset: the new generation goes, its frames are zeroed and freed (R737). -/
def cancelLoad (s : State) (n : Nat) : State :=
  match tabFind s.loads n with
  | none => s
  | some l =>
    let s1 := stopLoad s n
    if bitOf (wd l.words 0) 31 then s1
    else
      let b := bitsOf (wd l.words 0) 19 16
      let B := tabGet {} (s1.ctx l.ctx).bindings b
      match tabFind B.gens (wd l.words 1) with
      | none => s1
      | some w =>
        let s2 := w.units.foldl (fun s e => zeroUnits s e.1 e.2) s1
        let x := s2.ctx l.ctx
        s2.setCtx l.ctx { x with bindings := tabSet x.bindings b { B with gens := tabDel B.gens (wd l.words 1) } }

/-- A CODEBOOK_LOAD stops waiting: slots in LOAD_WAIT return to VALID with what they held, a write that runs ends (R269). -/
def stopCodebook (s : State) (c n : Nat) : State :=
  let f (q : CbSlot) : CbSlot :=
    match q.next with
    | some x => if x.2.2.2 = n && q.st == .loadWait then { q with st := .valid, next := none } else q
    | none => q
  let y := s.ctx c
  s.setCtx c { y with cpart := tabMap y.cpart fun _ x =>
    { x with cbW := tabMap x.cbW fun _ q => f q, cbA := tabMap x.cbA fun _ q => f q } }

/-- A CODEBOOK_RELEASE stops waiting: its slots in RELEASE_WAIT are VALID again (R572; DEDUCED, log entry 115). -/
def stopRelease (s : State) (c n : Nat) : State :=
  let w := match tabFind s.ops n with | some o => wd o.payload 0 | none => 0
  let f (q : CbSlot) : CbSlot := if q.st == .releaseWait then { q with st := .valid } else q
  let y := s.ctx c
  s.setCtx c { y with cpart := tabMap y.cpart fun _ x =>
    { x with cbW := if bitOf w 8 then tabMod {} x.cbW (w % 8) f else x.cbW,
             cbA := if bitOf w 9 then tabMod {} x.cbA (w % 8) f else x.cbA } }

/-- A SFU_BANK_PREPARE stops waiting where it has not begun to copy (R389). -/
def stopPrepare (s : State) (c n : Nat) : State :=
  let y := s.ctx c
  s.setCtx c { y with cpart := tabMap y.cpart fun _ x => if x.prep = some n && !x.copying then { x with prep := none } else x }

/-- A WEIGHT_DROP stops: no further partition unbinds the generation (R572, R741). -/
def stopDrop (s : State) (c n : Nat) : State :=
  let w := match tabFind s.ops n with | some o => o.payload | none => []
  let b := bitsOf (wd w 0) 19 16
  let y := s.ctx c
  match tabFind y.bindings b with
  | none => s
  | some B =>
    let gens := tabMap B.gens fun g q => if g = wd w 1 then { q with unbinding := [] } else q
    s.setCtx c { y with bindings := tabSet y.bindings b { B with gens } }

/-- The running load of long operation o. -/
def loadOf (s : State) (o : Nat) : Option Nat := (s.loads.find? fun e => e.2.op == o).map (·.1)

/-- A refusal's DETAIL where no field is at fault (R566). -/
def noField : Nat := 0xFFFFFFFF

/-- What a long operation leaves when a teardown or a reset ends it before its time (R572): `zero` frees the frames of a load now,
else the teardown does later. -/
def stopOp (s : State) (n c opcode : Nat) (zero : Bool) : State :=
  if opcode = 0x0502 then
    match loadOf s n with
    | some l => if zero then cancelLoad s l else stopLoad s l
    | none => s
  else if opcode = 0x0503 then stopDrop s c n
  else if opcode = 0x0510 then stopCodebook s c n
  else if opcode = 0x0511 then stopRelease s c n
  else if opcode = 0x0522 then stopPrepare s c n
  else if opcode = 0x0A03 then { s with hbmOp := none }
  else s

/-- Teardown steps 1 and 2 (R577): DRAINING, long operations reply CTX_GONE, nodes short of their commit point are
abandoned with status ABORTED, arms are cancelled (R814). `op` is the CTX_DESTROY that waits, if any.
DEDUCED, log entry 104. -/
def beginTeardown (s : State) (c drainUs : Nat) (op : Option Nat) : State :=
  let x := s.ctx c
  if x.st ≠ .open then s
  else
    let s1 := s.setCtx c { x with st := .draining, abandoned := 0, fenced := false, destroyOp := op,
                                  drainBy := s.hub + us (2004 + if drainUs = 0 then 10000 else drainUs) }
    let s2 := s1.ops.foldl (fun s e =>
      if e.2.ctx = c && e.2.opcode ≠ 0x0102 then endOp (stopOp s e.1 c e.2.opcode false) e.1 0x001C [] else s) s1
    let a := x.parts.foldl (fun (a : State × Nat) p =>
      let b := abandonAll a.1 p c .aborted 0
      let P := b.1.part p
      (b.1.setPart p { P with arms := P.arms.map fun e =>
        (e.1, if e.2.ctx = c && e.2.cancelAt = none then { e.2 with cancelAt := some (P.count + us 2000) } else e.2) },
        a.2 + b.2)) (s2, 0)
    a.1.setCtx c { a.1.ctx c with abandoned := a.2 }

/-- The reset of partition p has ended: PARTITION_RESET replies with a status and the duration in µs (R1035),
SERVICE_RESTORE once every partition it named has ended (R1017). -/
def releaseWaiters (s : State) (p : Nat) (ws : List Nat) (status durUs : Nat) : State :=
  ws.foldl (fun s n =>
    match tabFind s.ops n with
    | none => s
    | some o =>
      if o.opcode = 0x0804 then endOp s n status [durUs]
      else
        let left := setDel o.todo p
        if left = [] then endOp s n 0 [] else { s with ops := tabSet s.ops n { o with todo := left } }) s

/-- The registers of a partition that its reset clears, as its compute part enters reset (R20, R645); HBM is in self-refresh. -/
def computeOff (P : Part) : Part :=
  { P with slot := 0, frames := 0, kills := 0, graces := []
           regs := tabMap P.regs fun _ r => { r with throttled := 0, waited := false, owed := 0 }
           act := 0, actAt := P.count, idleAt := none, hbm := { P.hbm with selfRefresh := true, wokenAt := none, ca := [] } }

/-- A partition goes out of service (R1014): its compute part in reset, recorded, logged where it reached its own limit (R1012), each
context on it torn down with DRAIN_US 0. A DCP that the reset took with it serves again (R53). -/
def partOutOfService (s : State) (p : Nat) (limit : Bool) : State :=
  let P := s.part p
  let back := match P.reset with | some r => r.stays | none => false
  let dcpAt := match P.reset with | some r => if r.dcp then P.count else P.dcpAt | none => P.dcpAt
  let s1 := s.setPart p (computeOff { P with inService := false, oos := P.oos || !back, dispHeld := true, reset := none, dcpAt })
  let ws := match P.reset with | some r => r.waiters | none => []
  let cause := match P.reset with | some r => r.cause | none => 0
  let s2 := releaseWaiters (if limit then logEvent s1 { code := 0x2317, part := some p, data := [p, p, cause] } else s1) p ws 0x001B 0
  (s2.ctxsOn p).foldl (fun s c => beginTeardown s c 0 none) s2

/-! Partition reset (R986 to R993). -/

/-- What the link island does with partition p's own work at the start of Sundown (R812): arms are cancelled and keep
matching for 2 ms (R813), staged packets not released are discarded. -/
def linkIslandReset (s : State) (p : Nat) : State :=
  let P := s.part p
  s.setPart p { P with arms := P.arms.map fun e =>
    (e.1, if e.2.cancelAt = none then { e.2 with cancelAt := some (P.count + us 2000) } else e.2) }

/-- Resident bytes of the bound generations on partition p (R995). -/
def residentBytes (s : State) (p : Nat) : Nat :=
  s.ctxs.foldl (fun a ce => ce.2.bindings.foldl (fun a be => be.2.gens.foldl (fun a ge =>
    if ge.2.bound.contains p then a + 65536 * (tabGet [] ge.2.units p).length else a) a) a) 0

/-- The bound of a reset in ms (R990, R995). -/
def resetBoundMs (s : State) (p : Nat) (memPath : Bool) : Nat :=
  if memPath then 2500 + residentBytes s p / 2000000000 else 800

/-- Minutes as counts of the hub counter. -/
def minutes (n : Nat) : Nat := 1500000000 * n

/-- Counted events of the module window (R1013). -/
def modCount (s : State) : Nat :=
  (allParts.foldl (fun a p => a + ((s.part p).resetLog.filter fun t => s.hub < t + minutes (wd s.escal 3)).length) 0) +
    (s.fatalLog.filter fun t => s.hub < t + minutes (wd s.escal 3)).length

/-- Send EVENT_NOTIFY of the reset to the owner of each context on the partition (R990 step 1).
DESIGN CHOICE, log entry 31. -/
def notifyReset (s : State) (p cause : Nat) : State :=
  (s.ctxsOn p).foldl (fun s c =>
    notify s { code := cause, ctx := c, part := some p, rep := 1, time := (s.part p).count, data := [p, cause] }) s

/-- Long operations that wait on a partition reply PARTITION_RESET (R572) when it is reset: those whose `todo` names it.
CTX_DESTROY (R997), PARTITION_RESET and SERVICE_RESTORE wait for its end. -/
def longOpsReset (s : State) (p : Nat) : State :=
  s.ops.foldl (fun s e =>
    let o := e.2
    let waits := if o.opcode = 0x0303 then bitsOf (wd o.payload 0) 18 16 == p else o.todo.contains p
    if waits && o.opcode != 0x0102 && o.opcode != 0x0804 && o.opcode != 0x0803 then
      endOp (stopOp s e.1 o.ctx o.opcode true) e.1 0x001D []
    else s) s

/-- The module limit (R1013, R1015): the module and every partition go out of service. A job of a context there is aborted,
unless `sent` names it: at most one ABORT for a job and an event (R1019). DEDUCED, log entry 109. -/
def checkModuleLimit (s : State) (cause : Nat) (sent : List Nat) : State :=
  if s.moduleOos || modCount s < wd s.escal 2 then s
  else
    let s1 := logEvent { s with moduleOos := true, faultN := false } { code := 0x2318, data := [0, 0, cause] }
    let ps := allParts.filter fun p => !(s.part p).oos
    let jobs := (jobsOf s1 (ps.flatMap s1.ctxsOn) fun _ => true).filter fun j => !sent.contains j
    let s2 := jobs.foldl (fun s j => sendJobAbort s j cause) s1
    ps.foldl (fun s p => partOutOfService s p false) s2

/-- No tile of partition p runs filler: its partition is in reset, or its die throttled (R964, R968). -/
def noFiller (s : State) (p : Nat) : State := allTiles.foldl (fun s t => s.setTile p t { s.tile p t with filler := false }) s

/-- Partition p is out of service and not in a reset: by escalation, a failed bring-up or test mode. A reset that R1014 ends out of
service again changes nothing of that. -/
def State.offDuty (s : State) (p : Nat) : Bool :=
  !(s.part p).inService && (match (s.part p).reset with | some r => r.stays | none => true)

/-- Partition p is out of service for good, by escalation or a failed bring-up: its compute part stays in reset (R1014).
DEDUCED, log entry 82. -/
def State.staysOut (s : State) (p : Nat) : Bool :=
  s.offDuty p && !(s.part p).inTest && ((s.part p).oos || s.boot.partFailed.contains p)

/-- Start a reset of partition p (R990 steps 1 and 2): out of service, dispatch held, owners notified, every node
instance short of its commit point abandoned with status FAILED and the cause (R991). A reset that runs is not restarted
(R987); a DCP that fails meanwhile is reset with it, at once where its controllers are back already (R53). -/
def startReset (s : State) (p cause : Nat) (memPath counted dump dcp : Bool) (waiters : List Nat) : State :=
  let P := s.part p
  match P.reset with
  | some r =>
    s.setPart p { P with dcpAt := if dcp && r.step == .ending then P.count else P.dcpAt,
                         reset := some { r with waiters := r.waiters ++ waiters, dcp := r.dcp || dcp } }
  | none =>
    let log1 := if counted then s.hub :: P.resetLog else P.resetLog
    let inWin := (log1.filter fun t => s.hub < t + minutes (wd s.escal 1)).length
    let toOos := counted && wd s.escal 0 ≤ inWin
    let mask := (s.ctxsOn p).foldl (fun a c => if P.insts.any (fun e => e.2.ctx == c) then a + 2 ^ c else a) 0
    let r : Reset := { cause, startedAt := P.count, memPath, dump, dcp, ctxMask := mask, waiters, toOos,
                       stays := counted && s.staysOut p
                       stopped := allTiles.map fun t => (t, s.tile p t)
                       table := P.insts }
    let s1 := s.setPart p { P with inService := false, dispHeld := true, reset := some r, resetLog := log1,
                                   frozen := false, saveOp := none }
    let s2 := linkIslandReset (noFiller s1 p) p
    let s3 := notifyReset s2 p cause
    let a := (s.ctxsOn p).foldl (fun (a : State × Nat) c =>
      let b := abandonAll a.1 p c .failed cause
      (b.1, a.2 + b.2)) (s3, 0)
    let s4 := a.1
    let P4 := s4.part p
    let s5 := s4.setPart p { P4 with reset := P4.reset.map fun r => { r with abandoned := a.2 } }
    let s6 := longOpsReset s5 p
    let jobs := jobsOf s6 (s6.ctxsOn p) fun c => c.patienceMs != 0 && c.patienceMs < resetBoundMs s p memPath || toOos
    let s7 := jobs.foldl (fun s j => sendJobAbort s j cause) s6
    if counted then checkModuleLimit s7 cause jobs else s7

/-- Module-fatal stop after its event is logged (R1007): job aborts, nodes short of their commit point abandoned, FAULT_N
low, MCP_READY 0, event messages discarded. `powerOff`: the main rails go with it (R1009). DEDUCED, log entry 33. -/
def moduleFatal (s : State) (code : Nat) : State :=
  let s0 := { s with fatalLog := s.hub :: s.fatalLog }
  let cs := (s0.ctxs.filter fun e => e.2.st != .free).map (·.1)
  let jobs := jobsOf s0 cs fun _ => true
  let s1 := jobs.foldl (fun s j => sendJobAbort s j code) s0
  let s2 := allParts.foldl (fun s p =>
    let P := s.part p
    let s := s.setPart p { P with dispHeld := true, reset := none }
    (s.ctxsOn p).foldl (fun s c => (abandonAll s p c .failed code).1) s) s1
  let s3 := checkModuleLimit s2 code jobs
  { s3 with faultN := false, mcpReady := false, stopped := true,
            fns := tabMap s3.fns fun _ f => { f with events := [] } }

/-- Log an occurrence and do what its class demands of a partition or the module (R980, R986, R1007). -/
def raise (s : State) (e : Ev) : State :=
  let s1 := logEvent s e
  match evClass e.code, e.part with
  | 4, some p => startReset s1 p e.code (e.code == 0x42A7 || e.code == 0x42A8) true false false []
  | 5, _ => moduleFatal s1 e.code
  | _, _ => s1

/-- The RDMA requests of instance n that wait for an answer belong to a run that is no more: the answer to come ends nothing
(R528). Partition 8 stands for no partition. -/
def forgetRequests (s : State) (p n : Nat) : State :=
  { s with conns := tabMap s.conns fun _ c => { c with outst := c.outst.map fun x => if x = (p, n) then (8, 0) else x } }

/-- Stop a node short of its commit point and make it READY again ahead of the others (R500, R533): nothing of its execution
remains. -/
def requeue (s : State) (p n : Nat) (i : Inst) (reruns preempts : Nat) : State :=
  let P := s.part p
  let st := P.staging - (match i.staged with | some b => b.length | none => 0)
  let s2 := stopTiles (forgetRequests (s.setPart p { P with nextReady := P.nextReady + 1, staging := st }) p n) p n
  s2.setInst p n { i with st := .ready, rerun := true, reruns, preempts, readyNo := P.nextReady,
                          endedTiles := [], astat := 0, conflicts := 0, pubs := [], gnamed := [], greleased := [],
                          writes := [], acks := [], unsent := [], ackBad := false, svuDone := [], svuOut := [],
                          ended := false, staged := none, xlWait := [], xlAsked := false, hostWait := none }

/-- Events that tell that a node has consumed poison and may run again (R144, R209). -/
def poisonKill (code : Nat) : Bool := code == 0x3210 || code == 0x3223

/-- A Command-recoverable kill (R533 to R535): re-run at most twice, unless an earlier event of the kernel forbids it
(R263, R439), or it consumed poison of a generation that is DAMAGED by now (R754). It breaks a row of pre-emptions (R633). -/
def killNode (s : State) (p n code : Nat) (data : List Nat) : State :=
  let s1 := nodeEvent s p n code data
  match s1.inst? p n with
  | none => s1
  | some i =>
    if !i.st.short then s1
    else if i.noRerun || (poisonKill code && i.damaged) then abandon s1 p n .failed
    else if 2 ≤ i.reruns then
      let s2 := abandon s1 p n .failed
      raise s2 { code := 0x4287, ctx := i.ctx, part := some p, data := i.data }
    else requeue s1 p n { i with tainted := poisonKill code } (i.reruns + 1) 0

/-- The data poison of a kernel that was logged once: an event of a name is logged once per kernel, repeats count
(R287). DEDUCED, log entry 34. -/
def nodeEventOnce (s : State) (p n code : Nat) (data : List Nat) : State :=
  match s.inst? p n with
  | none => s
  | some i =>
    if i.evOnce.contains code then s
    else nodeEvent (s.modInst p n fun i => { i with evOnce := i.evOnce ++ [code] }) p n code data

/-- Count one more occurrence in the newest record of a code, context and partition. -/
def bumpNewest (code c : Nat) (part : Option Nat) : List LogRec → List LogRec
  | [] => []
  | r :: l => if r.code == code && r.ctx == c && r.part == part then bump r :: l else r :: bumpNewest code c part l

/-- An event of a name that is logged once per kernel, whose repeats are counted in its record (R287). -/
def nodeEventCounted (s : State) (p n code : Nat) (data : List Nat) : State :=
  match s.inst? p n with
  | none => s
  | some i =>
    if i.evOnce.contains code then
      { s with log := { s.log with general := bumpNewest code i.ctx (some p) s.log.general } }
    else nodeEventOnce s p n code data

/-- A failed access of a node: translation fault, or a partition in reset (R665, R993). -/
def accKill (s : State) (p n : Nat) (e : AccErr) : State :=
  let data (dva cause : Nat) : List Nat := match s.inst? p n with | some i => i.dvaData dva cause | none => []
  match e with
  | .unmapped dva => failNode s p n 0x32A4 (data dva 0)
  | .readOnly dva => failNode s p n 0x32A4 (data dva 1)
  | .targetReset dva q =>
    failNode s p n 0x331E [q, q, match (s.part q).reset with | some r => r.cause | none => 0, dva % 2 ^ 32]

/-- Forbid a re-run of the node after its next kill (R263, R439, R752). -/
def forbidRerun (s : State) (p n : Nat) : State := s.modInst p n fun i => { i with noRerun := true }

end Sys2Proof.Machine
end

