-- ==== Sys2Proof/Machine/Regulate.lean ====
section
/-! DEFINITION. The bandwidth regulators of a partition (R607 to R618). Balances are in 1/256 byte. -/

namespace Sys2Proof.Machine

/-- The compute part of a partition is in reset: from step 6 of a partition reset to its end, or out of service (R990, R1014). Nothing
is counted there (R20). -/
def Part.computeHeld (P : Part) : Bool :=
  P.oos || (match P.reset with | some r => r.step == .reinit || r.step == .ending | none => false)

/-- The regulator of a resource. -/
def Part.reg (P : Part) (k : Nat) : Regulator := tabGet {} P.regs k

/-- Replace a regulator. -/
def State.setReg (s : State) (p k : Nat) (r : Regulator) : State :=
  s.setPart p { s.part p with regs := tabSet (s.part p).regs k r }

/-- Tokens per refill at RATE 1, in 1/256 byte (the table of R607). -/
def regStep (k : Nat) : Nat :=
  if k ≤ 1 then 1600000 else if k ≤ 7 then 400000 else if k = 8 then 128000 else if k = 9 then 100000 else 2000000

/-- The units that wait proceed, 256 bytes at a time, while the balance is above 0, and each subtracts its size (R610); the rest
waits for the next refill (R611). -/
def Regulator.serve (r : Regulator) : Regulator :=
  let u := ((r.balance + 65535) / 65536).toNat
  if r.balance ≤ 0 then { r with waited := r.waited || r.owed != 0 }
  else if r.owed ≤ 256 * u then { r with owed := 0, balance := r.balance - 256 * (r.owed : Int) }
  else { r with owed := r.owed - 256 * u, balance := r.balance - 65536 * (u : Int), waited := true }

/-- Count n bytes of resource k on partition p. -/
def charge (s : State) (p k n : Nat) : State :=
  let r := (s.part p).reg k
  if n = 0 then s else s.setReg p k ({ r with owed := r.owed + n } : Regulator).serve

/-- Units of a resource among `ks` wait for the refills of partition p: the transfer that they belong to has not ended (R610, R611). -/
def owes (s : State) (p : Nat) (ks : List Nat) : Bool := ks.any fun k => ((s.part p).reg k).owed != 0

/-- Whether a unit of this resource has to wait: no token is left, or RATE 0 is in force (R610, R616). -/
def Regulator.dry (r : Regulator) : Bool := r.balance ≤ 0 || r.rate == 0

/-- The regulators, as partition and resource, that stood dry in s and that the transfer from s to t asks for. -/
def heldBy (s t : State) : List (Nat × Nat) :=
  allParts.flatMap fun p => ((List.range 11).filter fun k =>
    ((s.part p).reg k).dry && ((s.part p).reg k).owed < ((t.part p).reg k).owed).map (p, ·)

/-- A command whose data goes over a dry resource does not take place: its first unit waits for a refill, and no unit is lost
(R610, R611, R616). A command that does take place moves all its data in the step in which it starts; the units past the balance wait
for the next refills, before any other transfer, and the transfer ends only when they have proceeded (DEDUCED, log entry 16). -/
def gate (s t : State) : State :=
  match heldBy s t with
  | [] => t
  | ks => ks.foldl (fun s x => s.setReg x.1 x.2 { (s.part x.1).reg x.2 with waited := true }) s

/-- Whether resource k is closed for node instance i: a node dispatched before the closing keeps it (R616). -/
def closedFor (P : Part) (k i : Nat) : Bool := (P.reg k).closed && !(P.reg k).closing.contains i

/-- The bytes of [a, a + n) of a context that lie in the stacks of another partition than p. -/
def crossBytes (s : State) (p c v a n : Nat) : Nat :=
  (pieces a n).foldl (fun k x =>
    match translate s c v x.1 false with
    | .ok (q, _) => if q = p then k else k + x.2
    | .error _ => k) 0

/-- Count a cross-die HBM access on the regulators of the stacks and the mesh (R607). -/
def chargeHbm (s : State) (p c v a n : Nat) : State :=
  let k := crossBytes s p c v a n
  charge (charge s p 0 k) p 1 k

/-- Read device memory on behalf of partition p, the bytes of other stacks counted (R607); of a read that stops, those before the
address that stopped it. -/
def readHbm (s : State) (p c v a n unit : Nat) : Except (AccErr × State) (List PByte × State) :=
  match readDva s p c v a n unit with
  | .error (e, s1) => .error (e, chargeHbm s1 p c v a (e.dva - a))
  | .ok (bs, s1) => .ok (bs, chargeHbm s1 p c v a n)

/-- Write device memory on behalf of partition p, the bytes of other stacks counted (R607). -/
def writeHbm (s : State) (p c v a : Nat) (bs : List PByte) : Except AccErr State :=
  match writeDva s p c v a bs with
  | .error e => .error e
  | .ok s1 => .ok (chargeHbm s1 p c v a bs.length)

/-- REG_DISABLED: the node ends without commit and is not re-run (R616, R617); its data names partition, context, segment and node
(R648). -/
def regDisabled (s : State) (p n : Nat) : State :=
  match s.inst? p n with
  | some i => failNode s p n 0x3292 ([p, i.ctx] ++ i.data.take 2)
  | none => s

/-- A closed resource that a cross-die access of instance i meets (R617). -/
def closedHbm (s : State) (p c v a n i : Nat) : Option Nat :=
  if crossBytes s p c v a n = 0 then none
  else if closedFor (s.part p) 0 i then some 0
  else if closedFor (s.part p) 1 i then some 1
  else none

end Sys2Proof.Machine
end

