-- ==== Sys2Proof/Machine/Operands.lean ====
section
/-! DEFINITION. Operand forms: packed elements in a scratchpad (R65 to R73), the superblock code with its checks and decoding
(R228 to R246, R253, R261, R262, R1106), the coder (R250, R251, R278 to R281), and CRC-32C (R443). -/

namespace Sys2Proof.Machine

/-! Elements in memory. -/

/-- w bits at bit offset `bit` from byte address a. -/
def memBits (m : Mem) (a bit w : Nat) : Nat := leNat (memRead m (a + bit / 8) 5) / 2 ^ (bit % 8) % 2 ^ w

/-- Number of bytes that w bits at bit offset `bit` touch. -/
def bitSpan (bit w : Nat) : Nat := (bit % 8 + w + 7) / 8

/-! Codebooks and superblocks. -/

/-- Element code width b for a rate code and a source width in bits, 0 where the rate is not allowed (R233). -/
def codeWidth (rate bits : Nat) : Nat :=
  match bits, rate with
  | 32, 1 => 23
  | 32, 2 => 19
  | 32, 3 => 15
  | 32, 4 => 11
  | 16, 1 => 11
  | 16, 2 => 9
  | 16, 3 => 7
  | 16, 4 => 5
  | 8, 1 => 5
  | 8, 2 => 4
  | _, _ => 0

/-- Whether a rate code is allowed for a format (R233): rate 0 always, reserved codes never. -/
def rateOk (rate fmt : Nat) : Bool := rate == 0 || (rate ≤ 4 && codeWidth rate (fmtBits fmt) != 0)

/-- Coded block size B (R233). -/
def blockBytes (rate : Nat) : Nat :=
  if rate = 0 then 64 else if rate = 1 then 48 else if rate = 2 then 40 else if rate = 3 then 32 else 24

/-- Whether a format can be compressed (R228). -/
def compressible (fmt : Nat) : Bool := fmt ≤ 4 || fmt == 11

/-- Index bits k of a slot's codebook (R242). -/
def idxBits (c : CbSlot) : Nat := if c.size32 then 5 else 4

/-- Why a superblock decodes as poisoned (R1106). -/
inductive SbErr where
  /-- CMP_HEADER_INVALID: slot of the index entry. -/
  | header (slot : Nat)
  /-- CMP_SLOT_UNREFERENCED. -/
  | unref (slot : Nat)
  /-- CMP_GEN_MISMATCH: slot, header generation, slot generation. -/
  | gen (slot hdr cur : Nat)
deriving DecidableEq, Repr

/-- The first check of R1106, of the index entry alone (R236): `fits` says whether the coded bytes lie within the scratchpad. -/
def checkEntry (fmt entry : Nat) (fits : Bool) : Option SbErr :=
  let rate := bitsOf entry 28 26
  let slot := bitsOf entry 31 29
  if !rateOk rate fmt || (rate == 0 && slot != 0) || !fits then some (.header slot) else none

/-- The checks of R1106 that follow the first one: header, slot reference, generation, codebook size; none of them concerns rate 1.
`named` is the kernel's 8-bit mask for the expander, `hdr` the header's eight words. -/
def checkHdr (slots : Tab CbSlot) (named fmt entry : Nat) (hdr : List Nat) : Option SbErr :=
  let rate := bitsOf entry 28 26
  let slot := bitsOf entry 31 29
  if rate = 0 then none
  else
    let h := wd hdr 0
    let bad := bitsOf h 31 24 != 0xC5 || bitsOf h 13 0 != 0 || bitsOf (wd hdr 1) 15 0 != 0 ||
      (hdr.drop 3).any (· != 0) || bitsOf h 23 20 != fmt || bitsOf h 19 17 != rate || bitsOf h 16 14 != slot
    let c : CbSlot := tabGet {} slots slot
    let g := bitsOf (wd hdr 1) 31 16
    if bad then some (.header slot)
    else if !bitOf named slot then some (.unref slot)
    else if g != c.gen then some (.gen slot g c.gen)
    else if c.size32 && codeWidth rate (fmtBits fmt) == 4 then some (.header slot)
    else none

/-- Decode one element code under scale byte S in 1–254: exact value, rounded once to the source format (R243, R244). -/
def decodeCode (c : CbSlot) (fmt b S code : Nat) : Nat :=
  let m := b - idxBits c
  let j := code / 2 ^ m
  let u := code % 2 ^ m
  let e := c.entries.getD j (0, 0)
  let v := (FV.add 0 (ofF32 e.1) ((FV.mul (ofF32 e.2) (.fin false u (-(m : Int)))))).scale ((S : Int) - 127)
  match v with
  | .fin neg k x =>
    if k = 0 then 0
    else if fmt = 11 then uNat 8 (clampS 8 (FV.toInt 0 (.fin neg k x)))
    else
      let r := ((ffmtOf fmt).encode 0 true (.fin neg k x)).1
      if r % 2 ^ (ffmtOf fmt).signBit = 0 then 0 else r
  | _ => 0

/-- The element at byte offset o (of the superblock) of a coded superblock: its code, or none where its block has scale 0xFF
(R245, R253). `get` reads the coded superblock's bytes from its header on. -/
def sbElem (c : CbSlot) (fmt rate : Nat) (get : Nat → Nat → Nat) (o : Nat) : Option Nat :=
  let bits := fmtBits fmt
  let blk := 32 + o / 64 % 64 * blockBytes rate
  let b := codeWidth rate bits
  let S := get (8 * blk) 8
  if S = 0 then some 0
  else if S = 255 then none
  else some (decodeCode c fmt b S (get (8 * blk + 8 + b * (o % 64 / (bits / 8))) b))

/-! Coding (R250). -/

/-- A finite value as a whole number over 2^e. -/
def FV.over (e : Int) : FV → Int
  | .fin a m x => sgn a m * 2 ^ (x - e).toNat
  | _ => 0

/-- The least exponent that a finite value uses. -/
def FV.exp : FV → Int
  | .fin _ _ x => x
  | _ => 0

/-- The best refinement of one interval for target t: distance and u. B, W and T are whole numbers over one exponent;
distances are over that exponent less m bits (R250). -/
def bestU (B W T : Int) (m : Nat) : Nat × Nat :=
  let d := (T - B) * 2 ^ m
  let top : Int := 2 ^ m - 1
  let u0 : Int := if W ≤ 0 then 0 else max 0 (min top (d / W))
  let u1 : Int := if W ≤ 0 then 0 else max 0 (min top (d / W + 1))
  let e0 := (u0 * W - d).natAbs
  let e1 := (u1 * W - d).natAbs
  if e1 < e0 then (e1, u1.toNat) else (e0, u0.toNat)

/-- The element code of value t (already divided by the block scale) with codebook c (R250). -/
def codeElem (c : CbSlot) (b : Nat) (t : FV) : Nat :=
  let m := b - idxBits c
  let e := c.entries.foldl (fun a x => min a (min (ofF32 x.1).exp (ofF32 x.2).exp)) t.exp
  let best := (List.range c.entries.length).foldl (fun (a : Option (Nat × Nat)) j =>
    let x := c.entries.getD j (0, 0)
    let r := bestU ((ofF32 x.1).over e) ((ofF32 x.2).over e) (t.over e) m
    let code := j * 2 ^ m + r.2
    match a with
    | none => some (r.1, code)
    | some (d, k) => if r.1 < d then some (r.1, code) else some (d, k)) none
  match best with
  | some (_, k) => k
  | none => 0

/-- The source values of a block as the coder sees them (R251): NaN as +0, infinities as the largest finite. -/
def coderVal (fmt x : Nat) : FV :=
  match elemVal fmt x with
  | .nan => .fin false 0 0
  | .inf neg => if fmt = 11 then .fin false 0 0 else (ffmtOf fmt).decode ((ffmtOf fmt).withSign neg (ffmtOf fmt).maxCode)
  | v => v

/-- Largest lead exponent of a block, none when all values are zero. -/
def blockLead (vs : List FV) : Option Int :=
  vs.foldl (fun (a : Option Int) v =>
    match a, v.lead with
    | some x, some y => some (max x y)
    | none, y => y
    | x, none => x) none

/-- Code a block of values: scale byte and element codes (R250). -/
def codeVals (c : CbSlot) (b : Nat) (vs : List FV) : Nat × List Nat :=
  match blockLead vs with
  | none => (0, vs.map fun _ => 0)
  | some l =>
    let x := max l (-126)
    ((x + 127).toNat, vs.map fun v => codeElem c b (v.scale (-x)))

/-- Pack a coded block into its B bytes (R240, R241). -/
def packBlock (rate b : Nat) (r : Nat × List Nat) : List Byte :=
  natLe (blockBytes rate) (r.1 + 256 * (r.2.foldr (fun x a => x + 2 ^ b * a) 0))

/-- The elements of bytes of a format of whole bytes. -/
def elemsOf (fmt : Nat) (bs : List Byte) : List Nat :=
  let w := fmtBits fmt / 8
  (List.range (bs.length / w)).map fun i => leNat ((bs.drop (w * i)).take w)

/-- Code one 64-byte source block (R250, R251). -/
def codeBlock (c : CbSlot) (fmt rate : Nat) (bs : List Byte) : List Byte :=
  if rate = 0 then bs
  else
    let b := codeWidth rate (fmtBits fmt)
    packBlock rate b (codeVals c b ((elemsOf fmt bs).map (coderVal fmt)))

/-- Whether bytes of a format hold a NaN or an infinity (R251). -/
def hasNonfinite (fmt : Nat) (bs : List Byte) : Bool :=
  (elemsOf fmt bs).any fun x => (elemVal fmt x).isNan || (elemVal fmt x).isInf

/-- A superblock header (R237). -/
def sbHeader (fmt rate slot gen rms : Nat) : List Byte :=
  wordsBytes [2 ^ 24 * 0xC5 + 2 ^ 20 * fmt + 2 ^ 17 * rate + 2 ^ 14 * slot, 65536 * gen, rms, 0, 0, 0, 0, 0]

/-- The 64-byte blocks of bytes. -/
def blocksOf (bs : List Byte) : List (List Byte) := (List.range ((bs.length + 63) / 64)).map fun i => (bs.drop (64 * i)).take 64

/-- The decoded codes of a coded block of n elements. -/
def decodeVals (c : CbSlot) (fmt b : Nat) (r : Nat × List Nat) : List Nat :=
  r.2.map fun x => if r.1 = 0 then 0 else decodeCode c fmt b r.1 x

/-- num and den of R279 over source bytes coded with c: FP32 sums in ascending element order. -/
def rmsSums (c : CbSlot) (fmt rate : Nat) (bs : List Byte) : Nat × Nat :=
  let b := codeWidth rate (fmtBits fmt)
  (blocksOf bs).foldl (fun a blk =>
    let vs := (elemsOf fmt blk).map (coderVal fmt)
    let ds := (decodeVals c fmt b (codeVals c b vs)).map (elemVal fmt)
    (List.zip vs ds).foldl (fun (a : Nat × Nat) x =>
      let dif := FV.add 0 x.2 x.1.neg
      (fAdd fp32 0 a.1 (toF32 (FV.mul dif dif)), fAdd fp32 0 a.2 (toF32 (FV.mul x.1 x.1)))) a) (0, 0)

/-- Correctly rounded √(num ÷ den) as FP32; +0 when den is 0, +Inf when num is +Inf (R279). -/
def rmsOf (num den : Nat) : Nat :=
  match ofF32 num, ofF32 den with
  | .inf _, _ => 0x7F800000
  | .fin _ m x, .fin _ n y =>
    if n = 0 then 0
    else if m = 0 then 0
    else
      let k : Nat := if (x - y) % 2 = 0 then 200 else 201
      let q := m * 2 ^ k / n
      let r := isqrt (Nat.log2 q / 2 + 1) q
      let inexact := r * r != q || m * 2 ^ k % n != 0
      toF32 (.fin false (2 * r + b2n inexact) ((x - y - k) / 2 - 1))
  | _, _ => 0

/-- Whether num ≤ L² × den, exactly, L = limit × 2⁻¹⁶; false when num is +Inf (R279). Where L is 0 and den is +Inf the product has
no value, and the comparison fails (DESIGN CHOICE, log entry 127). -/
def withinLimit (num den limit : Nat) : Bool :=
  match ofF32 num with
  | .fin _ _ _ =>
    match FV.cmp (ofF32 num) (FV.mul (.fin false (limit * limit) (-32)) (ofF32 den)) with
    | some .gt => false
    | some _ => true
    | none => false
  | _ => false

/-- Code a superblock: header and 64 blocks, or the raw bytes at rate 0 (R234, R281). -/
def codeSb (c : CbSlot) (fmt rate slot rms : Nat) (bs : List Byte) : List Byte :=
  if rate = 0 then bs
  else sbHeader fmt rate slot c.gen rms ++ (blocksOf bs).flatMap (codeBlock c fmt rate)

/-- An index-table entry (R235). -/
def idxEntry (slot rate off : Nat) : Nat := 2 ^ 29 * slot + 2 ^ 26 * rate + off % 2 ^ 26

/-- The packer's choice for one superblock (R278): slot, rate and ERR_RMS. -/
def packChoice (slots : Tab CbSlot) (mask lowest limit fmt : Nat) (bs : List Byte) : Nat × Nat × Nat :=
  if hasNonfinite fmt bs then (0, 0, 0)
  else
    let rates := ((List.range lowest).map fun i => lowest - i).filter fun r => rateOk r fmt
    let pick := rates.findSome? fun r =>
      let b := codeWidth r (fmtBits fmt)
      let cands := (List.range 8).filter fun q =>
        bitOf mask q && !((tabGet ({} : CbSlot) slots q).size32 && b == 4)
      let best := cands.foldl (fun (a : Option (Nat × Nat × Nat)) q =>
        let s := rmsSums (tabGet {} slots q) fmt r bs
        match a with
        | none => some (q, s.1, s.2)
        | some (q0, n0, d0) =>
          if FV.cmp (ofF32 s.1) (ofF32 n0) = some .lt then some (q, s.1, s.2) else some (q0, n0, d0)) none
      match best with
      | some (q, n, d) => if withinLimit n d limit then some (q, r, rmsOf n d) else none
      | none => none
    pick.getD (0, 0, 0)

/-! CRC-32C (R443): polynomial 0x1EDC6F41 reflected, initial and final value all ones (the standard's; PRESUMED, log entry 13). -/

/-- One bit step. -/
def crcBit (c : Nat) : Nat := if c % 2 = 1 then Nat.xor (c / 2) 0x82F63B78 else c / 2

/-- One byte. -/
def crcByte (c : Nat) (b : Byte) : Nat :=
  crcBit (crcBit (crcBit (crcBit (crcBit (crcBit (crcBit (crcBit (Nat.xor c b.toNat))))))))

/-- CRC-32C of bytes. -/
def crc32c (bs : List Byte) : Nat := Nat.xor (bs.foldl crcByte 0xFFFFFFFF) 0xFFFFFFFF

end Sys2Proof.Machine
end

