-- ==== Sys2Proof/Machine/Sequencer.lean ====
section
/-! DEFINITION. The tile sequencer and scalar unit (R288 to R299, R343 to R345, R1110). -/

namespace Sys2Proof.Machine

/-! Registers. -/

/-- Scalar register k. -/
def Tile.sreg (x : Tile) (k : Nat) : Nat := (tabGet (0 : W32) x.s k).toNat

/-- Write scalar register k; the write makes good parity (R343). -/
def Tile.setS (x : Tile) (k v : Nat) : Tile := { x with s := tabSet x.s k (BitVec.ofNat 32 v), badS := setDel x.badS k }

/-- Vector register k as a number. -/
def Tile.vreg (x : Tile) (k : Nat) : Nat := (tabGet (0 : BitVec 8192) x.v k).toNat

/-- Write vector register k. -/
def Tile.setV (x : Tile) (k v : Nat) : Tile := { x with v := tabSet x.v k (BitVec.ofNat 8192 v), badV := setDel x.badV k }

/-- Mask register k: M0 reads as all ones (R292). -/
def Tile.mreg (x : Tile) (k : Nat) : Nat := if k = 0 then 2 ^ 1024 - 1 else (tabGet (0 : BitVec 1024) x.m k).toNat

/-- Write mask register k; M0 ignores writes (R292). -/
def Tile.setM (x : Tile) (k v : Nat) : Tile :=
  if k = 0 then x else { x with m := tabSet x.m k (BitVec.ofNat 1024 v), badM := setDel x.badM k }

/-! Flow. -/

/-- The sequencer after the word before `pc`: at the end of a loop body the next iteration starts, with its number in the
loop's scalar register, or the loop ends (R290). -/
def loopBack : List LoopFrame → Nat → Nat × List LoopFrame × List (Nat × Nat)
  | [], pc => (pc, [], [])
  | f :: fs, pc =>
    if pc = f.stop then
      if f.iter + 1 < f.count then (f.start, { f with iter := f.iter + 1 } :: fs, [(f.idx, f.iter + 1)])
      else loopBack fs pc
    else (pc, f :: fs, [])

/-- Move past the word at pc. -/
def Tile.advance (x : Tile) (r : Run) (now : Nat) : Tile :=
  let l := loopBack r.loops (r.pc + 1)
  let y := l.2.2.foldl (fun (y : Tile) w => y.setS w.1 w.2) x
  { y with run := some { r with pc := l.1, loops := l.2.1, progress := now } }

/-- OPCODE of an instruction word. -/
def opcodeOf (w : Nat) : Nat := bitsOf w 63 56

/-- Event data of a tile: tile, then more. -/
def tileData (t : Nat) (more : List Nat) : List Nat := t :: more

/-- A word that ends the kernel without commit, its fence receiving the error flag, not re-run (R344, R345). -/
def failTile (s : State) (p t : Nat) (r : Run) (code : Nat) (more : List Nat) : State :=
  failNode s p r.inst code (tileData t more)

/-- A Command-recoverable kill of the tile's kernel. -/
def killTile (s : State) (p t : Nat) (r : Run) (code : Nat) (more : List Nat) : State :=
  killNode s p r.inst code (tileData t more)

/-- SEQ_ILLEGAL (R344). -/
def illegal (s : State) (p t : Nat) (r : Run) : State := failTile s p t r 0x3240 [r.pc]

/-- SEQ_ADDRESS (R345). -/
def badAddress (s : State) (p t : Nat) (r : Run) : State := failTile s p t r 0x3241 [r.pc]

/-- Issue the word at the tile's pc where it carries opcode `op`: a parity error of the word kills the kernel (R343). A tile
that runs no kernel, has ended it, or stands at another word does not take this step (DESIGN CHOICE, log entry 2). -/
def issue (s : State) (p t op : Nat) (body : Tile → Run → Nat → State) : State :=
  let x := s.tile p t
  match x.run with
  | none => s
  | some r =>
    match r.image[r.pc]? with
    | none => s
    | some w =>
      if r.ended || opcodeOf w != op || (s.part p).frozen then s
      else if x.badImem.contains r.pc then killTile s p t r 0x3242 [r.pc]
      else body x r w

/-- Put back a tile that has done its word and moves on. -/
def finish (s : State) (p t : Nat) (x : Tile) (r : Run) : State := s.setTile p t (x.advance r (s.part p).count)

/-- Parity of the registers a word reads (R343): vectors, masks, scalars. M0 is no storage. -/
def Tile.regBad (x : Tile) (vs ms ss : List Nat) : Bool :=
  vs.any x.badV.contains || ms.any (fun k => k != 0 && x.badM.contains k) || ss.any x.badS.contains

/-- Kill for a register parity error, else go on. -/
def withRegs (s : State) (p t : Nat) (x : Tile) (r : Run) (vs ms ss : List Nat) (k : State) : State :=
  if x.regBad vs ms ss then killTile s p t r 0x3242 [r.pc] else k

/-- Event code of a bad line (R207, R208). -/
def LineErr.code : LineErr → Nat
  | .input => 0x2222
  | .parity => 0x3221
  | .poison => 0x3223

/-- The event and its handling when a unit other than the matrix array reads a bad line (R207, R208). The event's data are the tile,
the scratchpad and the line (DESIGN CHOICE, log entry 142). -/
def lineKill (s : State) (p t : Nat) (r : Run) (e : LineErr) (sp line : Nat) : State :=
  match e with
  | .input => failTile s p t r 0x2222 [sp, line]
  | .parity => killTile s p t r 0x3221 [sp, line]
  | .poison => killTile s p t r 0x3223 [sp, line]

/-- The same for a unit that reads several lines at once: each bad one is logged, and one that the kernel did not write forbids the
re-run (R207, R208, R306). -/
def linesKill (s : State) (p t : Nat) (r : Run) (es : List (LineErr × Nat)) (sp : Nat) : State :=
  let s1 := es.dropLast.foldl (fun s e => nodeEvent s p r.inst e.1.code [t, sp, e.2]) s
  let s2 := if es.any (·.1 == .input) then forbidRerun s1 p r.inst else s1
  match es.getLast? with
  | some e => lineKill s2 p t r e.1 sp e.2
  | none => s2

/-- Number of a scratchpad in event data: 1 WM, 2 AM, 3 PM as in SRC_SPACE. -/
def Spc.code : Spc → Nat
  | .wm => 1
  | .am => 2
  | .pm => 3

/-! Meanings. -/

/-- NOP (R298): every bit but OPCODE is reserved. -/
def execNop (p : Fin 8) (t : Fin 16) (s : State) : Host.Outcome State Fault Refusal :=
  next (issue s p t 0x00 fun x r w => if bitsOf w 55 0 != 0 then illegal s p t r else finish s p t x r)

/-- END (R296): waits for the queues, then ends the tile's part of the kernel and hands its results to the node. The conflicts of
the kernel's tiles are summed in its one record field, which saturates as each tile's counter does (R198; DEDUCED, log entry
123). -/
def execEndKernel (p : Fin 8) (t : Fin 16) (s : State) : Host.Outcome State Fault Refusal :=
  next (issue s p t 0x01 fun x r w =>
    if bitsOf w 55 0 != 0 then illegal s p t r
    else if x.mq ≠ [] || x.dq ≠ [] || x.kvq ≠ [] then s
    else
      let s1 := s.setTile p t { x with run := some { r with ended := true } }
      s1.modInst p r.inst fun i =>
        let done := setIns i.endedTiles t
        { i with endedTiles := done, astat := flagsOr i.astat r.astat, conflicts := min (i.conflicts + r.conflicts) 65535,
                 pubs := tabSet i.pubs t r.pubs, gnamed := tabSet i.gnamed t r.gnamed,
                 greleased := tabSet i.greleased t r.greleased, ended := i.tiles.all done.contains })

/-- LOOP (R290, R291, R298): enters the loop with iteration 0 in IDX_SREG. -/
def execLoop (p : Fin 8) (t : Fin 16) (s : State) : Host.Outcome State Fault Refusal :=
  next (issue s p t 0x02 fun x r w =>
    let body := bitsOf w 31 16
    let count := bitsOf w 15 0
    let idx := bitsOf w 36 32
    let stop := r.pc + 1 + body
    let lim := match r.loops with
      | f :: _ => f.stop
      | [] => r.image.length
    if bitsOf w 55 37 != 0 || body == 0 || count == 0 || 4 ≤ r.loops.length || lim < stop then illegal s p t r
    else
      let f : LoopFrame := { start := r.pc + 1, stop, count, iter := 0, idx }
      s.setTile p t { x.setS idx 0 with run := some { r with pc := r.pc + 1, loops := f :: r.loops,
                                                              progress := (s.part p).count } })

/-- SLI (R298). -/
def execSli (p : Fin 8) (t : Fin 16) (s : State) : Host.Outcome State Fault Refusal :=
  next (issue s p t 0x03 fun x r w =>
    if bitsOf w 55 37 != 0 then illegal s p t r else finish s p t (x.setS (bitsOf w 36 32) (bitsOf w 31 0)) r)

/-- The result of SALU.FN (R297, R298): 32-bit two's complement, wrapping; shifts by bits [4:0]. -/
def saluFn (fn a b : Nat) : Nat :=
  match fn with
  | 0 => (a + b) % 2 ^ 32
  | 1 => (a + 2 ^ 32 - b) % 2 ^ 32
  | 2 => a * b % 2 ^ 32
  | 3 => Nat.land a b
  | 4 => Nat.lor a b
  | 5 => Nat.xor a b
  | 6 => a * 2 ^ (b % 32) % 2 ^ 32
  | 7 => a / 2 ^ (b % 32)
  | _ => uNat 32 (sInt 32 a / 2 ^ (b % 32))

/-- SALU (R297, R298). -/
def execSalu (p : Fin 8) (t : Fin 16) (s : State) : Host.Outcome State Fault Refusal :=
  next (issue s p t 0x04 fun x r w =>
    let fn := bitsOf w 47 44
    let imm := bitOf w 43
    let sa := bitsOf w 37 33
    let sb := bitsOf w 32 28
    if bitsOf w 55 48 != 0 || 9 ≤ fn then illegal s p t r
    else withRegs s p t x r [] [] (if imm then [sa] else [sa, sb])
      (finish s p t (x.setS (bitsOf w 42 38) (saluFn fn (x.sreg sa) (if imm then bitsOf w 27 0 else x.sreg sb))) r))

/-- Reserved bits of SLD and SST: [55:43] and [31:21] (R298). -/
def sldReserved (w : Nat) : Bool := bitsOf w 55 43 != 0 || bitsOf w 31 21 != 0

/-- The scratchpad that a SPACE bit names: 0 AM, 1 PM. -/
def spaceBit (b : Bool) : Spc := if b then .pm else .am

/-- SLD (R298, R345): a 32-bit load. The address does not wrap (DESIGN CHOICE, log entry 145). -/
def execSld (p : Fin 8) (t : Fin 16) (s : State) : Host.Outcome State Fault Refusal :=
  next (issue s p t 0x05 fun x r w =>
    let sp := spaceBit (bitOf w 37)
    let sb := bitsOf w 36 32
    let a := x.sreg sb + bitsOf w 20 0
    if sldReserved w then illegal s p t r
    else withRegs s p t x r [] [] [sb]
      (if a % 4 != 0 || Spc.size sp < a + 4 then badAddress s p t r
       else
        match (x.spad sp).readErr a 4 with
        | some e => lineKill s p t r e (Spc.code sp) (a / 64)
        | none => finish s p t (x.setS (bitsOf w 42 38) (memWord (x.spad sp).bytes a)) r))

/-- SST (R298, R345): a 32-bit store, merged into its line (R192). The address does not wrap (DESIGN CHOICE, log entry 145). -/
def execSst (p : Fin 8) (t : Fin 16) (s : State) : Host.Outcome State Fault Refusal :=
  next (issue s p t 0x06 fun x r w =>
    let sp := spaceBit (bitOf w 37)
    let sb := bitsOf w 36 32
    let sd := bitsOf w 42 38
    let a := x.sreg sb + bitsOf w 20 0
    if sldReserved w then illegal s p t r
    else withRegs s p t x r [] [] [sb, sd]
      (if a % 4 != 0 || Spc.size sp < a + 4 then badAddress s p t r
       else
        match (x.spad sp).mergeErr a 4 with
        | some e => lineKill s p t r e (Spc.code sp) (a / 64)
        | none => finish s p t (x.setSpad sp ((x.spad sp).write a (natLe 4 (x.sreg sd)) false)) r))

/-- Opcodes that R299 reserves. -/
def reservedOpcode (op : Nat) : Bool :=
  (0x07 ≤ op && op ≤ 0x0F) || (0x25 ≤ op && op ≤ 0x2F) || (0x35 ≤ op && op ≤ 0x37) || op == 0x3B ||
  (0x3D ≤ op && op ≤ 0x3F) || op == 0x47 || (0x4B ≤ op && op ≤ 0x4F) || 0x53 ≤ op

/-- A reserved opcode ends the kernel with SEQ_ILLEGAL (R299, R344). -/
def execReservedOpcode (p : Fin 8) (t : Fin 16) (s : State) : Host.Outcome State Fault Refusal :=
  next (match (s.tile p t).run with
    | none => s
    | some r =>
      match r.image[r.pc]? with
      | none => s
      | some w =>
        if r.ended || !reservedOpcode (opcodeOf w) || (s.part p).frozen then s
        else if (s.tile p t).badImem.contains r.pc then killTile s p t r 0x3242 [r.pc]
        else illegal s p t r)

/-- A program past its last word (R1110). -/
def execImageOverrun (p : Fin 8) (t : Fin 16) (s : State) : Host.Outcome State Fault Refusal :=
  next (match (s.tile p t).run with
    | none => s
    | some r => if !r.ended && !(s.part p).frozen && r.image.length ≤ r.pc then illegal s p t r else s)

end Sys2Proof.Machine
end

