-- ==== Sys2Proof/Machine/Fabric.lean ====
section
/-! DEFINITION. The Dunxon fabric and the topology behind it: the cabling plan, routes, packets and flits, the destination
actions, and what a transmitter and a receiver do (chapters 16 and 17). -/

namespace Sys2Proof.Machine

/-! The cabling plan (R823 to R833). -/

/-- The 32-bit word at byte o of a record. -/
def recW (b : List Byte) (o : Nat) : Nat := leNat ((b.drop o).take 4)

/-- CX, CY or CZ: cubes of the torus along axis a. -/
def planDim (b : List Byte) (a : Nat) : Nat := recW b 0x0C / 2 ^ (16 - 8 * a) % 256

/-- Cube c belongs to the torus. -/
def planHas (b : List Byte) (c : Nat) : Bool := bitOf (recW b (0x40 + 4 * c)) 31

/-- Grid position of cube c on axis a. -/
def planCube (b : List Byte) (c a : Nat) : Nat := recW b (0x40 + 4 * c) / 2 ^ (14 - 7 * a) % 128

/-- Position in its cube on axis a (R823). -/
def cubePos (id a : Nat) : Nat := id / 4 ^ a % 4

/-- Torus coordinate on axis a (R824). -/
def coordOf (b : List Byte) (id a : Nat) : Nat := 4 * planCube b (id / 64) a + cubePos id a

/-- Ring length of axis a (R824). -/
def ringLen (b : List Byte) (a : Nat) : Nat := 4 * planDim b a

/-- Bounds of a cuboid slice on axis a: lower and upper (R826, R831). -/
def sliceBounds (b : List Byte) (a : Nat) : Nat × Nat :=
  let w := recW b 0x10
  (w / 2 ^ (22 - 4 * a) % 4, w / 2 ^ (20 - 4 * a) % 4)

/-- SLICE_KIND is cuboid. -/
def planCuboid (b : List Byte) : Bool := bitOf (recW b 0x10) 31

/-- MODULE_ID of a plan. -/
def planId (b : List Byte) : Nat := recW b 0x08 % 2 ^ 13

/-- The expected neighbour of port k, none where EXPECT_VALID is 0. -/
def planExpect (b : List Byte) (k : Nat) : Option (Nat × Nat) :=
  let w := recW b (0x18 + 4 * k)
  if bitOf w 31 then some (bitsOf w 28 16, bitsOf w 2 0) else none

/-- WAIVE of port k. -/
def planWaive (b : List Byte) (k : Nat) : Bool := bitOf (recW b (0x18 + 4 * k)) 30

/-- ABSENT_LIMIT_S in seconds. -/
def planLimit (b : List Byte) : Nat := let v := bitsOf (recW b 0x08) 31 16; if v = 0 then 120 else v

/-- The member test of a plan's slice (R827); `me` is the module's own identifier. -/
def sliceHas (b : List Byte) (me id : Nat) : Bool :=
  if planCuboid b then
    id / 64 == me / 64 && [0, 1, 2].all fun a =>
      (sliceBounds b a).1 ≤ cubePos id a && cubePos id a ≤ (sliceBounds b a).2
  else planHas b (id / 64)

/-- The module that lies at grid coordinates, as its identifier, none where no valid cube lies there. -/
def idAt (b : List Byte) (x y z : Nat) : Option Nat :=
  match (List.range 128).find? fun c =>
    planHas b c && planCube b c 0 == x / 4 && planCube b c 1 == y / 4 && planCube b c 2 == z / 4 with
  | some c => some (64 * c + 16 * (z % 4) + 4 * (y % 4) + x % 4)
  | none => none

/-- The neighbour that R825 gives port k of module `me`: identifier and port. -/
def neighbourOf (b : List Byte) (me k : Nat) : Option (Nat × Nat) :=
  let a := k / 2
  let step (i : Nat) : Nat :=
    let c := coordOf b me i
    let l := ringLen b i
    if i = a then (if k % 2 = 0 then (c + 1) % l else (c + l - 1) % l) else c
  match idAt b (step 0) (step 1) (step 2) with
  | some id => some (id, 2 * a + (1 - k % 2))
  | none => none

/-- The offset of the first field that makes a plan invalid, none for a valid plan (R832). -/
def planFault (b : List Byte) : Option Nat :=
  let w := recW b
  let me := planId b
  let cubes := (List.range 128).filter (planHas b)
  let pos (c : Nat) : List Nat := [0, 1, 2].map (planCube b c)
  if b.length ≠ 580 then some 0
  else if bitsOf (w 0) 31 8 ≠ 0x545001 || bitsOf (w 0) 7 0 ≠ 0 then some 0
  else if crc32c (b.take 0x240) ≠ w 0x240 then some 0x240
  else if bitsOf (w 8) 15 13 ≠ 0 then some 8
  else if (let v := bitsOf (w 8) 31 16; v ≠ 0 && (v < 30 || 600 < v)) then some 8
  else if bitsOf (w 0xC) 31 24 ≠ 0 then some 0xC
  else if [0, 1, 2].any (fun a => planDim b a == 0) || 128 < planDim b 0 * planDim b 1 * planDim b 2 then some 0xC
  else if bitsOf (w 0x10) 30 24 ≠ 0 || bitsOf (w 0x10) 11 0 ≠ 0 || (!planCuboid b && w 0x10 != 0) then some 0x10
  else if w 0x14 ≠ 0 then some 0x14
  else if !planHas b (me / 64) then some 8
  else if planCuboid b && [0, 1, 2].any (fun a =>
      (sliceBounds b a).2 < (sliceBounds b a).1 || cubePos me a < (sliceBounds b a).1 ||
      (sliceBounds b a).2 < cubePos me a) then some 0x10
  else
    match (List.range 6).find? fun k =>
      let e := w (0x18 + 4 * k)
      bitOf e 29 || bitsOf e 15 3 != 0 || (!bitOf e 31 && !bitOf e 30) ||
      (bitOf e 31 && planExpect b k != neighbourOf b me k) with
    | some k => some (0x18 + 4 * k)
    | none =>
      match [0x30, 0x34, 0x38, 0x3C].find? fun o => w o != 0 with
      | some o => some o
      | none =>
        match (List.range 128).find? fun c =>
          bitsOf (w (0x40 + 4 * c)) 30 21 != 0 ||
          (planHas b c && [0, 1, 2].any fun a => planDim b a ≤ planCube b c a) ||
          (planHas b c && cubes.any fun d => d < c && pos d == pos c) with
        | some c => some (0x40 + 4 * c)
        | none => if cubes.length ≠ planDim b 0 * planDim b 1 * planDim b 2 then some 0xC else none

/-- Whether a module identifier lies in the module's slice (R827, R833). -/
def State.inSlice (s : State) (id : Nat) : Bool :=
  match s.plan with
  | none => id == s.moduleId
  | some b => sliceHas b s.moduleId id

/-- The port of the next hop from this module to module `dst` (R781): X, then Y, then Z, the shorter way round, + on a tie;
none at the destination itself or where the plan knows no such module. -/
def State.routePort (s : State) (dst : Nat) : Option Nat :=
  match s.plan with
  | none => none
  | some b =>
    if !planHas b (dst / 64) then none
    else [0, 1, 2].findSome? fun a =>
      let l := ringLen b a
      let d := (coordOf b dst a + l - coordOf b s.moduleId a) % l
      if d = 0 then none else if 2 * d ≤ l then some (2 * a) else some (2 * a + 1)

/-- Whether port k may carry traffic: UP, and not a waived port without MATCH (R784, R803, R842). -/
def State.portUsable (s : State) (k : Nat) : Bool :=
  (s.port k).st == .up && !((s.port k).waived && (s.port k).check != 1)

/-- The virtual channel of a packet that leaves through port `out`, having arrived through `arr` on `vc` (R775). -/
def State.nextVc (s : State) (arr vc out : Nat) : Nat :=
  if arr / 2 ≠ out / 2 then 0
  else
    let a := arr / 2
    match s.plan with
    | none => 0
    | some b =>
      let c := coordOf b s.moduleId a
      let crossed := if arr % 2 = 1 then c == 0 else c + 1 == ringLen b a
      if vc = 1 || crossed then 1 else 0

/-! Packets (R777). -/

end Sys2Proof.Machine

namespace Sys2Proof

open Sys2Proof.Machine

/-- Bytes of packet stream of a packet. -/
def Packet.size (q : Packet) : Nat := 24 + 4 * q.len

/-- Buffer class (R771). -/
def Packet.cls (q : Packet) : Nat := if 3 ≤ q.ptype then 8 + q.vc else 2 * q.tc + q.vc

/-- Credits of a packet (R772, R773). -/
def Packet.units (q : Packet) : Nat := (q.size + 63) / 64

/-- ADDR of a WRITE or ADD. -/
def Packet.addr (q : Packet) : Nat := q.addrHi * 2 ^ 32 + q.addrLo

/-- The operand of a SIGNAL. -/
def Packet.operand (q : Packet) : Nat := q.addrLo + 2 ^ 32 * q.low + 2 ^ 48 * q.rtag

/-- The six header words. -/
def Packet.words (q : Packet) : List Nat :=
  [ q.ptype * 2 ^ 28 + q.tc * 2 ^ 26 + q.vc * 2 ^ 25 + q.dstDie * 2 ^ 21 + q.dstSpace * 2 ^ 19 + q.destModule,
    q.srcModule * 2 ^ 19 + q.txn,
    q.destCtx * 2 ^ 26 + q.srcCtx * 2 ^ 20 + q.srcEpoch * 2 ^ 12 + q.len,
    q.dstTile * 2 ^ 28 + q.op * 2 ^ 24 + q.status * 2 ^ 16 + q.addrHi,
    q.addrLo,
    q.rtag * 2 ^ 16 + q.low ]

/-- Header and data as bytes. -/
def Packet.bytes (q : Packet) : List Byte := wordsBytes q.words ++ q.data

/-- Data bytes that follow a header. -/
def Packet.dataLen (q : Packet) : Nat := if q.ptype ≤ 1 then 4 * q.len else 0

end Sys2Proof

namespace Sys2Proof.Machine

/-- The packet of six header words and its data. -/
def packetOf (w : List Nat) (data : List Byte) : Packet :=
  { ptype := bitsOf (wd w 0) 31 28, tc := bitsOf (wd w 0) 27 26, vc := bitsOf (wd w 0) 25 25,
    dstDie := bitsOf (wd w 0) 23 21, dstSpace := bitsOf (wd w 0) 20 19, destModule := bitsOf (wd w 0) 12 0,
    srcModule := bitsOf (wd w 1) 31 19, txn := bitsOf (wd w 1) 11 0,
    destCtx := bitsOf (wd w 2) 31 26, srcCtx := bitsOf (wd w 2) 25 20, srcEpoch := bitsOf (wd w 2) 19 12,
    len := bitsOf (wd w 2) 10 0,
    dstTile := bitsOf (wd w 3) 31 28, op := bitsOf (wd w 3) 27 24, status := bitsOf (wd w 3) 23 16,
    addrHi := bitsOf (wd w 3) 15 0, addrLo := wd w 4 % 2 ^ 32,
    rtag := bitsOf (wd w 5) 31 16, low := bitsOf (wd w 5) 15 0, data }

/-- Take the packets of a byte stream; the bytes of a packet that has not wholly arrived remain. A header that no packet can
have, PTYPE 5–15 or a WRITE or ADD of LEN 0, ends the flit's packets (DESIGN CHOICE, log entry 18). -/
def takePackets : Nat → List Byte → List Packet × List Byte
  | 0, b => ([], b)
  | k + 1, b =>
    if b.length < 24 then ([], b)
    else
      let q := packetOf (bytesWords 6 b) []
      if 5 ≤ q.ptype || (q.ptype ≤ 1 && q.len == 0) then ([], [])
      else
        let n := 24 + q.dataLen
        if b.length < n then ([], b)
        else
          let r := takePackets k (b.drop n)
          ({ q with data := (b.drop 24).take q.dataLen } :: r.1, r.2)

/-- The ACK of packet q with a status (R779). -/
def State.ackOf (s : State) (q : Packet) (status : Nat) : Packet :=
  { ptype := 3, destModule := q.srcModule, srcModule := s.moduleId, txn := q.txn, destCtx := q.srcCtx,
    srcEpoch := q.srcEpoch, status }

/-! Destination actions (R780, R790 to R795). -/

/-- The key of R794: source module, source die and traffic class. -/
def failKey (q : Packet) (n : Nat) : Nat := 8 * (8 * q.srcModule + n) + q.tc

/-- The partitions that hold the bytes of a DVA range. -/
def partsOf (s : State) (c v a n : Nat) : List Nat :=
  (pieces a n).foldl (fun l x =>
    match translate s c v x.1 false with
    | .ok (p, _) => setIns l p
    | .error _ => l) []

/-- The scratchpad of a DST_SPACE or SRC_SPACE. -/
def spcOf (k : Nat) : Spc := if k = 1 then .wm else if k = 2 then .am else .pm

/-- The checks of R780 in their order: the ACK status, 0 where all pass. DEDUCED, log entry 39. -/
def arriveCheck (s : State) (q : Packet) : Nat :=
  let x := s.ctx q.destCtx
  if !s.inSlice q.srcModule then 8
  else if q.destCtx = 0 || x.st ≠ .open || q.status ≠ x.epoch then 1
  else if q.ptype = 2 then (if 512 * x.parts.length ≤ q.addrHi % 4096 then 7 else 0)
  else if q.dstSpace = 0 then
    if (partsOf s q.destCtx x.mapVer q.addr q.data.length).any fun p => !(s.part p).inService then 3
    else if !x.parts.contains q.dstDie then 2
    else if (checkRange s q.dstDie q.destCtx x.mapVer q.addr q.data.length true).isSome then 2
    else 0
  else if !(s.part q.dstDie).inService then 3
  else if !x.parts.contains q.dstDie then 2
  else if Spc.size (spcOf q.dstSpace) < q.addr + q.data.length then 2
  else 0

/-- The sums of two lists of FP32 or BF16 elements, each rounded once to nearest even (R792). -/
def addElems (bf : Bool) : Nat → List Byte → List Byte → List Byte
  | 0, _, _ => []
  | n + 1, a, b =>
    let w := if bf then 2 else 4
    natLe w (fAdd (if bf then bf16 else fp32) 0 (leNat (a.take w)) (leNat (b.take w))) ++
      addElems bf n (a.drop w) (b.drop w)

/-- Element-wise sum of as many elements as the second list holds. -/
def addBytes (bf : Bool) (a b : List Byte) : List Byte := addElems bf (b.length / (if bf then 2 else 4)) a b

/-- Lines of a scratchpad that a fabric access reads: all of them for an ADD, those written in part for a WRITE (R192, R792). -/
def fabricReads (q : Packet) : List Nat :=
  (linesOf q.addr q.data.length).filter fun l => q.ptype == 1 || !covers q.addr q.data.length l

/-- A parity error or poison that a fabric access meets in a scratchpad is logged and stops the tile's kernel (R201, R207, R208);
with no kernel on the tile it is logged alone. -/
def fabricLineKill (s : State) (q : Packet) (e : LineErr) (line : Nat) : State :=
  match (s.tile q.dstDie q.dstTile).run with
  | some r => lineKill s q.dstDie q.dstTile r e q.dstSpace line
  | none =>
    let code := match e with | .input => 0x2222 | .parity => 0x3221 | .poison => 0x3223
    logEvent s { code, ctx := q.destCtx, part := some q.dstDie, data := [q.dstTile, q.dstSpace, line] }

/-- Write the new bytes of a fabric access into a scratchpad; a line that it read bad stays poisoned (R792, R793; DEDUCED, log
entry 131). -/
def fabricStore (d : Spad) (q : Packet) (bs : List Byte) : Spad :=
  let bad := (fabricReads q).filter fun l => (d.lineErr l).isSome
  let d1 := d.writeFabric q.addr bs
  { d1 with poison := setInsAll d1.poison bad }

/-- Apply a WRITE or ADD that has passed its checks. A poisoned line that an ADD meets stays poisoned (R793); scratchpad lines
lose their kernel-written bit (R791). -/
def applyData (s : State) (q : Packet) : State :=
  let x := s.ctx q.destCtx
  let bf := q.op == 1
  if q.dstSpace = 0 then
    let r := if q.ptype = 1 then
        match readDva s q.dstDie q.destCtx x.mapVer q.addr q.data.length 17 with
        | .ok (old, s1) =>
          ((List.zip (addBytes bf (old.map (·.1)) q.data) (old.map (·.2))), s1)
        | .error (_, s1) => ([], s1)
      else (good q.data, s)
    match writeDva r.2 q.dstDie q.destCtx x.mapVer q.addr r.1 with
    | .ok s1 => s1
    | .error _ => r.2
  else
    let t := s.tile q.dstDie q.dstTile
    let sp := spcOf q.dstSpace
    let d := t.spad sp
    let bs := if q.ptype = 1 then addBytes bf (memRead d.bytes q.addr q.data.length) q.data else q.data
    let s1 := match (fabricReads q).find? fun l => (d.lineErr l).isSome with
      | some l => match d.lineErr l with | some e => fabricLineKill s q e l | none => s
      | none => s
    let t1 := s1.tile q.dstDie q.dstTile
    s1.setTile q.dstDie q.dstTile (t1.setSpad sp (fabricStore (t1.spad sp) q bs))

/-- Data of a fabric event (R822): port and lane pair, ACK status, other module and context, segment and node index. Port 6 stands
for the module's own dies. -/
def fabData (k n st m c node : Nat) : List Nat := [k + 65536 * n, st, m + 65536 * c, node]

/-- Log FAB_ARRIVAL_REJECTED: the module answers a packet that has come on lane pair n of port k with another status than OK. -/
def arrivalRejected (s : State) (k n : Nat) (q : Packet) (st : Nat) : State :=
  logEvent s { code := 0x12C3, data := fabData k n st q.srcModule q.srcCtx 0 }

/-- Deliver a WRITE, ADD or SIGNAL that has come to this module on lane pair n of port k (R780, R790 to R795): the state and the status.
A failed WRITE or ADD makes every later SIGNAL of its source and class an ERROR (R794; DEDUCED, log entry 19). -/
def deliver (s : State) (k n : Nat) (q : Packet) : State × Nat :=
  let st := arriveCheck s q
  let reject (s : State) (st : Nat) : State :=
    let s1 := arrivalRejected s k n q st
    let x := s1.ctx q.destCtx
    if st = 1 && (x.st == .free || q.status != x.epoch) then logEvent s1 { code := 0x1290, data := [q.destCtx, q.status] }
    else s1
  if st ≠ 0 then
    let s1 := if q.ptype = 2 then s else { s with fabFail := setIns s.fabFail (failKey q n) }
    (reject s1 st, st)
  else if q.ptype = 2 then
    let bad := s.fabFail.contains (failKey q n)
    let f := q.addrHi % 4096
    let w := fenceApply (fenceWord s q.destCtx f) (if bad then 2 else q.op) q.operand
    let s1 := setFence s q.destCtx f w
    if bad then (reject s1 9, 9) else (s1, 0)
  else (applyData s q, 0)

/-! Transmission (R763 to R776). -/

/-- Grant of a class (R772). -/
def classGrant (c : Nat) : Nat := if c < 8 then 256 else 64

/-- The first waiting packet of a source and class set. -/
def findTx (l : List (Nat × Packet)) (f : Nat × Packet → Bool) : Option Nat := l.findIdx? f

/-- Packets that may start: their class holds credits for the whole packet (R773), and nothing of the same source and class
waits before them. -/
def startable (l : LanePair) (i : Nat) : Bool :=
  match l.txq[i]? with
  | none => false
  | some e =>
    e.2.units ≤ tabGet 0 l.credits e.2.cls &&
      !(l.txq.take i).any fun x => x.1 == e.1 && x.2.cls == e.2.cls

/-- The class of a packet for the transmitter: TC0 to TC3, 4 for ACK and ABORT (R776). -/
def classTurn (q : Packet) : Nat := if q.ptype ≤ 2 then q.tc else 4

/-- The packet of a class whose source has the next turn in round robin (R776). -/
def pickSrc (l : LanePair) (c : Nat) : Option Nat :=
  [1, 2, 3, 4, 5, 6, 7].findSome? fun d =>
    let src := (tabGet 6 l.lastSrc c + d) % 7
    (List.range l.txq.length).find? fun i =>
      startable l i && match l.txq[i]? with | some e => e.1 == src && classTurn e.2 == c | none => false

/-- The packet that the transmitter serves next (R776): ACK and ABORT, then TC1, then TC0, TC2 and TC3 in round robin. -/
def pickTx (l : LanePair) : Option Nat :=
  ([4, 1] ++ if l.lastTc = 0 then [2, 3, 0] else if l.lastTc = 2 then [3, 0, 2] else [0, 2, 3]).findSome? (pickSrc l)

/-- Take packets to send, in order, while credits last and the replay buffer has room for their flits (R766, R773). -/
def takeTx : Nat → LanePair → Nat → List (Nat × Packet) × LanePair
  | 0, l, _ => ([], l)
  | k + 1, l, bytes =>
    match pickTx l with
    | none => ([], l)
    | some i =>
      match l.txq[i]? with
      | none => ([], l)
      | some e =>
        let b := bytes + e.2.size
        if 512 < l.replay.length + (b + 241) / 242 then ([], l)
        else
          let l1 := { l with
            txq := l.txq.eraseIdx i
            credits := tabMod 0 l.credits e.2.cls (· - e.2.units)
            lastTc := if e.2.ptype ≤ 2 && e.2.tc != 1 then e.2.tc else l.lastTc
            lastSrc := tabSet l.lastSrc (classTurn e.2) e.1 }
          let r := takeTx k l1 b
          (e :: r.1, r.2)

/-- The offset in payload area f of the first header that starts there, 0xFF for none. -/
def firstHdr (starts : List Nat) (f : Nat) : Nat :=
  match starts.find? fun o => 242 * f ≤ o && o < 242 * f + 242 with
  | some o => o - 242 * f
  | none => 0xFF

/-- Up to two credit returns that are owed: class and count (R763). -/
def creditReturns (owed : Tab Nat) : List (Nat × Nat) :=
  ((owed.filter fun e => 0 < e.2).take 2).map fun e => (e.1, min e.2 255)

/-- The word of credit returns. -/
def creditWord (cr : List (Nat × Nat)) : Nat :=
  match cr with
  | [] => 0
  | [a] => 2 ^ 31 + a.1 * 2 ^ 27 + a.2 * 2 ^ 19
  | a :: b :: _ => 2 ^ 31 + a.1 * 2 ^ 27 + a.2 * 2 ^ 19 + 2 ^ 18 + b.1 * 2 ^ 14 + b.2 * 2 ^ 6

/-- A flit of a type, 0 IDLE or 1 STREAM (R763). -/
def mkFlit (ty seq ack : Nat) (nak : Bool) (cr : List (Nat × Nat)) (hdr : Nat) (pay : List Byte) : List Byte :=
  let body := natLe 4 (ty * 2 ^ 28 + seq * 2 ^ 16 + ack * 2 ^ 4 + (if nak then 8 else 0)) ++ natLe 4 (creditWord cr) ++
    natLe 2 (hdr * 256) ++ (pay ++ List.replicate (242 - pay.length) 0).take 242
  body ++ natLe 4 (crc32c body)

/-- Put a byte stream into flits of a lane pair, numbered on and kept for replay (R764, R766). -/
def emit : Nat → LanePair → List Byte → List Nat → Nat → LanePair
  | 0, l, _, _, _ => l
  | k + 1, l, b, starts, f =>
    if b = [] then l
    else
      let cr := creditReturns l.owed
      let owed := cr.foldl (fun t e => tabMod 0 t e.1 (· - e.2)) l.owed
      let fl := mkFlit 1 l.txSeq ((l.rxSeq + 4095) % 4096) false cr (firstHdr starts f) (b.take 242)
      emit k { l with txSeq := (l.txSeq + 1) % 4096, replay := l.replay ++ [(l.txSeq, fl)], owed } (b.drop 242) starts (f + 1)

/-- Flits leave lane pair n of port k. -/
def sendFlits (s : State) (k n : Nat) (fs : List (List Byte)) : State := { s with flitOut := s.flitOut ++ fs.map fun f => (k, n, f) }

/-- Lane pair n of port k sends flits: its port is UP and it does not retrain. -/
def laneSends (s : State) (k n : Nat) : Bool := (s.port k).st == .up && !(s.lp k n).retraining

/-- An IDLE flit of lane pair n of port k: what it acknowledges, a NAK or not, and up to two credit returns (R763 to R765). -/
def idleFlit (s : State) (k n : Nat) (nak : Bool) : State :=
  if !laneSends s k n then s
  else
    let l := s.lp k n
    let cr := creditReturns l.owed
    let owed := cr.foldl (fun t e => tabMod 0 t e.1 (· - e.2)) l.owed
    sendFlits (s.setLp k n { l with owed }) k n [mkFlit 0 l.txSeq ((l.rxSeq + 4095) % 4096) nak cr 0xFF []]

/-- Return the credits that lane pair n of port k owes, in IDLE flits (R764; DESIGN CHOICE, log entry 18). -/
def returnCredits : Nat → State → Nat → Nat → State
  | 0, s, _, _ => s
  | f + 1, s, k, n => if (s.lp k n).owed.any (0 < ·.2) && laneSends s k n then returnCredits f (idleFlit s k n false) k n else s

/-- Offsets at which packets start in their common stream. -/
def startsOf : List Packet → Nat → List Nat
  | [], _ => []
  | q :: l, o => o :: startsOf l (o + q.size)

/-- Send what lane pair n of port k can send: count FP_TX_BYTES and FP_FWD_BYTES (R821). -/
def pump (s : State) (k n : Nat) : State :=
  let l := s.lp k n
  if !laneSends s k n then s
  else
    let r := takeTx l.txq.length l 0
    if r.1 = [] then s
    else
      let b := r.1.flatMap (·.2.bytes)
      let l1 := emit (b.length / 242 + 1) r.2 b (startsOf (r.1.map (·.2)) 0) 0
      let l2 := if l.replay = [] then { l1 with lastAck := s.hub } else l1
      let own := (r.1.filter (·.1 == 6)).foldl (fun a e => a + e.2.size) 0
      let fwd := (r.1.filter (·.1 != 6)).foldl (fun a e => a + e.2.size) 0
      let s1 := sendFlits (s.setLp k n l2) k n ((l2.replay.drop l.replay.length).map (·.2))
      let P := s1.port k
      s1.setPort k { P with txBytes := (P.txBytes + own) % 2 ^ 64, fwdBytes := (P.fwdBytes + fwd) % 2 ^ 64 }

/-- Queue a packet of source `src` on lane pair n of port k and send what can be sent. DEDUCED, log entry 44. -/
def txFrom (s : State) (k n src : Nat) (q : Packet) : State :=
  let l := s.lp k n
  pump (s.setLp k n { l with txq := l.txq ++ [(src, q)] }) k n

/-- Send an ACK from this module toward its destination on lane pair n, for the die that issued the packet, whose index the lane
pair has (R779, R782); with no usable route it is lost. -/
def sendAck (s : State) (n : Nat) (q : Packet) : State :=
  match s.routePort q.destModule with
  | some k => if s.portUsable k then txFrom s k n 6 { q with dstDie := n } else s
  | none => s

/-! Source actions (R778, R785, R796 to R803). -/

/-- The pieces of a transfer: offset and length, at most 4,096 bytes, none crossing a 4,096-byte boundary of the destination
(R778). -/
def splitAt4k (dst n : Nat) : List (Nat × Nat) :=
  if n = 0 then []
  else (List.range ((dst + n - 1) / 4096 - dst / 4096 + 1)).map fun i =>
    let a := max dst (4096 * (dst / 4096 + i))
    (a - dst, min (dst + n) (4096 * (dst / 4096 + i + 1)) - a)

/-- A transfer of n bytes to address `dst` that no packets can carry (R777, R778): a piece whose length is no multiple of 4 bytes, or of
64 for an ADD (DESIGN CHOICE, log entry 150). -/
def badPieces (dst n : Nat) (add : Bool) : Bool := (splitAt4k dst n).any fun x => x.2 % (if add then 64 else 4) != 0

/-- A transaction number that is free. -/
def freeTxn (t : Tab Txn) (start : Nat) : Nat :=
  ((List.range 4096).map fun i => (start + i) % 4096).find? (fun x => (tabFind t x).isNone) |>.getD (start % 4096)

/-- What sending one packet did: the state, an outstanding transaction, and the status where it is already known. -/
structure Sent where
  s : State
  txn : Option Nat := none
  status : Nat := 0
deriving DecidableEq, Repr

/-- Count the data of a packet to the module itself: what crosses to another die or to the stacks of another partition (R607). -/
def chargeSelf (s : State) (p : Nat) (q : Packet) : State :=
  if 2 ≤ q.ptype then s
  else if q.dstSpace = 0 then chargeHbm s p q.destCtx (s.ctx q.destCtx).mapVer q.addr q.data.length
  else if q.dstDie = p then s
  else charge s p 1 q.data.length

/-- Note bits of FP_ERR_STATUS. -/
def noteErr (s : State) (k bit : Nat) : State :=
  let P := s.port k
  s.setPort k { P with errStatus := Nat.lor P.errStatus (2 ^ bit) }

/-- Send a packet of instance `inst` from die p: to the module itself over the package mesh (R785), else on lane pair p of
the route's first port, its data counted on the port's regulator (R607, R608). -/
def sendPacket (s : State) (p inst : Nat) (copy : Bool) (i : Inst) (q0 : Packet) : Sent :=
  let P := s.part p
  let id := freeTxn P.txns P.nextTxn
  let ep := (s.ctx i.ctx).epoch
  let q := { q0 with srcModule := s.moduleId, txn := id, srcCtx := i.ctx, srcEpoch := ep }
  if q.destModule = s.moduleId then
    let r := deliver (chargeSelf s p q) 6 p q
    ⟨r.1, none, r.2⟩
  else
    match s.routePort q.destModule with
    | none => ⟨s, none, 4⟩
    | some k =>
      if !s.portUsable k then ⟨noteErr s k 29, none, 4⟩
      else
        let s1 := s.setPart p { P with nextTxn := (id + 1) % 4096,
                                       txns := tabSet P.txns id ⟨inst, i.ctx, ep, copy, P.count⟩ }
        let s2 := if q.ptype ≤ 1 then charge s1 p (2 + k) q.data.length else s1
        ⟨txFrom s2 k p 6 q, some id, 0⟩

/-- How many of the packets find a free transaction number of die p; those to the module itself need none (R779, R785). -/
def sendable (s : State) (p : Nat) (qs : List Packet) : Nat :=
  if qs.all (·.destModule == s.moduleId) then qs.length else 4096 - (s.part p).txns.length

/-- The packets that wait for a free transaction number. DEDUCED, log entry 136. -/
def unsentOf (s : State) (p : Nat) (qs : List Packet) : List Packet := qs.drop (sendable s p qs)

/-- Send those packets that find a transaction number, in order: the outstanding transactions and whether a status other than OK is known. -/
def sendAll (s : State) (p inst : Nat) (copy : Bool) (i : Inst) (qs : List Packet) : State × List Nat × List Nat :=
  (qs.take (sendable s p qs)).foldl (fun a q =>
    let r := sendPacket a.1 p inst copy i q
    (r.s, a.2.1 ++ r.txn.toList, if r.status = 0 then a.2.2 else a.2.2 ++ [r.status])) (s, [], [])

/-! Arms (R804 to R810). -/

/-- Whether two byte ranges meet. -/
def overlap (a n b m : Nat) : Bool := a < b + m && b < a + n

/-- Live arms of a die, cancelled ones included. -/
def liveArms (P : Part) : List (Nat × Arm) := P.arms.filter fun e => e.2.live

/-- Whether arm x may become live (R809). -/
def armFits (P : Part) (x : Arm) : Bool :=
  (liveArms P).length < 32 &&
    !(liveArms P).any fun e => e.2.rtag == x.rtag && overlap e.2.base e.2.data.length x.base x.data.length

/-- Make waiting arms live, oldest first. -/
def activateArms (s : State) (p : Nat) : State :=
  (s.part p).arms.foldl (fun s e =>
    let P := s.part p
    if !e.2.live && e.2.cancelAt = none && armFits P e.2 then
      s.setPart p { P with arms := tabSet P.arms e.1 { e.2 with live := true } }
    else s) s

/-- Remove an arm; another may take its place. -/
def dropArm (s : State) (p a : Nat) : State :=
  let P := s.part p
  activateArms (s.setPart p { P with arms := tabDel P.arms a }) p

/-- Whether every byte of an arm is consumed (R805). -/
def Arm.done (x : Arm) : Bool := x.data.length ≤ x.used.foldl (fun a u => a + u.2) 0

/-- The live arm of die n that a passing ADD packet matches (R806). -/
def armMatch (P : Part) (q : Packet) : Option (Nat × Arm) :=
  (liveArms P).find? fun e =>
    let x := e.2
    x.rtag == q.rtag && x.bf16 == (q.op == 1) && x.base ≤ q.addr && q.addr + q.data.length ≤ x.base + x.data.length &&
      !x.used.any fun u => overlap (x.base + u.1) u.2 q.addr q.data.length

/-! Reception (R764 to R774). -/

/-- A lane pair begins to retrain (R768): its replay buffer and what has come of a packet are kept, its lanes are to lock anew
(R835). -/
def startRetrain (s : State) (k n : Nat) : State :=
  let l := s.lp k n
  if l.retraining then s
  else s.setLp k n { l with retraining := true, up := false, locked := false, seen := false, identAt := none, naks := 0 }

/-- Resend flits of the replay buffer, in order (R766, R768), and count them (R821). -/
def resend (s : State) (k n : Nat) (r : List (Nat × List Byte)) : State :=
  let P := s.port k
  sendFlits (s.setPort k { P with replays := (P.replays + r.length) % 2 ^ 64 }) k n (r.map (·.2))

/-- The port's replay buffers and the packets queued for it are discarded and its lane pairs stop; the port is DOWN (R769). Packets
that have come in are not queued for it and stay (DEDUCED, log entry 137). `n` is the lane pair that the event names. -/
def portDown (s : State) (k n : Nat) (st : PortSt) : State :=
  let P := s.port k
  let lps := tabMap P.lps fun _ l =>
    { l with up := false, retraining := false, locked := false, replay := [], txq := [], partialRx := [],
             credits := [], owed := [], seen := false, identAt := none, nakSent := false, naks := 0, txSeq := 0, rxSeq := 0 }
  let s1 := s.setPort k { P with st, lps, trainedAt := [], retryAt := s.hub,
                                 errStatus := Nat.lor P.errStatus (2 ^ 31) }
  logEvent s1 { code := 0x22C1, data := fabData k n 0 0 0 0 }

/-- The replay entries that an ACK_SEQ leaves (R766). -/
def ackReplay (r : List (Nat × List Byte)) (a : Nat) : List (Nat × List Byte) :=
  if r.any (·.1 == a) then (r.dropWhile fun e => e.1 != a).drop 1 else r

/-- What acknowledgements and credits of a good flit do: on a NAK every flit after ACK_SEQ is resent (R766), credits that would raise a class above its grant leave it as it is and
retrain the lane pair (R774), the eighth NAK of one SEQ in a row does too (R768). -/
def flitControl (s : State) (k n w0 w1 : Nat) : State :=
  let l := s.lp k n
  let a := bitsOf w0 15 4
  let r := ackReplay l.replay a
  let moved := r.length < l.replay.length
  let nak := bitOf w0 3
  let naks := if nak then (if l.naks ≠ 0 && l.nakSeq = a then l.naks + 1 else 1) else if moved then 0 else l.naks
  let crs := (if bitOf w1 31 then [(bitsOf w1 30 27, bitsOf w1 26 19)] else []) ++
             (if bitOf w1 18 then [(bitsOf w1 17 14, bitsOf w1 13 6)] else [])
  let credits := crs.foldl (fun t c => if c.1 < 10 then tabMod 0 t c.1 (· + c.2) else t) l.credits
  let excess := credits.any fun e => classGrant e.1 < e.2
  let s1 := s.setLp k n { l with replay := r, lastAck := if moved then s.hub else l.lastAck, naks, nakSeq := a,
                                 credits := if excess then l.credits else credits }
  if excess || 8 ≤ naks then startRetrain s1 k n else pump (if nak then resend s1 k n r else s1) k n

/-- Take the packets out of a payload area; bytes of a packet that ran over from the flit before come first, unless a header
starts at offset 0 (R763, R777). -/
def flitPackets (l : LanePair) (hdr : Nat) (pay : List Byte) : List Packet × List Byte :=
  let b := if l.partialRx ≠ [] && hdr ≠ 0 then l.partialRx ++ pay else if hdr < 242 then pay.drop hdr else []
  takePackets 400 b

/-- Send a NAK (R765). -/
def sendNak (s : State) (k n : Nat) : State := idleFlit (s.setLp k n { s.lp k n with nakSent := true }) k n true

/-- Acknowledge what has been received, in an IDLE flit where no STREAM flit has left since `seq` was the next (R764). -/
def acknowledge (s : State) (k n seq : Nat) : State := if (s.lp k n).txSeq = seq then idleFlit s k n false else s

/-- Receive a flit on lane pair n of port k (R764 to R767). A flit that is out of order is NAKed once until the replay arrives
(DESIGN CHOICE, log entry 18). -/
def receive (s : State) (k n : Nat) (flit : List Byte) (corrected : Nat) (ok : Bool) : State :=
  let P := s.port k
  let s0 := s.setPort k { P with fec := (P.fec + corrected) % 2 ^ 64,
                                 fecu := if ok then P.fecu else (P.fecu + 1) % 2 ^ 64 }
  let l := s0.lp k n
  let w := bytesWords 2 flit
  let w0 := wd w 0
  let crcOk := crc32c (flit.take 252) == leNat (flit.drop 252)
  if !ok then sendNak s0 k n
  else if !crcOk then sendNak (s0.setLp k n { l with crcErrors := min (l.crcErrors + 1) (2 ^ 32 - 1) }) k n
  else
    let ty := bitsOf w0 31 28
    if ty = 0 then flitControl s0 k n w0 (wd w 1)
    else if ty ≠ 1 then s0
    else if bitsOf w0 27 16 ≠ l.rxSeq then (if l.nakSent then s0 else sendNak s0 k n)
    else
      let hdr := leNat ((flit.drop 8).take 2) / 256
      let r := flitPackets l hdr ((flit.drop 10).take 242)
      let s1 := s0.setLp k n { l with rxSeq := (l.rxSeq + 1) % 4096, nakSent := false, partialRx := r.2,
                                      rxq := l.rxq ++ r.1 }
      let P1 := s1.port k
      let s2 := s1.setPort k { P1 with rxBytes := (P1.rxBytes + r.1.foldl (fun a q => a + q.size) 0) % 2 ^ 64 }
      acknowledge (flitControl s2 k n w0 (wd w 1)) k n l.txSeq

/-! The packets that have arrived. -/

/-- Position of the first packet that is at the head of its buffer class and passes a test. -/
def headPacket (l : LanePair) (f : Packet → Bool) : Option (Nat × Packet) :=
  (List.range l.rxq.length).findSome? fun i =>
    match l.rxq[i]? with
    | some q => if f q && !(l.rxq.take i).any (fun x => x.cls == q.cls) then some (i, q) else none
    | none => none

/-- Take a packet out of its buffer: its credits go back to the sender, unless a training since it came has granted them. -/
def takeHead (s : State) (k n i : Nat) (q : Packet) : State :=
  let l := s.lp k n
  let old := if i < l.old then l.old - 1 else l.old
  let owed := if i < l.old then l.owed else tabMod 0 l.owed q.cls (· + q.units)
  returnCredits 20 (s.setLp k n { l with rxq := l.rxq.eraseIdx i, old, owed, heldAt := tabDel l.heldAt q.cls }) k n

end Sys2Proof.Machine
end

