-- ==== Sys2Proof/Machine/Matrix.lean ====
section
/-! DEFINITION. The matrix array: MMUL, MMULG, MWAIT, the passes and the end of a command (chapters 03 and 04, R450 to R463).
The arithmetic of a pass is done at MATRIX_PASS_START; cycle counts are out of scope. -/

namespace Sys2Proof.Machine

/-! Fields of a command header. -/

/-- W_FMT. -/
def MCmd.wFmt (c : MCmd) : Nat := bitsOf (wd c.hdr 0) 31 28
/-- A_FMT. -/
def MCmd.aFmt (c : MCmd) : Nat := bitsOf (wd c.hdr 0) 27 24
/-- OUT_FMT. -/
def MCmd.oFmt (c : MCmd) : Nat := bitsOf (wd c.hdr 0) 23 20
/-- PACKING_MODE. -/
def MCmd.packing (c : MCmd) : Nat := bitsOf (wd c.hdr 0) 18 17
/-- TRANSPOSE_W. -/
def MCmd.trW (c : MCmd) : Bool := bitOf (wd c.hdr 0) 16
/-- AGEN_MODE. -/
def MCmd.agen (c : MCmd) : Nat := bitsOf (wd c.hdr 0) 12 11
/-- W_SRC. -/
def MCmd.wSrc (c : MCmd) : Bool := bitOf (wd c.hdr 0) 10
/-- W_COMP. -/
def MCmd.wComp (c : MCmd) : Bool := bitOf (wd c.hdr 0) 9
/-- A_COMP. -/
def MCmd.aComp (c : MCmd) : Bool := bitOf (wd c.hdr 0) 8
/-- SUB_COUNT. -/
def MCmd.subCount (c : MCmd) : Nat := bitsOf (wd c.hdr 0) 7 3
/-- TRANSPOSE_X. -/
def MCmd.trX (c : MCmd) : Bool := bitOf (wd c.hdr 0) 2
/-- NP. -/
def MCmd.np (c : MCmd) : Nat := bitsOf (wd c.hdr 1) 31 16
/-- KP. -/
def MCmd.kp (c : MCmd) : Nat := bitsOf (wd c.hdr 1) 15 0
/-- MB_ROWS. -/
def MCmd.mb (c : MCmd) : Nat := bitsOf (wd c.hdr 2) 13 0
/-- Both operands are INT8 or INT4 (R79). -/
def MCmd.ints (c : MCmd) : Bool := isIntFmt c.wFmt && isIntFmt c.aFmt
/-- ARITH_MODE 1, which an integer pair ignores (R79, R82). -/
def MCmd.strict (c : MCmd) : Bool := bitOf (wd c.hdr 0) 19 && !c.ints
/-- GACC. -/
def MCmd.gacc (c : MCmd) : Bool := match c.gext with | some g => bitOf (wd g 0) 31 | none => false
/-- Byte pitch of the gradient buffers. -/
def MCmd.gLd (c : MCmd) : Nat := bitsOf (wd (c.gext.getD []) 4) 19 0

/-- Reduction indices that a cell holds, p, by the wider operand (R113). -/
def cellDepth (wf af : Nat) : Nat :=
  let b := max (fmtBits wf) (fmtBits af)
  if 16 ≤ b then 1 else if 6 ≤ b then 2 else 4

/-- Sub-array side h of a packing mode (R130). -/
def packSide (m : Nat) : Nat := if m = 0 then 128 else if m = 1 then 64 else 32

/-- Sub-arrays of a packing mode (R130). -/
def packSubs (m : Nat) : Nat := if m = 0 then 1 else if m = 1 then 4 else 16

/-- Reduction span of one pass, p·h. -/
def MCmd.span (c : MCmd) : Nat := cellDepth c.wFmt c.aFmt * packSide c.packing

/-- Fields of a sub-problem descriptor: M, K, N. -/
def subM (w : List Nat) : Nat := bitsOf (wd w 13) 19 0
/-- K. -/
def subK (w : List Nat) : Nat := bitsOf (wd w 11) 23 0
/-- N. -/
def subN (w : List Nat) : Nat := bitsOf (wd w 12) 23 0

/-- RB, the row blocks of a command (R157). -/
def MCmd.rb (c : MCmd) : Nat :=
  if c.mb = 0 then 1 else c.subs.foldl (fun a w => max a ((subM w + c.mb - 1) / c.mb)) 0

/-- Passes of a command (R157). -/
def MCmd.total (c : MCmd) : Nat := c.kp * c.np * c.rb

/-- Byte size of a result element (R184). -/
def MCmd.outBytes (c : MCmd) : Nat := if c.ints then 4 else fmtBits c.oFmt / 8

/-! Operands. -/

/-- An operand as a unit reads it (R168 to R173). -/
structure Opd where
  sp : Spc
  fmt : Nat
  comp : Bool
  base : Nat
  aux : Nat
  ld : Nat
  auxLd : Nat
  slots : Tab CbSlot
  named : Nat
  /-- The expander in event data (R287): 0 weight, 1 activation. -/
  kind : Nat
deriving DecidableEq, Repr

/-- Why an operand element does not reach the decoder. -/
inductive OpErr where
  /-- A bad line (R144, R208). -/
  | line (e : LineErr) (n : Nat)
  /-- A superblock that decodes as poisoned (R1106), with the expander that decodes it. -/
  | sb (kind : Nat) (e : SbErr)
deriving DecidableEq, Repr

/-- The checked line read, as an operand error. -/
def Spad.opErr (d : Spad) (a n : Nat) : Option OpErr := (d.readErr a n).map fun e => .line e (d.badLine a n)

/-- The coded element at source offset `off` of a compressed operand (R253, R1106). Of a coded superblock the expander reads the
header and the whole block that holds the element, so a bad line anywhere in them stops it (DESIGN CHOICE, log entry 143). -/
def codedElem (d : Spad) (o : Opd) (off : Nat) : Except OpErr Nat :=
  let i := off / 4096
  let ea := o.aux + 4 * i
  match d.opErr ea 4 with
  | some e => .error e
  | none =>
    let entry := memWord d.bytes ea
    let rate := bitsOf entry 28 26
    let sb := o.base + 32 * bitsOf entry 25 0
    let fits := rate ≤ 4 && sb + codedSize rate ≤ Spc.size o.sp
    match checkEntry o.fmt entry fits, (if fits && rate != 0 then d.opErr sb 32 else none) with
    | some e, _ => .error (.sb o.kind e)
    | none, some e => .error e
    | none, none =>
      match checkHdr o.slots o.named o.fmt entry (memWords d.bytes sb 8) with
      | some e => .error (.sb o.kind e)
      | none =>
        let w := fmtBits o.fmt / 8
        if rate = 0 then
          match d.opErr (sb + off % 4096) w with
          | some e => .error e
          | none => .ok (leNat (memRead d.bytes (sb + off % 4096) w))
        else
          let blk := sb + 32 + off / 64 % 64 * blockBytes rate
          match d.opErr blk (blockBytes rate) with
          | some e => .error e
          | none =>
            match sbElem (tabGet {} o.slots (bitsOf entry 31 29)) o.fmt rate (fun bit n => memBits d.bytes sb bit n)
                (off % 4096) with
            | some v => .ok v
            | none => .error (.sb o.kind (.header (bitsOf entry 31 29)))

/-- Element e of the memory row that starts `rowOff` bytes after BASE, with the scale byte at AUX + scaleOff + e div 32 for an
MX format: the code and the scale (R169 to R173). -/
def opElem (d : Spad) (o : Opd) (rowOff scaleOff e : Nat) : Except OpErr (Nat × Nat) :=
  let bits := fmtBits o.fmt
  if o.comp then
    match codedElem d o (rowOff + e * bits / 8) with
    | .error x => .error x
    | .ok v => .ok (v, 127)
  else
    let bit := e * bits
    let a := o.base + rowOff + bit / 8
    match d.opErr a (bitSpan bit bits) with
    | some x => .error x
    | none =>
      let code := memBits d.bytes (o.base + rowOff) bit bits
      if isMx o.fmt then
        let sa := o.aux + scaleOff + e / 32
        match d.opErr sa 1 with
        | some x => .error x
        | none => .ok (code, (memByte d.bytes sa).toNat)
      else .ok (code, 127)

/-- The weight operand of a sub-problem. -/
def MCmd.wOpd (c : MCmd) (w : List Nat) (slots : Tab CbSlot) (named : Nat) : Opd :=
  { sp := if c.wSrc then .am else .wm, fmt := c.wFmt, comp := c.wComp, base := bitsOf (wd w 0) 21 0 + c.wOff,
    aux := bitsOf (wd w 1) 21 0, ld := bitsOf (wd w 2) 21 0, auxLd := bitsOf (wd w 6) 15 0, slots, named, kind := 0 }

/-- The activation operand of a sub-problem. -/
def MCmd.xOpd (c : MCmd) (w : List Nat) (slots : Tab CbSlot) (named : Nat) : Opd :=
  { sp := .am, fmt := c.aFmt, comp := c.aComp, base := bitsOf (wd w 3) 20 0 + c.xOff,
    aux := bitsOf (wd w 4) 20 0, ld := bitsOf (wd w 5) 20 0, auxLd := bitsOf (wd w 6) 31 16, slots, named, kind := 1 }

/-- W[k][n] (R169, R171). -/
def wElem (d : Spad) (o : Opd) (tr : Bool) (k n : Nat) : Except OpErr (Nat × Nat) :=
  if tr then opElem d o (n * o.ld) (n * o.auxLd) k else opElem d o (k * o.ld) (k * o.auxLd) n

/-- Where activation X[m][k] lies. -/
inductive XPlace where
  /-- +0, never read (R178, R180). -/
  | zero
  /-- Row offset, scale offset and element. -/
  | at_ (rowOff scaleOff e : Nat)
  /-- The row leaves AM (R181). -/
  | bad
deriving DecidableEq, Repr

/-- Position of the convolution generator for row m and reduction index k (R174, R177). -/
def convPlace (h : List Nat) (ld auxLd m k : Nat) : XPlace :=
  let two := bitsOf (wd h 0) 12 11 == 2
  let cin := bitsOf (wd h 4) 15 0
  let kw := bitsOf (wd h 4) 23 16
  let mp := wd h 9 + m
  let outX := bitsOf (wd h 8) 15 0
  let oy := if two then mp / outX else 0
  let ox := if two then mp % outX else mp
  let t := k / cin
  let iy : Int := (oy * bitsOf (wd h 5) 15 8 + t / kw * bitsOf (wd h 5) 31 24 : Nat) - (bitsOf (wd h 6) 31 16 : Nat)
  let ix : Int := (ox * bitsOf (wd h 5) 7 0 + t % kw * bitsOf (wd h 5) 23 16 : Nat) - (bitsOf (wd h 6) 15 0 : Nat)
  if iy < 0 || (bitsOf (wd h 7) 31 16 : Nat) ≤ iy || ix < 0 || (bitsOf (wd h 7) 15 0 : Nat) ≤ ix then .zero
  else
    .at_ (iy.toNat * bitsOf (wd h 10) 20 0 + ix.toNat * ld)
      ((iy.toNat * bitsOf (wd h 7) 15 0 + ix.toNat) * auxLd) (k % cin)

/-- Bytes of a row of n elements. -/
def rowSpan (fmt n : Nat) : Nat := (n * fmtBits fmt + 7) / 8

/-- Where X[m][k] lies, `idx` being the row's index-list entry in mode 3 (R170, R174, R179 to R181). -/
def MCmd.xPlace (c : MCmd) (o : Opd) (kLen idx m k : Nat) : XPlace :=
  match c.agen with
  | 0 => if c.trX then .at_ (k * o.ld) (k * o.auxLd) m else .at_ (m * o.ld) (m * o.auxLd) k
  | 3 =>
    if idx = 0xFFFFFFFF then .zero
    else if Spc.size .am < o.base + idx * o.ld + rowSpan o.fmt kLen ||
        (isMx o.fmt && Spc.size .am < o.aux + idx * o.auxLd + (kLen + 31) / 32) then .bad
    else .at_ (idx * o.ld) (idx * o.auxLd) k
  | _ => convPlace c.hdr o.ld o.auxLd m k

/-! Arithmetic (chapter 02). -/

/-- Whether FP32, BF16 and FP16 subnormals flush: those formats only (R85). -/
def fastFlush (fmt : Nat) : Bool := fmt ≤ 2

/-- An operand as fast mode holds it: FP32, BF16 and FP16 subnormals flushed, then the internal form, of FP32 its pieces HI and MID
(R74, R76, R85 to R87). -/
def fastPieces (fmt : Nat) (v : FV) : List Internal :=
  match v with
  | .fin a m e => piecesOf fmt true (if fastFlush fmt && m < 2 ^ (ffmtOf fmt).mb then .fin a 0 0 else .fin a m e)
  | v => piecesOf fmt true v

/-- An operand value as fast mode uses it. -/
def fastVal (fmt : Nat) (v : FV) : FV := piecesVal (fastPieces fmt v)

/-- An operand value as strict mode uses it: the internal form, of FP32 all three pieces (R74, R76, R94). -/
def strictVal (fmt : Nat) (v : FV) : FV := viaInternal fmt false v

/-- The value of an element code under its scale byte (R61 to R63, R71 to R73). -/
def valOf (fmt : Nat) (x : Nat × Nat) : FV := if isMx fmt then mxVal fmt x.1 x.2 else elemVal fmt x.1

/-- A weight as a cell of the array holds it: in internal form, with its scale applied (R74 to R77, R85, R123). -/
def MCmd.cellOf (c : MCmd) (x : Nat × Nat) : List Internal :=
  if c.ints || c.strict then piecesOf c.wFmt false (valOf c.wFmt x) else fastPieces c.wFmt (valOf c.wFmt x)

/-- Status bits of a NaN operand or initial accumulator, NaN produced, overflow, saturation (R102). -/
def nanIn : Nat := 2
/-- INV. -/
def invFlag : Nat := 1
/-- OVF. -/
def ovfFlag : Nat := 4
/-- ISAT. -/
def isatFlag : Nat := 8

/-- Greatest lead exponent of the finite nonzero products. -/
def leadOf (ps : List FV) : Option Int :=
  ps.foldl (fun (a : Option Int) v =>
    match a, v.lead with
    | some x, some y => some (max x y)
    | none, y => y
    | x, none => x) none

/-- A product truncated toward zero at weight 2^q, as a whole number of 2^q (R89). -/
def truncAt (q : Int) : FV → Int
  | .fin a m e => sgn a (if q ≤ e then m * 2 ^ (e - q).toNat else m / 2 ^ (q - e).toNat)
  | _ => 0

/-- The exact group sum in fast mode (R84, R88, R89, R93, R98, R99). `ps` holds the products of the pairs, `full` whether the
group has all 32. -/
def groupSum (ps : List FV) (full : Bool) : FV :=
  if ps.any FV.isNan then .nan
  else if ps.any (· == .inf false) && ps.any (· == .inf true) then .nan
  else if ps.any (· == .inf false) then .inf false
  else if ps.any (· == .inf true) then .inf true
  else
    match leadOf ps with
    | none => .fin (full && ps.all FV.sign) 0 0
    | some E =>
      let q := E - 58
      let v := (ps.map (truncAt q)).foldl (· + ·) 0
      .fin (v < 0) v.natAbs q

/-- One fast-mode group onto the accumulator (R90, R91, R100, R1105): the new accumulator and the flags. INV is judged of the
group as a whole (DEDUCED, log entry 111). -/
def fastStep (acc : Nat) (xs ws : List FV) : Nat × Nat :=
  let ps := List.zipWith FV.mul xs ws
  let anyNan := xs.any FV.isNan || ws.any FV.isNan
  let g := groupSum ps (ps.length == 32)
  let a := ofF32 acc
  let r := FV.add 0 a g
  let e := fp32.encode 0 false r
  let code := if e.1 % 2 ^ 31 < 2 ^ 23 then e.1 / 2 ^ 31 * 2 ^ 31 else e.1
  let inv := (g.isNan && !anyNan) || (r.isNan && !g.isNan && !a.isNan)
  (code, (if e.2 then ovfFlag else 0) + (if inv then invFlag else 0))

/-- One strict-mode product (R95, R96, R100, R101). A step onto an accumulator that is already a NaN produces no NaN of its own and
sets no INV, Inf × 0 onto it included (DESIGN CHOICE, log entry 141). -/
def strictStep (acc : Nat) (x w : FV) : Nat × Nat :=
  let a := ofF32 acc
  let r := FV.fma 0 x w a
  let e := fp32.encode 0 false r
  let inv := r.isNan && !x.isNan && !w.isNan && !a.isNan
  (e.1, (if e.2 then ovfFlag else 0) + (if inv then invFlag else 0))

/-- One group of an integer pair (R81). -/
def intStep (acc : Nat) (xs ws : List Int) : Nat × Nat :=
  let v := sInt 32 acc + (List.zipWith (· * ·) xs ws).foldl (· + ·) 0
  (uNat 32 (clampS 32 v), if clampS 32 v = v then 0 else isatFlag)

/-- Groups of 32. -/
def chunks32 {α : Type} : Nat → List α → List (List α)
  | 0, _ => []
  | k + 1, l => if l.isEmpty then [] else l.take 32 :: chunks32 k (l.drop 32)

/-- The dot product of one row and one column over a pass, onto an accumulator (R81, R84 to R96, R116, R120, R123): the elements of
the row are codes with scales, the weights what the cells hold, in ascending k from a group boundary. -/
def MCmd.dot (c : MCmd) (acc : Nat) (xs : List (Nat × Nat)) (ws : List (List Internal)) : Nat × Nat :=
  let n := xs.length / 32 + 1
  if c.ints then
    (List.zip (chunks32 n xs) (chunks32 n ws)).foldl (fun a g =>
      let r := intStep a.1 (g.1.map fun x => sInt (fmtBits c.aFmt) x.1) (g.2.map fun y => truncAt 0 (piecesVal y))
      (r.1, flagsOr a.2 r.2)) (acc, 0)
  else if c.strict then
    (List.zip xs ws).foldl (fun a e =>
      let r := strictStep a.1 (strictVal c.aFmt (valOf c.aFmt e.1)) (piecesVal e.2)
      (r.1, flagsOr a.2 r.2)) (acc, 0)
  else
    (List.zip (chunks32 n xs) (chunks32 n ws)).foldl (fun a g =>
      let r := fastStep a.1 (g.1.map fun x => fastVal c.aFmt (valOf c.aFmt x)) (g.2.map piecesVal)
      (r.1, flagsOr a.2 r.2)) (acc, 0)

/-- Whether an element is a NaN operand (R102). -/
def elemNan (fmt : Nat) (x : Nat × Nat) : Bool := (isMx fmt || !isIntFmt fmt) && (valOf fmt x).isNan

/-! Checks at issue (R166). -/

/-- A half-open range of addresses, empty where its length is 0. -/
abbrev Rng := Nat × Nat

/-- Whether two ranges overlap. -/
def Rng.meets (a b : Rng) : Bool := a.2 != 0 && b.2 != 0 && a.1 < b.1 + b.2 && b.1 < a.1 + a.2

/-- Row unit of an operand in bytes (the table before R168). -/
def rowUnit (fmt : Nat) : Nat :=
  if fmt = 0 then 4 else if fmt ≤ 2 then 2 else if fmt = 7 || fmt = 8 then 24 else if fmt = 9 then 16
  else if isMx fmt then 32 else 1

/-- Whether an operand of `rows` memory rows of `cols` elements leaves its scratchpad (R166).
DESIGN CHOICE, log entry 27. -/
def opLeaves (o : Opd) (rows cols : Nat) : Bool :=
  if rows = 0 || cols = 0 then false
  else
    let reach := (rows - 1) * o.ld + rowSpan o.fmt cols
    if o.comp then Spc.size o.sp < o.aux + 4 * ((reach - 1) / 4096 + 1)
    else Spc.size o.sp < o.base + reach ||
      (isMx o.fmt && Spc.size o.sp < o.aux + (rows - 1) * o.auxLd + (cols + 31) / 32)

/-- Whether the positions that the convolution generator reaches leave AM, or, for a compressed operand, the index-table entries
of the superblocks that they reach (R166, R174, R178): the taps of the reduction indices k < K, of the last one the channels below
K. With AG_C_IN 0, which R175 refuses, there is no position. -/
def convLeaves (h : List Nat) (o : Opd) (m kLen : Nat) : Bool :=
  let cin := bitsOf (wd h 4) 15 0
  let taps := if cin = 0 then 0 else (kLen + cin - 1) / cin
  (List.range m).any fun i => (List.range taps).any fun t =>
    let n := min cin (kLen - t * cin)
    match convPlace h o.ld o.auxLd i (t * cin) with
    | .at_ r s _ =>
      if o.comp then Spc.size o.sp < o.aux + 4 * ((r + rowSpan o.fmt n - 1) / 4096 + 1)
      else Spc.size o.sp < o.base + r + rowSpan o.fmt n || (isMx o.fmt && Spc.size o.sp < o.aux + s + (n + 31) / 32)
    | _ => false

/-- The Y region of a sub-problem (R185), or the destination buffer of a GACC command. -/
def MCmd.yReg (c : MCmd) (w : List Nat) : Rng :=
  if subM w = 0 || subN w = 0 then (0, 0)
  else if c.gacc then (c.gdst, (subM w - 1) * c.gLd + 4 * subN w)
  else (bitsOf (wd w 8) 19 0 + c.yOff,
    (subM w - 1) * bitsOf (wd w 9) 19 0 + subN w * (if 1 < c.kp then 4 else c.outBytes))

/-- The ACC region of a sub-problem (R185), or the source buffer of a GACC command. -/
def MCmd.accReg (c : MCmd) (w : List Nat) : Rng :=
  if subM w = 0 || subN w = 0 then (0, 0)
  else if c.gacc then
    match c.gsrc with
    | some a => (a, (subM w - 1) * c.gLd + 4 * subN w)
    | none => (0, 0)
  else if bitOf (wd w 13) 31 then
    (bitsOf (wd w 7) 19 0 + c.yOff, (subM w - 1) * bitsOf (wd w 10) 19 0 + 4 * subN w)
  else (0, 0)

/-- FORMAT_INVALID (R59, R164, R229). -/
def MCmd.formatBad (c : MCmd) : Bool :=
  13 ≤ c.wFmt || 13 ≤ c.aFmt || 13 ≤ c.oFmt || (if c.ints then c.oFmt != 0 else 5 ≤ c.oFmt) ||
  (c.wComp && !compressible c.wFmt) || (c.aComp && !compressible c.aFmt)

/-- PACKING_INVALID (R134). A sub-problem descriptor that lies outside AM has no fields to judge; `da` is the descriptor's
address. -/
def MCmd.packingBad (c : MCmd) (da : Nat) : Bool :=
  let subs := c.subs.take (Spc.size .am / 64 - da / 64 - 1)
  c.packing == 3 || c.subCount != packSubs c.packing || c.kp == 0 || c.np == 0 || 8192 < c.mb ||
  (c.mb == 0 && subs.any fun w => 8192 < subM w) ||
  (subs.length == c.subs.length && subs.all fun w => subM w == 0) ||
  subs.any fun w => c.kp * c.span < subK w || c.np * packSide c.packing < subN w

/-- A reserved field of the header or a sub-problem descriptor is not 0. The bits of the K, N and M words that the table does not
name are taken as reserved (DEDUCED, log entry 120). -/
def MCmd.reservedBad (c : MCmd) : Bool :=
  bitsOf (wd c.hdr 0) 1 0 != 0 || bitsOf (wd c.hdr 2) 31 14 != 0 || wd c.hdr 3 != 0 || bitsOf (wd c.hdr 8) 31 16 != 0 ||
  bitsOf (wd c.hdr 10) 31 21 != 0 || (c.hdr.drop 11).any (· != 0) ||
  c.subs.any fun w =>
    [0, 1, 2].any (fun i => bitsOf (wd w i) 31 22 != 0) || [3, 4, 5, 14].any (fun i => bitsOf (wd w i) 31 21 != 0) ||
    [7, 8, 9, 10].any (fun i => bitsOf (wd w i) 31 20 != 0) || [11, 12].any (fun i => bitsOf (wd w i) 31 24 != 0) ||
    bitsOf (wd w 13) 30 20 != 0 || wd w 15 != 0

/-- Alignment of an operand's BASE field and pitches (R168). The rule speaks of the BASE field, so the scalar offset is not judged
(DEDUCED, log entry 119). -/
def opUnaligned (o : Opd) (off : Nat) (more : List Nat) : Bool :=
  !o.comp && ((o.base - off) :: o.ld :: more).any fun a => a % rowUnit o.fmt != 0

/-- DESC_INVALID (R152, R166, R168). `wEn` and `xEn` are the offset enables; `da` is the descriptor's address. -/
def MCmd.descBad (c : MCmd) (wEn xEn : Bool) (da : Nat) : Bool :=
  c.reservedBad || Spc.size .am < da + 64 * (1 + c.subCount) ||
  (wEn && (isMx c.wFmt || c.wComp)) || (xEn && (isMx c.aFmt || c.aComp)) ||
  c.subs.any fun w =>
    let wo := c.wOpd w [] 0
    let xo := c.xOpd w [] 0
    let used := subM w != 0 && subN w != 0 && subK w != 0
    opUnaligned wo c.wOff [] || opUnaligned xo c.xOff (if c.agen = 2 then [bitsOf (wd c.hdr 10) 20 0] else []) ||
    (used && (if c.trW then opLeaves wo (subN w) (subK w) else opLeaves wo (subK w) (subN w))) ||
    (used && c.agen == 0 && (if c.trX then opLeaves xo (subK w) (subM w) else opLeaves xo (subM w) (subK w))) ||
    (used && (c.agen == 1 || c.agen == 2) && convLeaves c.hdr xo (subM w) (subK w)) ||
    (c.agen == 3 && Spc.size .am < bitsOf (wd w 14) 20 0 + 4 * subM w) ||
    (!c.gacc && [c.yReg w, c.accReg w].any fun r => r.2 != 0 && Spc.size .pm < r.1 + r.2)

/-- The pairs of distinct positions of a list, earlier first. -/
def pairs {α : Type} : List α → List (α × α)
  | [] => []
  | x :: l => l.map (fun y => (x, y)) ++ pairs l

/-- ACC_OVERLAP (R186, R461). -/
def MCmd.overlapBad (c : MCmd) : Bool :=
  !c.gacc &&
  (c.subs.any (fun a => c.subs.any fun y => Rng.meets (c.accReg a) (c.yReg y)) ||
   (pairs (c.subs.map c.yReg)).any fun q => Rng.meets q.1 q.2)

/-- AGEN_INVALID (R174 to R177). The ranges of the generator fields are judged in modes 1 and 2, which use them (DEDUCED, log
entry 121). -/
def MCmd.agenBad (c : MCmd) : Bool :=
  let h := c.hdr
  let kh := bitsOf (wd h 4) 31 24
  let kw := bitsOf (wd h 4) 23 16
  let cin := bitsOf (wd h 4) 15 0
  let inR (x lo hi : Nat) : Bool := lo ≤ x && x ≤ hi
  (c.agen != 0 && (c.aComp || c.trX)) ||
  ((c.agen == 1 || c.agen == 2) &&
    (!inR kh 1 32 || !inR kw 1 32 || cin == 0 || !inR (bitsOf (wd h 5) 23 16) 1 128 || !inR (bitsOf (wd h 5) 7 0) 1 16 ||
     bitsOf (wd h 7) 31 16 == 0 || bitsOf (wd h 7) 15 0 == 0 ||
     (c.agen == 1 && (kh != 1 || bitsOf (wd h 7) 31 16 != 1 || bitsOf (wd h 6) 31 16 != 0)) ||
     (c.agen == 2 && (!inR (bitsOf (wd h 5) 31 24) 1 128 || !inR (bitsOf (wd h 5) 15 8) 1 16 || bitsOf (wd h 8) 15 0 == 0)) ||
     (isMx c.aFmt && cin % 32 != 0) || c.subs.any fun w => subM w != 0 && subK w != kh * kw * cin))

/-- The first refusal of R166 in table order. A header outside AM has no fields to judge. -/
def MCmd.refusal (c : MCmd) (wEn xEn : Bool) (da : Nat) : Option Nat :=
  if Spc.size .am < da + 64 then some 0x3214
  else if c.formatBad then some 0x3212
  else if c.packingBad da then some 0x3213
  else if c.descBad wEn xEn da then some 0x3214
  else if c.overlapBad then some 0x3215
  else if c.agenBad then some 0x3216
  else none

/-! Issue. -/

/-- Read what an MMUL or MMULG names at issue (R151, R152): the command without its gradient part, or the line error of a
descriptor line. -/
def readCmd (x : Tile) (w : Nat) : Except (LineErr × Nat) MCmd :=
  let da := 64 * bitsOf w 14 0
  let hdr := memWords x.am.bytes da 16
  let n := bitsOf (wd hdr 0) 7 3
  let off (en sreg : Nat) : Nat := if bitOf w en then x.sreg (bitsOf w (sreg + 4) sreg) else 0
  let c : MCmd := { hdr, subs := (List.range n).map fun i => memWords x.am.bytes (da + 64 * (1 + i)) 16,
                    wOff := off 39 34, xOff := off 45 40, yOff := off 51 46 }
  let len := min (64 * (1 + n)) (Spc.size .am - da)
  match x.am.readErr da len with
  | some e => .error (e, x.am.badLine da len)
  | none => .ok c

/-- The scalar registers that the offsets of an MMUL word read. -/
def offRegs (w : Nat) : List Nat :=
  (if bitOf w 39 then [bitsOf w 38 34] else []) ++ (if bitOf w 45 then [bitsOf w 44 40] else []) ++
  (if bitOf w 51 then [bitsOf w 50 46] else [])

/-- The number of outstanding commands above which MMUL stalls (R153). -/
def maxMatrix : Nat := 4

/-- MMUL (R150 to R153, R166, R167). A refusal's event carries the tile and the pc (DESIGN CHOICE, log entry 142). A bad line of the descriptor is no operand element, so it is handled as for any unit that is
not the matrix array (DEDUCED, log entry 122). -/
def execMmul (p : Fin 8) (t : Fin 16) (s : State) : Host.Outcome State Fault Refusal :=
  next (issue s p t 0x40 fun x r w =>
    if bitsOf w 55 52 != 0 || bitsOf w 33 15 != 0 then illegal s p t r
    else if maxMatrix ≤ x.mq.length then s
    else withRegs s p t x r [] [] (offRegs w)
      (match readCmd x w with
       | .error (e, l) => lineKill s p t r e (Spc.code .am) l
       | .ok c =>
         match c.refusal (bitOf w 39) (bitOf w 45) (64 * bitsOf w 14 0) with
         | some code => failTile s p t r code [r.pc]
         | none => finish s p t { x with mq := x.mq ++ [c] } r))

/-- MWAIT (R150): waits until at most COUNT commands are outstanding; COUNT 4 to 7 is illegal. -/
def execMwait (p : Fin 8) (t : Fin 16) (s : State) : Host.Outcome State Fault Refusal :=
  next (issue s p t 0x41 fun x r w =>
    if bitsOf w 55 3 != 0 || 4 ≤ bitsOf w 2 0 then illegal s p t r
    else if bitsOf w 2 0 < x.mq.length then s
    else finish s p t x r)

/-- Rows of a gradient mask's bits: bytes that M rows need (R454). -/
def maskBytes (mode m : Nat) : Nat := if mode = 1 then (m + 7) / 8 else if mode = 2 then ((m + 31) / 32 + 7) / 8 else 0

/-- Whether row m is trained (R454). -/
def trainedRow (mode : Nat) (mask : List Byte) (m : Nat) : Bool :=
  if mode = 0 then true
  else
    let b := if mode = 1 then m else m / 32
    bitOf (mask.getD (b / 8) 0).toNat (b % 8)

/-- MASK_MODE of a command. -/
def MCmd.maskMode (c : MCmd) : Nat := match c.gext with | some g => bitsOf (wd g 0) 30 29 | none => 0

/-- GRAD_INVALID of an MMULG (R451, R453, R457, R484): the extension's reserved fields, MASK_MODE 3, R453, R457, the mask
and the buffers. -/
def gradBad (c : MCmd) (g : List Nat) : Bool :=
  let gacc := bitOf (wd g 0) 31
  let mode := bitsOf (wd g 0) 30 29
  let m := subM (c.subs.headD [])
  let n := subN (c.subs.headD [])
  let ld := bitsOf (wd g 4) 19 0
  let ma := bitsOf (wd g 1) 20 0
  let len := if m = 0 || n = 0 then 0 else (m - 1) * ld + 4 * n
  let b0 := bitsOf (wd g 2) 19 0
  let b1 := bitsOf (wd g 3) 19 0
  bitsOf (wd g 0) 28 8 != 0 || bitsOf (wd g 1) 31 21 != 0 || [2, 3, 4].any (fun i => bitsOf (wd g i) 31 20 != 0) ||
  (g.drop 5).any (· != 0) || mode == 3 ||
  ((mode != 0 || gacc) && (c.packing != 0 || c.subCount != 1)) ||
  (gacc && (c.oFmt != 0 || c.ints || c.subs.any fun w => bitOf (wd w 13) 31)) ||
  ma % 4 != 0 || (mode != 0 && Spc.size .am < ma + maskBytes mode m) ||
  (gacc && (b0 % 64 != 0 || b1 % 64 != 0 || ld % 64 != 0 || Spc.size .pm < b0 + len || Spc.size .pm < b1 + len ||
    Rng.meets (b0, len) (b1, len)))

/-- Source and destination buffers of a GACC command (R458, R459). -/
def gaccBufs (x : Tile) (r : Run) (g : List Nat) : Option Nat × Nat :=
  let t := bitsOf (wd g 0) 7 0
  let buf (i : Bool) : Nat := bitsOf (wd g (if i then 3 else 2)) 19 0
  let sel := x.sel.contains t
  let dst := buf (!sel)
  if r.gnamed.contains t then (some dst, dst)
  else (if x.live.contains t then some (buf sel) else none, dst)

/-- MMULG (R451 to R463, R484). The extension is checked before the conditions of R166 (DEDUCED, log entry 14). -/
def execMmulg (p : Fin 8) (t : Fin 16) (s : State) : Host.Outcome State Fault Refusal :=
  next (issue s p t 0x50 fun x r w =>
    if bitsOf w 55 52 != 0 || bitsOf w 33 30 != 0 then
      failTile s p t r 0x3270 [bitsOf (memWord x.am.bytes (64 * bitsOf w 29 15)) 7 0]
    else if maxMatrix ≤ x.mq.length then s
    else withRegs s p t x r [] [] (offRegs w)
      (let ga := 64 * bitsOf w 29 15
       let g := memWords x.am.bytes ga 16
       match x.am.readErr ga 64 with
       | some e => lineKill s p t r e (Spc.code .am) (ga / 64)
       | none =>
         match readCmd x w with
         | .error (e, l) => lineKill s p t r e (Spc.code .am) l
         | .ok c0 =>
           if gradBad c0 g then failTile s p t r 0x3270 [bitsOf (wd g 0) 7 0]
           else
             let gacc := bitOf (wd g 0) 31
             let mode := bitsOf (wd g 0) 30 29
             let ma := bitsOf (wd g 1) 20 0
             let n := maskBytes mode (subM (c0.subs.headD []))
             match x.am.readErr ma n with
             | some e => lineKill s p t r e (Spc.code .am) (x.am.badLine ma n)
             | none =>
               let b := if gacc then gaccBufs x r g else (none, 0)
               let c := { c0 with gext := some g, mask := memRead x.am.bytes ma n, gsrc := b.1, gdst := b.2 }
               match c.refusal (bitOf w 39) (bitOf w 45) (64 * bitsOf w 14 0) with
               | some code => failTile s p t r code [r.pc]
               | none =>
                 let r1 := if gacc then { r with gnamed := setIns r.gnamed (bitsOf (wd g 0) 7 0),
                                                  gbufs := tabSet r.gbufs (bitsOf (wd g 0) 7 0) (bitsOf (wd g 2) 19 0, bitsOf (wd g 3) 19 0) } else r
                 finish s p t { x with mq := x.mq ++ [c] } r1))

/-! Passes. -/

/-- What stops a pass. -/
inductive PassErr where
  | op (sp : Spc) (e : OpErr)
  /-- A row index leaves AM (R181). -/
  | gather
  /-- A weight register or the sum path carries a parity error (R145). -/
  | parity
deriving DecidableEq, Repr

/-- All results of a list, or the first error with the results before it. -/
def collect {α β ε : Type} (f : α → Except ε β) : List α → Except (ε × List β) (List β)
  | [] => .ok []
  | a :: l =>
    match f a with
    | .error e => .error (e, [])
    | .ok b =>
      match collect f l with
      | .error e => .error (e.1, b :: e.2)
      | .ok bs => .ok (b :: bs)

/-- Numbers lo to hi − 1. -/
def rangeFrom (lo hi : Nat) : List Nat := (List.range (hi - lo)).map (lo + ·)

/-- Column set, row block and reduction step of pass i (R157). -/
def MCmd.passOf (c : MCmd) (i : Nat) : Nat × Nat × Nat := (i / (c.rb * c.kp), i / c.kp % c.rb, i % c.kp)

/-- The rows of row block b of a sub-problem (R158). -/
def MCmd.rows (c : MCmd) (w : List Nat) (b : Nat) : List Nat :=
  if c.mb = 0 then List.range (subM w) else rangeFrom (b * c.mb) (min ((b + 1) * c.mb) (subM w))

/-- Reduction indices of step ks (R118, R119). -/
def MCmd.ks (c : MCmd) (w : List Nat) (ks : Nat) : List Nat := rangeFrom (ks * c.span) (min ((ks + 1) * c.span) (subK w))

/-- Columns of column set ns (R121, R158). -/
def MCmd.ns (c : MCmd) (w : List Nat) (ns : Nat) : List Nat :=
  rangeFrom (ns * packSide c.packing) (min ((ns + 1) * packSide c.packing) (subN w))

/-- The sub-array row and column at which sub-array q begins (R130). -/
def subOrigin (mode q : Nat) : Nat × Nat :=
  if mode = 0 then (0, 0) else if mode = 1 then (64 * (q / 2), 64 * (q % 2)) else (32 * (q / 4), 32 * (q % 4))

/-- A weight that a pass loads: sub-problem number, its descriptor, the cell (row of the array, column of the array), and k and n. -/
structure Cell where
  q : Nat
  w : List Nat
  row : Nat
  col : Nat
  k : Nat
  n : Nat
deriving DecidableEq, Repr

/-- The weights of a pass in the order of the load: cell rows of the array ascending, within a row from the left, within a cell in
ascending k (R113, R114, R119, R127, R133). -/
def MCmd.cells (c : MCmd) (ns b ks : Nat) : List Cell :=
  let p := cellDepth c.wFmt c.aFmt
  let h := packSide c.packing
  let subs := (List.zip (List.range c.subs.length) c.subs).filter fun e => c.rows e.2 b != []
  (List.range 128).flatMap fun row =>
    subs.flatMap fun e =>
      let o := subOrigin c.packing e.1
      if o.1 ≤ row && row < o.1 + h then
        (c.ns e.2 ns).flatMap fun n =>
          let k0 := ks * c.span + p * (row - o.1)
          (rangeFrom k0 (min (k0 + p) (subK e.2))).map fun k => ⟨e.1, e.2, row, o.2 + (n - ns * h), k, n⟩
      else []

/-- The cell's number, 128 × row + column. -/
def Cell.num (x : Cell) : Nat := 128 * x.row + x.col

/-- Whether a weight in internal form is a NaN. -/
def nanCell (w : List Internal) : Bool := (piecesVal w).isNan

/-- The load of one weight: what the cell holds afterwards, or what stops the pass. -/
def loadCell (x : Tile) (cbW : Tab CbSlot) (named : Nat) (c : MCmd) (e : Cell) : Except PassErr (List Internal) :=
  let o := c.wOpd e.w cbW named
  match wElem (x.spad o.sp) o c.trW e.k e.n with
  | .error er => .error (.op o.sp er)
  | .ok v => .ok (c.cellOf v)

/-- The weight set that a load leaves: the weights of each sub-problem, column by column (R114). -/
def loadSet (x : Tile) (cbW : Tab CbSlot) (named : Nat) (c : MCmd) (ns b ks : Nat) : WSet :=
  c.subs.map fun w =>
    if c.rows w b = [] then []
    else
      let o := c.wOpd w cbW named
      (c.ns w ns).map fun n => (c.ks w ks).map fun k =>
        match wElem (x.spad o.sp) o c.trW k n with
        | .error _ => []
        | .ok v => c.cellOf v

/-- NAN_IN where a list of weights holds a NaN (R102). -/
def MCmd.wNan (c : MCmd) (ws : List (List Internal)) : Nat := if !c.ints && ws.any nanCell then nanIn else 0

/-- The load of a pass: it writes the shadow set alone, and the registers that it writes hold good parity; the first bad weight in
the order of the load ends it, with the flags of those loaded before it (R102, R125, R127, R143). -/
def loadPass (x : Tile) (cbW : Tab CbSlot) (named : Nat) (c : MCmd) (ns b ks : Nat) : Except (PassErr × Nat) Tile :=
  let cs := c.cells ns b ks
  match collect (loadCell x cbW named c) cs with
  | .error e => .error (e.1, c.wNan e.2)
  | .ok _ => .ok { x with wShadow := loadSet x cbW named c ns b ks, badShadow := x.badShadow.filter fun k => !cs.any (·.num == k) }

/-- A new pass swaps the two sets (R126). -/
def Tile.swapWeights (x : Tile) : Tile :=
  { x with wAct := x.wShadow, wShadow := x.wAct, badAct := x.badShadow, badShadow := x.badAct }

/-- The points of the sum path that a pass uses: the bottom edge of each sub-array that streams rows, in each column in use
(R143). -/
def MCmd.sumPoints (c : MCmd) (ns b : Nat) : List Nat :=
  let h := packSide c.packing
  (List.zip (List.range c.subs.length) c.subs).flatMap fun e =>
    if c.rows e.2 b = [] then []
    else
      let o := subOrigin c.packing e.1
      (c.ns e.2 ns).map fun n => 128 * (o.1 + h - 1) + o.2 + (n - ns * h)

/-- Row m of the activation operand over a pass (R115, R170, R174, R179). -/
def xRow (x : Tile) (cbA : Tab CbSlot) (named : Nat) (c : MCmd) (w : List Nat) (m ks : Nat) :
    Except (PassErr × List (Nat × Nat)) (List (Nat × Nat)) :=
  let o := c.xOpd w cbA named
  let ia := bitsOf (wd w 14) 20 0 + 4 * m
  match (if c.agen = 3 then x.am.opErr ia 4 else none) with
  | some e => .error (.op .am e, [])
  | none =>
    let idx := if c.agen = 3 then memWord x.am.bytes ia else 0
    collect (fun k =>
      match c.xPlace o (subK w) idx m k with
      | .zero => .ok (0, 127)
      | .bad => .error .gather
      | .at_ ro so e =>
        match opElem x.am o ro so e with
        | .error e => .error (.op .am e)
        | .ok v => .ok v) (c.ks w ks)

/-- The initial accumulator of row m and column n in a pass: where it is read, none for +0, and whether it is an operand of
the command (R117, R162, R182, R458 to R460, R1105). -/
def MCmd.accAddr (c : MCmd) (w : List Nat) (ks m n : Nat) : Option Nat × Bool :=
  if ks = 0 then
    if c.gacc then (c.gsrc.map fun a => a + m * c.gLd + 4 * n, true)
    else if bitOf (wd w 13) 31 then (some (bitsOf (wd w 7) 19 0 + c.yOff + m * bitsOf (wd w 10) 19 0 + 4 * n), true)
    else (none, false)
  else if c.gacc then (some (c.gdst + m * c.gLd + 4 * n), false)
  else (some (bitsOf (wd w 8) 19 0 + c.yOff + m * bitsOf (wd w 9) 19 0 + 4 * n), false)

/-- The output conversion (R161, R164, R165). -/
def MCmd.outCode (c : MCmd) (acc : Nat) : Nat :=
  if c.ints then acc
  else convert c.oFmt (bitsOf (wd c.hdr 0) 15 14) (bitOf (wd c.hdr 0) 13) (ofF32 acc)

/-- Where the result of row m and column n goes in a pass, and its bytes (R161, R162, R184, R460). -/
def MCmd.result (c : MCmd) (w : List Nat) (last : Bool) (m n acc : Nat) : Nat × List Byte :=
  if c.gacc then (c.gdst + m * c.gLd + 4 * n, natLe 4 (if last then c.outCode acc else acc))
  else
    let y := bitsOf (wd w 8) 19 0 + c.yOff + m * bitsOf (wd w 9) 19 0
    if last then (y + n * c.outBytes, natLe c.outBytes (c.outCode acc)) else (y + 4 * n, natLe 4 acc)

/-- NAN_IN where the elements of a row hold a NaN (R102). -/
def MCmd.xNan (c : MCmd) (xs : List (Nat × Nat)) : Nat := if !c.ints && xs.any (elemNan c.aFmt) then nanIn else 0

/-- One row of one sub-problem in a pass: all accumulators are read before any result is written (R163). An error comes with the
flags of what the row has read (R102, R156). -/
def rowPass (x : Tile) (cbA : Tab CbSlot) (named : Nat) (c : MCmd) (w : List Nat) (ws : List (List (List Internal)))
    (ns ks m : Nat) : Except (PassErr × Nat) (Tile × Nat) :=
  match xRow x cbA named c w m ks with
  | .error e => .error (e.1, c.xNan e.2)
  | .ok xs =>
    let cols := c.ns w ns
    let accs := collect (fun n =>
      match c.accAddr w ks m n with
      | (none, _) => .ok (0, 0)
      | (some a, opnd) =>
        match x.pm.opErr a 4 with
        | some e => .error (PassErr.op .pm e)
        | none =>
          let v := memWord x.pm.bytes a
          .ok (v, if opnd && !c.ints && (ofF32 v).isNan then nanIn else 0)) cols
    let fx := c.xNan xs
    match accs with
    | .error e => .error (e.1, e.2.foldl (fun f a => flagsOr f a.2) fx)
    | .ok as_ =>
      let last := ks + 1 == c.kp
      let out := (List.zip cols (List.zip as_ ws)).map fun e =>
        let v := if xs = [] then (e.2.1.1, 0) else c.dot e.2.1.1 xs e.2.2
        ((c.result w last m e.1 v.1).2, flagsOr e.2.1.2 v.2)
      let a := (c.result w last m (cols.headD 0) 0).1
      let bs := out.flatMap (·.1)
      let f := out.foldl (fun f e => flagsOr f e.2) fx
      match x.pm.mergeErr a bs.length with
      | some e => .error (PassErr.op .pm (.line e (x.pm.mergeLine a bs.length)), f)
      | none => .ok ({ x with pm := x.pm.write a bs false }, f)

/-- The frozen rows of a GACC command whose source is not its destination receive the source row (R462). -/
def copyFrozen (x : Tile) (c : MCmd) : Except PassErr Tile :=
  let w := c.subs.headD []
  if !c.gacc || c.gsrc == some c.gdst then .ok x
  else
    let frozen := (List.range (subM w)).filter fun m => !trainedRow c.maskMode c.mask m
    frozen.foldl (fun a m =>
      match a with
      | .error e => .error e
      | .ok x =>
        let n := 4 * subN w
        let dst := c.gdst + m * c.gLd
        let put (bs : List Byte) : Except PassErr Tile :=
          match x.pm.mergeErr dst n with
          | some e => .error (PassErr.op .pm (.line e (x.pm.mergeLine dst n)))
          | none => .ok { x with pm := x.pm.write dst bs false }
        match c.gsrc with
        | none => put (List.replicate n 0)
        | some g =>
          match x.pm.opErr (g + m * c.gLd) n with
          | some e => .error (PassErr.op .pm e)
          | none => put (memRead x.pm.bytes (g + m * c.gLd) n))
      (.ok x)

/-- The whole of a pass on a tile: loads the shadow set and swaps, or retains the active weights, streams every trained row of
every sub-problem, and writes the results; the tile and the flags afterwards (R117 to R129, R157 to R163). A parity error of a
weight register or on the sum path that the pass uses ends it (R145); the path itself carries new values afterwards. An error comes
with the flags of what the pass did before it (R156). Of several errors the one that decides is the load's, then a parity error,
then the first by sub-problem, row and element (DESIGN CHOICE, log entry 141). -/
def runPass (x : Tile) (cbW cbA : Tab CbSlot) (cbMask : Nat) (c : MCmd) : Except (PassErr × Nat) (Tile × Nat) :=
  let q := c.passOf c.pass
  let ns := q.1
  let b := q.2.1
  let ks := q.2.2
  let load := if c.kp = 1 && b != 0 then .ok x else (loadPass x cbW (cbMask % 256) c ns b ks).map Tile.swapWeights
  match load with
  | .error e => .error e
  | .ok x1 =>
    let ws := x1.wAct
    if (c.cells ns b ks).any (fun e => x1.badAct.contains e.num) || (c.sumPoints ns b).any x1.badSum.contains then
      .error (.parity, c.wNan ws.flatten.flatten)
    else
      let fw := c.wNan ws.flatten.flatten
      let out := (List.zip c.subs ws).foldl (fun a e =>
        (c.rows e.1 b).foldl (fun a m =>
          match a with
          | .error x => .error x
          | .ok (x, f) =>
            if trainedRow c.maskMode c.mask m then
              match rowPass x cbA (cbMask / 256 % 256) c e.1 e.2 ns ks m with
              | .error er => .error (er.1, flagsOr f er.2)
              | .ok (y, g) => .ok (y, flagsOr f g)
            else .ok (x, f)) a) (Except.ok (x1, fw))
      match out with
      | .error e => .error e
      | .ok (y, f) =>
        if c.pass + 1 = c.total then
          match copyFrozen y c with
          | .error e => .error (e, f)
          | .ok z => .ok (z, f)
        else .ok (y, f)

/-- Event code of a superblock that decodes as poisoned (R236 to R263), and its data: slot, and for CMP_GEN_MISMATCH the header's
generation with the slot's above it (R287). -/
def SbErr.event : SbErr → Nat × List Nat
  | .header q => (0x2231, [q])
  | .unref q => (0x2232, [q])
  | .gen q h g => (0x2230, [q, h + 65536 * g])

/-- Log a poisoned superblock, with tile, expander kind and slot (R287); the kernel will not be re-run after a kill (R263). -/
def sbEvent (s : State) (p t inst kind : Nat) (e : SbErr) : State :=
  forbidRerun (nodeEventCounted s p inst e.event.1 (t :: kind :: e.event.2)) p inst

/-- What stops a pass ends the kernel (R144, R166, R181, R208, R263). -/
def passKill (s : State) (p t : Nat) (r : Run) (e : PassErr) : State :=
  match e with
  | .gather => failTile s p t r 0x3217 []
  | .parity => killTile s p t r 0x3211 []
  | .op sp (.line .input l) => failTile s p t r 0x2222 [Spc.code sp, l]
  | .op sp (.line _ l) => killTile s p t r 0x3210 [Spc.code sp, l]
  | .op sp (.sb i x) => killTile (sbEvent s p t r.inst i x) p t r 0x3210 [Spc.code sp]

/-- Whether a command may start while an earlier one is in the array: R187 makes it wait where their regions meet. -/
def MCmd.clash (a b : MCmd) : Bool :=
  let ra := (a.subs.map a.yReg) ++ (a.subs.map a.accReg)
  b.subs.any fun w => ra.any fun q => Rng.meets (b.yReg w) q || Rng.meets (b.accReg w) q

/-- The command whose next pass may start: the first with a pass left, all earlier ones streamed (R154) and clear of it
(R187). -/
def nextPass (mq : List MCmd) : Option Nat :=
  match mq.findIdx? (fun c => c.pass < c.total) with
  | none => none
  | some i => if (mq.take i).any (fun a => MCmd.clash a (mq.getD i { hdr := [], subs := [] })) then none else some i

/-- Bank conflicts that a run meets are counted, the first of a kernel is logged (R194, R198, R199). -/
def countConflicts (s : State) (p t n : Nat) (sp : Spc) : State :=
  let x := s.tile p t
  match x.run with
  | none => s
  | some r =>
    if n = 0 then s
    else
      let s1 := s.setTile p t { x with run := some { r with conflicts := min (r.conflicts + n) 65535 } }
      nodeEventOnce s1 p r.inst 0x1220 [t, Spc.code sp]

/-- Mark a tile's progress (R983). -/
def Tile.touch (x : Tile) (now : Nat) : Tile :=
  match x.run with
  | some r => { x with run := some { r with progress := now } }
  | none => x

/-- MATRIX_PASS_START: the next pass streams (R114 to R129, R139 to R145, R157 to R163, R182 to R187).
DEDUCED, log entry 24. DESIGN CHOICE, log entry 28. -/
def execMatrixPassStart (p : Fin 8) (t : Fin 16) (conf : Nat) (sp : Spc) (s : State) : Host.Outcome State Fault Refusal :=
  let x0 := s.tile p t
  next (if (s.part p).frozen then s else match x0.run, nextPass x0.mq with
    | some r, some i =>
      let c := x0.mq.getD i { hdr := [], subs := [] }
      let s1 := countConflicts s p t conf sp
      let x := s1.tile p t
      let started (f : Nat) : State :=
        s1.setTile p t { x with mq := x.mq.set i { c with pass := c.pass + 1, flags := flagsOr c.flags f }, badSum := [] }
      let cp := s1.cp r.ctx p
      match runPass x cp.cbW cp.cbA r.cbMask c with
      | .error (e, f) => passKill (started f) p t r e
      | .ok (y, f) =>
        let c1 := { c with pass := c.pass + 1, flags := flagsOr c.flags f }
        s1.setTile p t (Tile.touch { y with mq := y.mq.set i c1 } (s1.part p).count)
    | _, _ => s)

/-- MATRIX_COMMAND_COMPLETE: the oldest command whose passes have all streamed retires, and its status joins the kernel's
(R102, R135, R154, R156). -/
def execMatrixCommandComplete (p : Fin 8) (t : Fin 16) (s : State) : Host.Outcome State Fault Refusal :=
  let x := s.tile p t
  next (if (s.part p).frozen then s else match x.run, x.mq with
    | some r, c :: rest =>
      if c.pass < c.total then s
      else
        s.setTile p t { x with mq := rest, run := some { r with astat := flagsOr r.astat c.flags,
                                                                progress := (s.part p).count } }
    | _, _ => s)

end Sys2Proof.Machine
end

