-- ==== Sys2Proof/Machine/Dma.lean ====
section
/-! DEFINITION. The tile DMA: DMA, DWAIT, the start and the retirement of a descriptor (R214 to R227, R276 to R281, R1113) and
the gather of the KV cache (R432 to R439). The bytes of a descriptor move at its start, in the order of its entries. -/

namespace Sys2Proof.Machine

/-! Moving bytes. -/

/-- What stops a descriptor. -/
inductive DErr where
  | line (sp : Spc) (e : LineErr) (l : Nat)
  | acc (e : AccErr)
  /-- An index entry places a row outside its scratchpad (R226), or coded data runs past its end (DEDUCED, log entry 15). -/
  | index
  /-- A closed resource (R617). -/
  | closed
  /-- A KV event met while copying (R423, R438, R439), at a token position. -/
  | kv (code pos : Nat)
deriving DecidableEq, Repr

/-- A state after some of a descriptor's work, and what stopped it, if anything. -/
structure Mv where
  s : State
  err : Option DErr := none
deriving DecidableEq, Repr

/-- Go on where nothing stopped. -/
def Mv.bind (m : Mv) (f : State → Mv) : Mv :=
  match m.err with
  | none => f m.s
  | some _ => m

/-- Run f over numbers 0 to n − 1 while nothing stops. -/
def Mv.each (m : Mv) : Nat → (State → Nat → Mv) → Mv
  | 0, _ => m
  | n + 1, f => (Mv.each m n f).bind fun s => f s n

/-- Who moves the bytes: partition, tile, run, and the tile as it stood when the transfer began. -/
structure Who where
  p : Nat
  t : Nat
  r : Run
  old : Tile
deriving DecidableEq, Repr

/-- The scratchpad of a SPACE code: 1 WM, 2 AM, 3 PM. -/
def spaceOf (k : Nat) : Spc := if k = 1 then .wm else if k = 2 then .am else .pm

/-- Read n bytes of a space. In a scratchpad, a bad line stops the transfer, or on its way to HBM gives poisoned bytes that are
still written (R209). -/
def dmaRead (w : Who) (s : State) (space a n : Nat) (toHbm : Bool) : Mv × List PByte :=
  if space = 0 then
    match closedHbm s w.p w.r.ctx w.r.mapVer a n w.r.inst with
    | some _ => (⟨s, some .closed⟩, [])
    | none =>
      match readHbm s w.p w.r.ctx w.r.mapVer a n w.t with
      | .error (e, s1) => (⟨s1, some (.acc e)⟩, [])
      | .ok (bs, s1) => (⟨s1, none⟩, bs)
  else
    let sp := spaceOf space
    let d := (s.tile w.p w.t).spad sp
    if Spc.size sp < a + n then (⟨s, some .index⟩, [])
    else
      match d.readErr a n with
      | none => (⟨s, none⟩, good (memRead d.bytes a n))
      | some e =>
        if toHbm then
          (⟨s, some (.line sp e (d.badLine a n))⟩,
            (pieces a n).flatMap fun x => (memRead d.bytes x.1 x.2).map (·, (d.lineErr (x.1 / 64)).isSome))
        else (⟨s, some (.line sp e (d.badLine a n))⟩, [])

/-- The line error that the merge of a part-line write meets: of the lines that were bad before the transfer began. A line that
the transfer itself has poisoned only carries its mark on (R192, R205, R207). -/
def Who.mergeErr (w : Who) (x : Tile) (sp : Spc) (a n : Nat) : Option (LineErr × Nat) :=
  ((linesOf a n).filter fun l => !covers a n l && ((x.spad sp).lineErr l).isSome).findSome? fun l =>
    ((w.old.spad sp).lineErr l).map (·, l)

/-- Write bytes into a space. -/
def dmaWrite (w : Who) (s : State) (space a : Nat) (bs : List PByte) : Mv :=
  if space = 0 then
    match closedHbm s w.p w.r.ctx w.r.mapVer a bs.length w.r.inst with
    | some _ => ⟨s, some .closed⟩
    | none =>
      match writeHbm s w.p w.r.ctx w.r.mapVer a bs with
      | .error e => ⟨s, some (.acc e)⟩
      | .ok s1 => ⟨s1, none⟩
  else
    let sp := spaceOf space
    if Spc.size sp < a + bs.length then ⟨s, some .index⟩
    else
      let x := s.tile w.p w.t
      match w.mergeErr x sp a bs.length with
      | some e => ⟨s, some (.line sp e.1 e.2)⟩
      | none => ⟨s.setTile w.p w.t (x.setSpad sp ((x.spad sp).writeMarked a bs)), none⟩

/-- Keep an earlier stop over a later one. -/
def Mv.orErr (m : Mv) (e : Option DErr) : Mv := { m with err := match e with | some x => some x | none => m.err }

/-- Move a row: what could be read is written, then a bad source line stops the transfer (R209). -/
def dmaRow (w : Who) (s : State) (ss sa ds da n : Nat) (f : State → List PByte → Option (List PByte)) : Mv :=
  let r := dmaRead w s ss sa n (ds = 0)
  if r.2.length = n then
    match f r.1.s r.2 with
    | some bs => (dmaWrite w r.1.s ds da bs).orErr r.1.err
    | none => r.1
  else r.1

/-! Fields of a descriptor. -/

/-- DMA_OP. -/
def dOp (w : List Nat) : Nat := bitsOf (wd w 0) 31 28
/-- SRC_SPACE. -/
def dSs (w : List Nat) : Nat := bitsOf (wd w 0) 27 26
/-- DST_SPACE. -/
def dDs (w : List Nat) : Nat := bitsOf (wd w 0) 25 24
/-- EXPAND. -/
def dExpand (w : List Nat) : Bool := bitOf (wd w 0) 23
/-- SCAT_ADD. -/
def dAdd (w : List Nat) : Bool := bitOf (wd w 0) 22
/-- FMT. -/
def dFmt (w : List Nat) : Nat := bitsOf (wd w 0) 19 16
/-- RATE. -/
def dRate (w : List Nat) : Nat := bitsOf (wd w 0) 15 13
/-- SLOT. -/
def dSlot (w : List Nat) : Nat := bitsOf (wd w 0) 12 10
/-- FIRST_SB. -/
def dFirst (w : List Nat) : Nat := bitsOf (wd w 1) 23 0
/-- A 48-bit address in words i and i + 1. -/
def addr48 (w : List Nat) (i : Nat) : Nat := wd64 w i % 2 ^ 48
/-- ROW_BYTES. -/
def dRow (w : List Nat) : Nat := bitsOf (wd w 10) 21 0
/-- COUNT. -/
def dCount (w : List Nat) : Nat := bitsOf (wd w 11) 23 0
/-- SLOT_MASK, LOWEST_RATE and ERR_LIMIT of PACK_PARAM (R276). -/
def dMask (w : List Nat) : Nat := bitsOf (wd w 14) 15 8
/-- LOWEST_RATE. -/
def dLowest (w : List Nat) : Nat := bitsOf (wd w 14) 7 5
/-- ERR_LIMIT. -/
def dLimit (w : List Nat) : Nat := bitsOf (wd w 14) 31 16

/-- Whether weight slot q holds a codebook (R1108). -/
def slotHolds (slots : Tab CbSlot) (q : Nat) : Bool :=
  match (tabGet ({} : CbSlot) slots q).st with
  | .valid | .loadWait | .releaseWait => true
  | _ => false

/-- Whether the codebook size of slot q is allowed with element code width b (R246, R278). -/
def sizeOk (slots : Tab CbSlot) (q b : Nat) : Bool := !((tabGet ({} : CbSlot) slots q).size32 && b == 4)

/-- Whether a range of a space leaves its scratchpad; HBM never does. -/
def leaves (space a n : Nat) : Bool := space != 0 && Spc.size (spaceOf space) < a + n

/-- DMA_INVALID (R225, R229, R277): `sa` and `da` are the addresses with their offsets, and it is these sums that the alignment and
range conditions judge (DESIGN CHOICE, log entry 144). The bits above the 48 that the table names
in an address word are taken as reserved (DEDUCED, log entry 124). -/
def dmaBad (slots : Tab CbSlot) (named : Nat) (w : List Nat) (sa da : Nat) : Bool :=
  let op := dOp w
  let ss := dSs w
  let ds := dDs w
  let n := dCount w
  let rb := dRow w
  let rows := op ≤ 2
  let sp := wd w 12
  let dp := wd w 13
  let listOut := (op == 1 || op == 2) &&
    (addr48 w 6 % 4 != 0 || Spc.size .am < addr48 w 6 + 4 * n)
  let b := codeWidth (dRate w) (fmtBits (dFmt w))
  6 ≤ op || bitsOf (wd w 0) 21 20 != 0 || bitsOf (wd w 0) 9 0 != 0 || bitsOf (wd w 1) 31 24 != 0 ||
  [3, 5, 7, 9].any (fun i => bitsOf (wd w i) 31 16 != 0) || bitsOf (wd w 10) 31 22 != 0 || bitsOf (wd w 11) 31 24 != 0 ||
  wd w 15 != 0 || (op != 5 && wd w 14 != 0) || (op == 5 && bitsOf (wd w 14) 4 0 != 0) ||
  (ss == 0 && ds == 0) || n == 0 || (rows && rb == 0) ||
  (rows && [sa, da, sp, dp, rb].any fun a => a % 4 != 0) ||
  (!rows && (sa % 32 != 0 || da % 32 != 0 || !compressible (dFmt w) || 524288 < n)) ||
  (dExpand w && op != 3) || (dAdd w && (op != 2 || ds == 0)) || listOut ||
  (op == 4 && (!slotHolds slots (dSlot w) || !bitOf named (dSlot w) || b == 0 || !sizeOk slots (dSlot w) b)) ||
  (op == 5 && (dLowest w == 0 || 4 < dLowest w ||
    (List.range 8).any fun q => bitOf (dMask w) q && !(slotHolds slots q && bitOf named q))) ||
  (match op with
   | 0 => leaves ss sa ((n - 1) * sp + rb) || leaves ds da ((n - 1) * dp + rb)
   | 1 => leaves ds da ((n - 1) * dp + rb)
   | 2 => leaves ss sa ((n - 1) * sp + rb)
   | 3 => leaves ss (addr48 w 6 + 4 * dFirst w) (4 * n) ||
       (if dExpand w then leaves ds da (4096 * n) else leaves ds (addr48 w 8) (4 * n))
   | 4 => leaves ss sa (4096 * n) || leaves ds da (n * codedSize (dRate w)) || leaves ds (addr48 w 8) (4 * n)
   | _ => leaves ss sa (4096 * n) || leaves ds (addr48 w 8) (4 * n + 32))

/-- Descriptors that may be outstanding and active (R216). -/
def maxDma : Nat := 8

/-- DMA (R214 to R216, R225). -/
def execDma (p : Fin 8) (t : Fin 16) (s : State) : Host.Outcome State Fault Refusal :=
  next (issue s p t 0x42 fun x r w =>
    if bitsOf w 55 52 != 0 || bitsOf w 39 15 != 0 then illegal s p t r
    else if maxDma ≤ x.dq.length then s
    else withRegs s p t x r [] []
      ((if bitOf w 51 then [bitsOf w 50 46] else []) ++ (if bitOf w 45 then [bitsOf w 44 40] else []))
      (let a := 64 * bitsOf w 14 0
       match x.am.readErr a 64 with
       | some e => lineKill s p t r e (Spc.code .am) (a / 64)
       | none =>
         let d := memWords x.am.bytes a 16
         let so := if bitOf w 51 then x.sreg (bitsOf w 50 46) else 0
         let dof := if bitOf w 45 then x.sreg (bitsOf w 44 40) else 0
         if dmaBad (s.cp r.ctx p).cbW (r.cbMask % 256) d (addr48 d 2 + so) (addr48 d 4 + dof) then
           failTile s p t r 0x3224 [r.pc]
         else finish s p t { x with dq := x.dq ++ [{ job := .desc d so dof }] } r))

/-- DWAIT (R214): waits until at most COUNT descriptors are outstanding. -/
def execDwait (p : Fin 8) (t : Fin 16) (s : State) : Host.Outcome State Fault Refusal :=
  next (issue s p t 0x43 fun x r w =>
    if bitsOf w 55 3 != 0 then illegal s p t r
    else if bitsOf w 2 0 < x.dq.length then s
    else finish s p t x r)

/-! The operations (R220 to R224). -/

/-- FP32 sums of two byte strings, element by element (R223). -/
def addF32 : Nat → List PByte → List PByte → List PByte
  | 0, _, _ => []
  | n + 1, a, b =>
    let v := fAdd fp32 0 (leNat ((a.take 4).map (·.1))) (leNat ((b.take 4).map (·.1)))
    let m := (a.take 4).any (·.2) || (b.take 4).any (·.2)
    (natLe 4 v).map (·, m) ++ addF32 n (a.drop 4) (b.drop 4)

/-- Entry i of the index list in AM (R220). -/
def idxRead (w : Who) (s : State) (list i : Nat) : Mv × Nat :=
  let r := dmaRead w s 2 (list + 4 * i) 4 false
  (r.1, leNat (r.2.map (·.1)))

/-- COPY, GATHER and SCATTER (R220, R222, R223, R226). A SCATTER entry whose destination row leaves its scratchpad stops the
descriptor when it is reached, before its source row is read (DEDUCED, log entry 144). -/
def dmaRows (w : Who) (s : State) (d : List Nat) (sa da : Nat) : Mv :=
  let rb := dRow d
  let plain : State → List PByte → Option (List PByte) := fun _ bs => some bs
  Mv.each ⟨s, none⟩ (dCount d) fun s i =>
    match dOp d with
    | 0 => dmaRow w s (dSs d) (sa + i * wd d 12) (dDs d) (da + i * wd d 13) rb plain
    | 1 =>
      let q := idxRead w s (addr48 d 6) i
      q.1.bind fun s =>
        if q.2 = 0xFFFFFFFF then dmaWrite w s (dDs d) (da + i * wd d 13) (good (List.replicate rb 0))
        else dmaRow w s (dSs d) (sa + q.2 * wd d 12) (dDs d) (da + i * wd d 13) rb plain
    | _ =>
      let q := idxRead w s (addr48 d 6) i
      q.1.bind fun s =>
        if q.2 = 0xFFFFFFFF then (dmaRead w s (dSs d) (sa + i * wd d 12) rb false).1
        else
          let dst := da + q.2 * wd d 13
          if leaves (dDs d) dst rb then ⟨s, some .index⟩
          else if dAdd d then
            let old := dmaRead w s (dDs d) dst rb false
            old.1.bind fun s =>
              dmaRow w s (dSs d) (sa + i * wd d 12) (dDs d) dst rb fun _ bs => some (addF32 (rb / 4) old.2 bs)
          else dmaRow w s (dSs d) (sa + i * wd d 12) (dDs d) dst rb plain

/-- Log an event of a superblock that the tile DMA handles with the weight expander (R224, R287); it forbids a re-run (R263). -/
def cmpEvent (w : Who) (s : State) (e : SbErr) : State := sbEvent s w.p w.t w.r.inst 0 e

/-- An index entry, its poison mark, and whether the superblock it names is handled by R1113: rate 5–7, a poisoned entry, or
bytes outside the source scratchpad. -/
def sbSource (ss sa entry : Nat) (bad : Bool) : Bool :=
  let rate := bitsOf entry 28 26
  4 < rate || bad || leaves ss (sa + 32 * bitsOf entry 25 0) (codedSize rate)

/-- SBCOPY without EXPAND from superblock entries `ent i` (R221, R1113): copies coded superblocks in order, and writes the new
index table at `aux`; the packed size so far is carried. -/
def sbCopy (w : Who) (s : State) (ss sa ds da aux n : Nat) (entryAt : State → Nat → Mv × List PByte) : Mv × Nat :=
  (List.range n).foldl (fun (acc : Mv × Nat) i =>
    match acc.1.err with
    | some _ => acc
    | none =>
      let r := entryAt acc.1.s i
      if r.2.length = 4 then
        let c := clean r.2
        let entry := leNat c.1
        if sbSource ss sa entry c.2 then
          let s1 := cmpEvent w r.1.s (.header (bitsOf entry 31 29))
          ((dmaWrite w s1 ds (aux + 4 * i) r.2).orErr r.1.err, acc.2)
        else
          let n := codedSize (bitsOf entry 28 26)
          let m := dmaRow w r.1.s ss (sa + 32 * bitsOf entry 25 0) ds (da + acc.2) n fun _ bs => some bs
          let m1 := m.bind fun s => dmaWrite w s ds (aux + 4 * i)
            (good (natLe 4 (idxEntry (bitsOf entry 31 29) (bitsOf entry 28 26) (acc.2 / 32))))
          (m1.orErr r.1.err, acc.2 + n)
      else (r.1, acc.2)) (⟨s, none⟩, 0)

/-- Poisoned bytes in place of n bytes. -/
def poisoned (n : Nat) : List PByte := List.replicate n (0, true)

/-- Decode a coded superblock whose index entry has passed (R236) and whose bytes carry poison marks; what the other checks find
(R224, R234 to R246, R1106). The checks are made
on a header as it is read, poisoned or not; a poisoned header that passes them poisons the superblock and logs no event (DESIGN
CHOICE, log entry 125). -/
def decodeSb (slots : Tab CbSlot) (named fmt entry : Nat) (bs : List PByte) : List PByte × Option SbErr :=
  let rate := bitsOf entry 28 26
  let m : Mem := memWrite [] 0 (bs.map (·.1))
  match checkHdr slots named fmt entry (memWords m 0 8) with
  | some e => (poisoned 4096, some e)
  | none =>
    if rate = 0 then (bs, none)
    else if (bs.take 32).any (·.2) then (poisoned 4096, none)
    else
      let c : CbSlot := tabGet {} slots (bitsOf entry 31 29)
      let wid := fmtBits fmt / 8
      let blocks := (List.range 64).map fun k =>
        let bad := ((bs.drop (32 + k * blockBytes rate)).take (blockBytes rate)).any (·.2)
        let es := (List.range (64 / wid)).map fun j => sbElem c fmt rate (fun bit n => memBits m 0 bit n) (64 * k + wid * j)
        if bad then (poisoned 64, false)
        else if es.any Option.isNone then (poisoned 64, true)
        else (good (es.flatMap fun e => natLe wid (e.getD 0)), false)
      (blocks.flatMap (·.1), if blocks.any (·.2) then some (.header (bitsOf entry 31 29)) else none)

/-- SBCOPY with EXPAND (R220, R224, R1113): an index entry that R236 rejects decodes as poisoned before any coded byte is read
(R1106). -/
def sbExpand (w : Who) (s : State) (slots : Tab CbSlot) (d : List Nat) (sa da : Nat) : Mv :=
  Mv.each ⟨s, none⟩ (dCount d) fun s i =>
    let r := dmaRead w s (dSs d) (addr48 d 6 + 4 * (dFirst d + i)) 4 true
    if r.2.length ≠ 4 then r.1
    else
      let c := clean r.2
      let entry := leNat c.1
      let dst := da + 4096 * i
      if sbSource (dSs d) sa entry c.2 || (checkEntry (dFmt d) entry true).isSome then
        (dmaWrite w (cmpEvent w r.1.s (.header (bitsOf entry 31 29))) (dDs d) dst (poisoned 4096)).orErr r.1.err
      else
        let q := dmaRead w r.1.s (dSs d) (sa + 32 * bitsOf entry 25 0) (codedSize (bitsOf entry 28 26)) (dDs d = 0)
        if q.2 = [] then q.1
        else
          let x := decodeSb slots (w.r.cbMask % 256) (dFmt d) entry q.2
          let s1 := match x.2 with
            | some e => cmpEvent w q.1.s e
            | none => q.1.s
          ((dmaWrite w s1 (dDs d) dst x.1).orErr q.1.err).orErr r.1.err

/-- CMP_NONFINITE, once for a descriptor or an append that met such a value (R251, R287): tile, expander kind, slot. -/
def markNonfinite (w : Who) (m : Mv) (met : Bool) (slot : Nat) : Mv :=
  if met then { m with s := nodeEventCounted m.s w.p w.r.inst 0x1233 [w.t, 0, slot] } else m

/-- SBCODE (R220, R224, R251, R281): every coded byte depends on the whole superblock. -/
def sbCode (w : Who) (s : State) (slots : Tab CbSlot) (d : List Nat) (sa da : Nat) : Mv :=
  let c : CbSlot := tabGet {} slots (dSlot d)
  let n := codedSize (dRate d)
  let out := (List.range (dCount d)).foldl (fun (acc : Mv × Bool) i =>
    match acc.1.err with
    | some _ => acc
    | none =>
    let r := dmaRead w acc.1.s (dSs d) (sa + 4096 * i) 4096 (dDs d = 0)
    if r.2 = [] then (r.1, acc.2)
    else
      let b := clean r.2
      let sums := rmsSums c (dFmt d) (dRate d) b.1
      let coded := codeSb c (dFmt d) (dRate d) (dSlot d) (rmsOf sums.1 sums.2) b.1
      let m := dmaWrite w r.1.s (dDs d) (addr48 d 8 + 4 * i) (good (natLe 4 (idxEntry (dSlot d) (dRate d) (i * n / 32))))
      ((m.bind fun s => dmaWrite w s (dDs d) (da + i * n) (coded.map (·, b.2))).orErr r.1.err,
        acc.2 || hasNonfinite (dFmt d) b.1)) (⟨s, none⟩, false)
  markNonfinite w out.1 out.2 (dSlot d)

/-- Running totals of a packer: size in bytes, counts by rate code, largest ERR_RMS (R280). -/
structure PackSum where
  size : Nat := 0
  counts : List Nat := [0, 0, 0, 0, 0]
  rms : Nat := 0
  /-- The slot that coded the first superblock with a value that is not finite. -/
  nonfinite : Option Nat := none
deriving DecidableEq, Repr

/-- PACKER (R276 to R280). -/
def dmaPack (w : Who) (s : State) (slots : Tab CbSlot) (d : List Nat) (sa da : Nat) : Mv :=
  let aux := addr48 d 8
  let out := (List.range (dCount d)).foldl (fun (acc : Mv × PackSum) i =>
    match acc.1.err with
    | some _ => acc
    | none =>
      let r := dmaRead w acc.1.s (dSs d) (sa + 4096 * i) 4096 (dDs d = 0)
      if r.2 = [] then (r.1, acc.2)
      else
        let b := clean r.2
        let q := packChoice slots (dMask d) (dLowest d) (dLimit d) (dFmt d) b.1
        let rate := q.2.1
        let coded := codeSb (tabGet {} slots q.1) (dFmt d) rate q.1 q.2.2 b.1
        let e := natLe 4 (idxEntry q.1 rate (acc.2.size / 32))
        let m := dmaWrite w r.1.s (dDs d) (aux + 4 * i) (e.map (·, b.2))
        ((m.bind fun s => dmaWrite w s (dDs d) (da + acc.2.size) (coded.map (·, b.2))).orErr r.1.err,
          { size := acc.2.size + coded.length, counts := acc.2.counts.set rate (acc.2.counts.getD rate 0 + 1),
            rms := if rate = 0 then acc.2.rms else max acc.2.rms q.2.2,
            nonfinite := if acc.2.nonfinite.isNone && rate != 0 && hasNonfinite (dFmt d) b.1 then some q.1
              else acc.2.nonfinite })) (⟨s, none⟩, {})
  (markNonfinite w out.1 out.2.nonfinite.isSome (out.2.nonfinite.getD 0)).bind fun s =>
    dmaWrite w s (dDs d) (aux + 4 * dCount d)
      (good (wordsBytes ([out.2.size / 32] ++ out.2.counts ++ [out.2.rms, 0])))

/-! KV pages (R398 to R412, R432 to R439). -/

/-- Fields of a sequence descriptor (R398). -/
def seqLen (q : List Nat) : Nat := wd q 0
/-- MAX_TOKENS. -/
def seqMax (q : List Nat) : Nat := wd q 1
/-- LIST_BASE. -/
def seqList (q : List Nat) : Nat := addr48 q 2
/-- FMT. -/
def seqFmt (q : List Nat) : Nat := bitsOf (wd q 4) 31 28
/-- ROW_BYTES. -/
def seqRow (q : List Nat) : Nat := 2 ^ bitsOf (wd q 4) 27 24
/-- NGROUPS. -/
def seqGroups (q : List Nat) : Nat := bitsOf (wd q 4) 11 0

/-- Whether a sequence descriptor breaks its table, or group g is out of range (R398, R423). DEDUCED, log entry 117. -/
def seqBad (q : List Nat) (g : Nat) : Bool :=
  !compressible (seqFmt q) || bitsOf (wd q 4) 27 24 < 6 || 14 < bitsOf (wd q 4) 27 24 || seqGroups q == 0 ||
  seqGroups q ≤ g || bitsOf (wd q 4) 23 12 != 0 || bitsOf (wd q 3) 31 16 != 0 || (q.drop 5).any (· != 0)

/-- Superblocks of a plane (R409). -/
def sbp (q : List Nat) : Nat := seqRow q / 64

/-- IDX_BYTES. -/
def idxBytes (q : List Nat) : Nat := 32 * ((8 * sbp q + 31) / 32)

/-- PAGE_BYTES at a rate. -/
def pageBytes (q : List Nat) (rate : Nat) : Nat := idxBytes q + 2 * sbp q * codedSize rate

/-- A page as its table entry gives it: address, rate and slot. -/
structure KvPage where
  addr : Nat
  rate : Nat
  slot : Nat
  pn : Nat
deriving DecidableEq, Repr

/-- Why a page cannot be used: an event of R423, or poison (R439). -/
inductive KvErr where
  | invalid | fault
  /-- Poisoned descriptor, list entry, table entry or data, with its DVA. -/
  | poison (dva : Nat)
  /-- A closed resource (R617). -/
  | closed
  | other (e : AccErr)
deriving DecidableEq, Repr

/-- Read n bytes of device memory for instance i on the KV and GSEND paths: an unmapped address is a page fault (R423), poison is
R439's, a closed resource R617's; the bytes of other stacks are counted (R607). An error comes with what the lines read have left (R669, R676). -/
def kvRead (s : State) (p i : Nat) (c v a n t : Nat) : Except (KvErr × State) (List Byte × State) :=
  match closedHbm s p c v a n i with
  | some _ => .error (.closed, s)
  | none =>
    match readHbm s p c v a n t with
    | .error (.targetReset d t, s1) => .error (.other (.targetReset d t), s1)
    | .error (_, s1) => .error (.fault, s1)
    | .ok (bs, s1) => if bs.any (·.2) then .error (.poison (poisonAt a bs), s1) else .ok (bs.map (·.1), s1)

/-- Read a page-table entry and check it against a sequence (R400, R423). `mask` and `slots` are the kernel's; a gather, for
which the entry gives only an address (R435), and an export or import, to which R423 does not apply, use no slot (`coded` false;
DEDUCED, log entry 113). -/
def kvPage (s : State) (p i c v t : Nat) (pt : Option PTab) (slots : Tab CbSlot) (mask : Nat) (coded : Bool) (q : List Nat)
    (l g : Nat) :
    Except (KvErr × State) (KvPage × State) :=
  match pt with
  | none => .error (.fault, s)
  | some tb =>
    match kvRead s p i c v (seqList q + 4 * (l * seqGroups q + g)) 4 t with
    | .error e => .error e
    | .ok (lb, s1) =>
      let pn := leNat lb
      if pn = 0xFFFFFFFF || tb.entries ≤ pn then .error (.fault, s1)
      else
        match kvRead s1 p i c v (tb.base + 8 * pn) 8 t with
        | .error e => .error e
        | .ok (eb, s2) =>
          let e := leNat eb
          let rate := bitsOf e 62 60
          let slot := bitsOf e 59 57
          if !bitOf e 63 then .error (.fault, s2)
          else if bitsOf e 56 48 != 0 || bitsOf e 7 0 != 0 || !rateOk rate (seqFmt q) || (rate == 0 && slot != 0) then
            .error (.invalid, s2)
          else if coded && rate != 0 && (!bitOf mask slot || !slotHolds slots slot ||
              !sizeOk slots slot (codeWidth rate (fmtBits (seqFmt q)))) then .error (.invalid, s2)
          else .ok ({ addr := 256 * bitsOf e 47 8, rate, slot, pn }, s2)

/-- Rows of logical page l that tokens first to stop − 1 cover. -/
def pageRows (first stop l : Nat) : Nat := min stop (64 * l + 64) - max first (64 * l)

/-- The data of a KV event (R449): tile with the group above it, sequence descriptor address, token position. -/
def kvData (t seq g pos : Nat) : List Nat := [t + 65536 * g, seq % 2 ^ 32, seq / 2 ^ 32, pos]

/-- Copy the covered superblocks of one page's plane (R435, R1113); a page with poisoned data is logged once, and forbids a re-run
(R439). `out` and `k` carry packed bytes and superblocks. -/
def gatherPage (w : Who) (s : State) (d q : List Nat) (first stop l out k : Nat) : Mv × Nat × Nat :=
  let g := bitsOf (wd d 0) 11 0
  let seq := addr48 d 4
  match kvPage s w.p w.r.inst w.r.ctx w.r.mapVer w.t w.r.pt (s.cp w.r.ctx w.p).cbW (w.r.cbMask % 256) false q l g with
  | .error (.invalid, s1) => (⟨s1, some (.kv 0x3260 (64 * l))⟩, out, k)
  | .error (.fault, s1) => (⟨s1, some (.kv 0x3261 (64 * l))⟩, out, k)
  | .error (.poison _, s1) => (⟨s1, some (.kv 0x2262 (64 * l))⟩, out, k)
  | .error (.closed, s1) => (⟨s1, some .closed⟩, out, k)
  | .error (.other e, s1) => (⟨s1, some (.acc e)⟩, out, k)
  | .ok (pg, s1) =>
    let n := (pageRows first stop l * seqRow q + 4095) / 4096
    let base := if bitOf (wd d 0) 31 then 4 * sbp q else 0
    let ds := if bitOf (wd d 8) 0 then 2 else 1
    let da := bitsOf (wd d 6) 21 0
    let aux := bitsOf (wd d 7) 21 0
    let mark (s : State) (hit : Bool) (bs : List PByte) : State :=
      if !hit && bs.any (·.2) then forbidRerun (nodeEvent s w.p w.r.inst 0x2262 (kvData w.t seq g (64 * l))) w.p w.r.inst
      else s
    let fault (m : Mv) : Mv :=
      match m.err with
      | some (.acc (.unmapped _)) => { m with err := some (.kv 0x3261 (64 * l)) }
      | _ => m
    let r := (List.range n).foldl (fun (acc : Mv × Nat × Bool) i =>
      match acc.1.err with
      | some _ => acc
      | none =>
        let e := dmaRead w acc.1.s 0 (pg.addr + base + 4 * i) 4 false
        if e.2.length ≠ 4 then (fault e.1, acc.2)
        else
          let s2 := mark e.1.s acc.2.2 e.2
          let c := clean e.2
          let hit := acc.2.2 || c.2
          let entry := leNat c.1
          if 4 < bitsOf entry 28 26 || c.2 then
            (dmaWrite w (cmpEvent w s2 (.header (bitsOf entry 31 29))) ds (aux + 4 * (k + i)) e.2, acc.2.1, hit)
          else
            let sz := codedSize (bitsOf entry 28 26)
            let b := dmaRead w s2 0 (pg.addr + 32 * bitsOf entry 25 0) sz false
            if b.2 = [] then (fault b.1, acc.2.1, hit)
            else
              let m := dmaWrite w (mark b.1.s hit b.2) ds (da + acc.2.1) b.2
              (m.bind fun s => dmaWrite w s ds (aux + 4 * (k + i))
                (good (natLe 4 (idxEntry (bitsOf entry 31 29) (bitsOf entry 28 26) (acc.2.1 / 32)))), acc.2.1 + sz,
                hit || b.2.any (·.2)))
      (⟨s1, none⟩, out, false)
    (match r.1.err with
      | some .index => { r.1 with err := some (.kv 0x3260 (64 * l)) }
      | _ => r.1, r.2.1, k + n)

/-- KVGATHER's transfer (R434 to R437). -/
def dmaGather (w : Who) (s : State) (d q : List Nat) (first stop : Nat) : Mv :=
  let pages := if stop ≤ first then [] else rangeFrom (first / 64) ((stop + 63) / 64)
  let r := pages.foldl (fun (acc : Mv × Nat × Nat) l =>
    match acc.1.err with
    | some _ => acc
    | none => gatherPage w acc.1.s d q first stop l acc.2.1 acc.2.2) (⟨s, none⟩, 0, 0)
  let ds := if bitOf (wd d 8) 0 then 2 else 1
  let sum := if stop ≤ first then [0, 0, 0, 0, 0, 0, 0, 0] else [stop - first, r.2.2, r.2.1, 0, 0, 0, 0, 0]
  r.1.bind fun s => dmaWrite w s ds (bitsOf (wd d 7) 21 0 + 4 * r.2.2) (good (wordsBytes sum))

/-! Start and retirement. -/

/-- What stopped a descriptor ends the kernel (R207 to R209, R226, R227, R423, R439, R617, R665, R993). -/
def dmaStop (w : Who) (s : State) (e : DErr) (info : Nat → List Nat) : State :=
  match e with
  | .line sp x l => lineKill s w.p w.t w.r x (Spc.code sp) l
  | .acc x => accKill s w.p w.r.inst x
  | .index => failTile s w.p w.t w.r 0x3225 []
  | .closed => regDisabled s w.p w.r.inst
  | .kv code pos => failNode s w.p w.r.inst code (info pos)

/-- Move all the bytes of an entry. -/
def dmaMove (w : Who) (s : State) (job : DmaJob) : Mv :=
  let slots := (s.cp w.r.ctx w.p).cbW
  match job with
  | .desc d so dof =>
    let sa := addr48 d 2 + so
    let da := addr48 d 4 + dof
    match dOp d with
    | 0 | 1 | 2 => dmaRows w s d sa da
    | 3 =>
      if dExpand d then sbExpand w s slots d sa da
      else
        (sbCopy w s (dSs d) sa (dDs d) da (addr48 d 8) (dCount d) fun s i =>
          dmaRead w s (dSs d) (addr48 d 6 + 4 * (dFirst d + i)) 4 true).1
    | 4 => sbCode w s slots d sa da
    | _ => dmaPack w s slots d sa da
  | .gather d q first stop => dmaGather w s d q first stop
  | .gsend .. => ⟨s, none⟩

/-- Event data of a KV gather at a token position. -/
def DmaJob.kvInfo (t : Nat) (j : DmaJob) (pos : Nat) : List Nat :=
  match j with
  | .gather d _ _ _ => kvData t (addr48 d 4) (bitsOf (wd d 0) 11 0) pos
  | _ => [t]

/-- Entries that are active: started and not retired. -/
def activeDma (q : List DmaEnt) : Nat := (q.filter (·.active)).length

/-- DMA_DESCRIPTOR_START: the first entry that has not started becomes active, while fewer than four are, and its bytes move
(R216, R217, R220 to R224), unless a regulator holds them. A GSEND only becomes active; SVU_PHASE1_ELEMENT takes its elements.
DEDUCED, log entry 25. -/
def execDmaDescriptorStart (p : Fin 8) (t : Fin 16) (s : State) : Host.Outcome State Fault Refusal :=
  let x := s.tile p t
  next (gate s <| if (s.part p).frozen then s else match x.run, x.dq.findIdx? (fun e => !e.active) with
    | some r, some i =>
      if 4 ≤ activeDma x.dq then s
      else
        let e := x.dq.getD i { job := .desc [] 0 0 }
        let w : Who := ⟨p, t, r, x⟩
        let gs := match e.job with | .gsend .. => true | _ => false
        let s1 := s.setTile p t { x with dq := x.dq.set i { e with active := true, done := !gs } }
        let m := dmaMove w s1 e.job
        match m.err with
        | none => m.s.setTile p t (Tile.touch (m.s.tile p t) (s.part p).count)
        | some er => dmaStop w m.s er (e.job.kvInfo t)
    | _, _ => s)

/-- DMA_DESCRIPTOR_RETIRE: the oldest entry, done, leaves the queue, once no unit of a transfer waits (R217, R433, R611). A GSEND retires by GSEND_RETIRE. -/
def execDmaDescriptorRetire (p : Fin 8) (t : Fin 16) (s : State) : Host.Outcome State Fault Refusal :=
  let x := s.tile p t
  next (if (s.part p).frozen || owes s p [0, 1] then s else match x.dq with
    | e :: rest =>
      match e.job with
      | .gsend .. => s
      | _ => if e.done then s.setTile p t (Tile.touch { x with dq := rest } (s.part p).count) else s
    | [] => s)

/-- DMA_BANK_STARVATION: a background access, of the tile DMA, a fabric write or a SEND read (R192), that waited 64 cycles displaces a
scheduled access, which counts as a conflict (R197 to R199). -/
def execDmaBankStarvation (p : Fin 8) (t : Fin 16) (sp : Spc) (s : State) : Host.Outcome State Fault Refusal :=
  next (if (s.part p).frozen then s else countConflicts s p t 1 sp)

end Sys2Proof.Machine
end

