-- ==== Sys2Proof/Machine/Kv.lean ====
section
/-! DEFINITION. The KV append unit and the issue of a gather: KVAPP, KVWAIT, KVGATHER (R413 to R439). -/

namespace Sys2Proof.Machine

/-- The gathered facts of a KV instruction at issue: the sequence descriptor's words and the position after the scalar. -/
structure KvReq where
  d : List Nat
  q : List Nat
  seq : Nat
  g : Nat
  pos : Nat
  count : Nat
deriving DecidableEq, Repr

/-- Log and end for a KV refusal or poison (R423, R439). -/
def kvStop (s : State) (p t : Nat) (r : Run) (e : KvErr) (seq g pos : Nat) : State :=
  match e with
  | .invalid => failNode s p r.inst 0x3260 (kvData t seq g pos)
  | .fault => failNode s p r.inst 0x3261 (kvData t seq g pos)
  | .poison _ => failNode s p r.inst 0x2262 (kvData t seq g pos)
  | .closed => regDisabled s p r.inst
  | .other x => accKill s p r.inst x

/-- A reserved field of an append descriptor is not 0 (R414). -/
def appReserved (d : List Nat) : Bool :=
  bitsOf (wd d 0) 29 12 != 0 || bitsOf (wd d 2) 31 13 != 0 || wd d 3 != 0 || bitsOf (wd d 5) 31 16 != 0 ||
  [6, 7, 8].any (fun i => bitsOf (wd d i) 31 21 != 0) || (d.drop 9).any (· != 0)

/-- A reserved field of a gather descriptor is not 0 (R432). -/
def gatherReserved (d : List Nat) : Bool :=
  bitsOf (wd d 0) 30 12 != 0 || bitsOf (wd d 2) 31 13 != 0 || wd d 3 != 0 || bitsOf (wd d 5) 31 16 != 0 ||
  [6, 7].any (fun i => bitsOf (wd d i) 31 22 != 0) || bitsOf (wd d 8) 31 1 != 0 || (d.drop 9).any (· != 0)

/-- Check and collect the pages that tokens a to b − 1 need, in ascending order (R423). An append, `wr`, needs each
writable and its slot ready. An error comes with the first token position that it meets in its page. -/
def kvPages (s : State) (p t : Nat) (r : Run) (q : List Nat) (g a b : Nat) (wr : Bool) :
    Except ((KvErr × Nat) × State) (List (Nat × KvPage) × State) :=
  (if b ≤ a then [] else rangeFrom (a / 64) ((b + 63) / 64)).foldl (fun acc l =>
    match acc with
    | .error e => .error e
    | .ok (ps, s) =>
      match kvPage s p r.inst r.ctx r.mapVer t r.pt (s.cp r.ctx p).cbW (r.cbMask % 256) wr q l g with
      | .error (e, s1) => .error ((e, max a (64 * l)), s1)
      | .ok (pg, s1) =>
        match checkRange s1 p r.ctx r.mapVer pg.addr (pageBytes q pg.rate) wr with
        | some (.targetReset d t) => .error ((.other (.targetReset d t), max a (64 * l)), s1)
        | some _ => .error ((.fault, max a (64 * l)), s1)
        | none => .ok (ps ++ [(l, pg)], s1)) (.ok ([], s))

/-- The writes of one row of one plane, block by block: address and bytes (R409 to R411, R415 to R417, R283, R284). -/
def rowWrites (slots : Tab CbSlot) (q : List Nat) (pg : KvPage) (plane row : Nat) (bs : List Byte) : List (Nat × List Byte) :=
  let cs := codedSize pg.rate
  let c : CbSlot := tabGet {} slots pg.slot
  (List.zip (List.range (seqRow q / 64)) (blocksOf bs)).flatMap fun x =>
    let o := row * seqRow q + 64 * x.1
    let sb := o / 4096
    let blk := o / 64 % 64
    let rel := idxBytes q + plane * sbp q * cs + sb * cs
    let first := if blk = 0 then
        [(pg.addr + 4 * (plane * sbp q + sb), natLe 4 (idxEntry pg.slot pg.rate (rel / 32)))] ++
        (if pg.rate = 0 then [] else [(pg.addr + rel, sbHeader (seqFmt q) pg.rate pg.slot c.gen 0)])
      else []
    let at_ := pg.addr + rel + (if pg.rate = 0 then 64 * blk else 32 + blk * blockBytes pg.rate)
    first ++ [(at_, codeBlock c (seqFmt q) pg.rate x.2)]

/-- Write rows to device memory on behalf of a kernel. -/
def kvWrite (w : Who) (s : State) (ws : List (Nat × List Byte)) : Mv :=
  ws.foldl (fun m x => m.bind fun s => dmaWrite w s 0 x.1 (good x.2)) ⟨s, none⟩

/-- Append row j: read both source rows, write their blocks (R415, R416). -/
def appendRow (w : Who) (s : State) (k : KvReq) (pages : List (Nat × KvPage)) (j : Nat) : Mv :=
  let tok := k.pos + j
  let n := seqRow k.q
  match pages.find? (fun x => x.1 == tok / 64) with
  | none => ⟨s, some (.kv 0x3261 tok)⟩
  | some (_, pg) =>
    [0, 1].foldl (fun m plane => m.bind fun s =>
      let a := bitsOf (wd k.d (6 + plane)) 20 0 + j * bitsOf (wd k.d 8) 20 0
      let r := dmaRead w s 2 a n false
      r.1.bind fun s =>
        let bs := r.2.map (·.1)
        kvWrite w s (rowWrites (s.cp w.r.ctx w.p).cbW k.q pg plane (tok % 64) bs)) ⟨s, none⟩

/-- The slot that codes the first source row with a value that is not finite (R251). -/
def appendNonfinite (am : Spad) (k : KvReq) (pages : List (Nat × KvPage)) : Option Nat :=
  (List.range k.count).findSome? fun j =>
    match pages.find? (fun x => x.1 == (k.pos + j) / 64) with
    | none => none
    | some (_, pg) =>
      if pg.rate != 0 && [0, 1].any (fun plane =>
          hasNonfinite (seqFmt k.q) (memRead am.bytes (bitsOf (wd k.d (6 + plane)) 20 0 + j * bitsOf (wd k.d 8) 20 0) (seqRow k.q)))
      then some pg.slot else none

/-- KV_INVALID of a KVAPP that the descriptors alone show (R423). -/
def appInvalid (r : Run) (k : KvReq) (publish : Bool) : Bool :=
  let n := seqRow k.q
  let pitch := bitsOf (wd k.d 8) 20 0
  4096 < k.count ||
  (1 ≤ k.count && [6, 7].any fun i =>
    let a := bitsOf (wd k.d i) 20 0
    a % 64 != 0 || (2 ≤ k.count && pitch % 64 != 0) || Spc.size .am < a + (k.count - 1) * pitch + n) ||
  (1 ≤ k.count && k.pos < seqLen k.q) || seqMax k.q < k.pos + k.count ||
  (publish && (tabFind r.pubs k.seq).isNone && 256 ≤ r.pubs.length)

/-- KVAPP (R413 to R430): the rows are written at issue, once every condition has been checked (R424). -/
def execKvapp (p : Fin 8) (t : Fin 16) (s : State) : Host.Outcome State Fault Refusal :=
  next (gate s <| issue s p t 0x44 fun x r w =>
    if bitsOf w 55 46 != 0 || bitsOf w 39 15 != 0 then illegal s p t r
    else if 4 ≤ x.kvq.length then s
    else withRegs s p t x r [] [] (if bitOf w 45 then [bitsOf w 44 40] else [])
      (let a := 64 * bitsOf w 14 0
       match x.am.readErr a 64 with
       | some e => lineKill s p t r e (Spc.code .am) (a / 64)
       | none =>
         let d := memWords x.am.bytes a 16
         let seq := addr48 d 4
         let g := bitsOf (wd d 0) 11 0
         let off := wd d 1 + (if bitOf w 45 then x.sreg (bitsOf w 44 40) else 0)
         let publish := bitOf (wd d 0) 31
         if appReserved d then kvStop s p t r .invalid seq g off
         else
           match kvRead s p r.inst r.ctx r.mapVer seq 64 t with
           | .error (e, s1) => kvStop s1 p t r e seq g off
           | .ok (qb, s1) =>
             let q := bytesWords 16 qb
             let pos := off + (if bitOf (wd d 0) 30 then seqLen q else 0)
             let k : KvReq := { d, q, seq, g, pos, count := bitsOf (wd d 2) 12 0 }
             if seqBad q g || appInvalid r k publish then kvStop s1 p t r .invalid seq g pos
             else if r.pt = none then kvStop s1 p t r .fault seq g pos
             else
               match (if publish then checkRange s1 p r.ctx r.mapVer seq 4 true else none) with
               | some (.targetReset d t) => accKill s1 p r.inst (.targetReset d t)
               | some _ => kvStop s1 p t r .fault seq g pos
               | none =>
                 match kvPages s1 p t r q g pos (pos + k.count) true with
                 | .error ((e, at_), s2) => kvStop s2 p t r e seq g at_
                 | .ok (pages, s2) =>
                   let who : Who := ⟨p, t, r, x⟩
                   let nf := appendNonfinite x.am k pages
                   let m := markNonfinite who (Mv.each ⟨s2, none⟩ k.count fun s j => appendRow who s k pages j) nf.isSome (nf.getD 0)
                   match m.err with
                   | some e => dmaStop who m.s e (kvData t seq g)
                   | none =>
                     let y := m.s.tile p t
                     let r1 := if publish then { r with pubs := tabSet r.pubs seq ⟨pos + k.count, g⟩ } else r
                     finish m.s p t { y with kvq := y.kvq ++ [⟨seq, g, pos, k.count⟩] } r1))

/-- KVAPP_COMPLETE: the oldest KVAPP, all its writes visible, completes (R419, R611). -/
def execKvappComplete (p : Fin 8) (t : Fin 16) (s : State) : Host.Outcome State Fault Refusal :=
  let x := s.tile p t
  next (if (s.part p).frozen || owes s p [0, 1] then s else match x.kvq with
    | _ :: rest => s.setTile p t (Tile.touch { x with kvq := rest } (s.part p).count)
    | [] => s)

/-- KVWAIT (R413): waits until at most COUNT KVAPP are outstanding; COUNT 4 to 7 is illegal. -/
def execKvwait (p : Fin 8) (t : Fin 16) (s : State) : Host.Outcome State Fault Refusal :=
  next (issue s p t 0x45 fun x r w =>
    if bitsOf w 55 3 != 0 || 4 ≤ bitsOf w 2 0 then illegal s p t r
    else if bitsOf w 2 0 < x.kvq.length then s
    else finish s p t x r)

/-- The coded bytes that a gather will copy, as the index entries of its pages stand at issue (R435, R1113). -/
def gatherBytes (s : State) (p t : Nat) (r : Run) (d q : List Nat) (pos stop : Nat) (pages : List (Nat × KvPage)) : Nat :=
  let base := if bitOf (wd d 0) 31 then 4 * sbp q else 0
  pages.foldl (fun a x =>
    (List.range ((pageRows pos stop x.1 * seqRow q + 4095) / 4096)).foldl (fun a i =>
      match readDva s p r.ctx r.mapVer (x.2.addr + base + 4 * i) 4 t with
      | .error _ => a
      | .ok (bs, _) =>
        let rate := bitsOf (leNat (bs.map (·.1))) 28 26
        if bs.any (·.2) || 4 < rate then a else a + codedSize rate) a) 0

/-- KVGATHER (R432 to R438): checked at issue, then an entry of the tile DMA queue. -/
def execKvgather (p : Fin 8) (t : Fin 16) (s : State) : Host.Outcome State Fault Refusal :=
  next (gate s <| issue s p t 0x46 fun x r w =>
    if bitsOf w 55 46 != 0 || bitsOf w 39 15 != 0 then illegal s p t r
    else if maxDma ≤ x.dq.length then s
    else withRegs s p t x r [] [] (if bitOf w 45 then [bitsOf w 44 40] else [])
      (let a := 64 * bitsOf w 14 0
       match x.am.readErr a 64 with
       | some e => lineKill s p t r e (Spc.code .am) (a / 64)
       | none =>
         let d := memWords x.am.bytes a 16
         let seq := addr48 d 4
         let g := bitsOf (wd d 0) 11 0
         let pos := wd d 1 + (if bitOf w 45 then x.sreg (bitsOf w 44 40) else 0)
         let count := bitsOf (wd d 2) 12 0
         if gatherReserved d || count == 0 || 4096 < count || pos % 64 != 0 then kvStop s p t r .invalid seq g pos
         else
           match kvRead s p r.inst r.ctx r.mapVer seq 64 t with
           | .error (e, s1) => kvStop s1 p t r e seq g pos
           | .ok (qb, s1) =>
             let q := bytesWords 16 qb
             let stop := max pos (min (pos + count) (seqLen q))
             let sp := if bitOf (wd d 8) 0 then 2 else 1
             let nsb := (rangeFrom (pos / 64) ((stop + 63) / 64)).foldl (fun a l =>
               a + (pageRows pos stop l * seqRow q + 4095) / 4096) 0
             let aux := bitsOf (wd d 7) 21 0
             if seqBad q g || leaves sp aux (4 * (if stop ≤ pos then 0 else nsb) + 32) || leaves sp (bitsOf (wd d 6) 21 0) 0 then
               kvStop s1 p t r .invalid seq g pos
             else if r.pt = none then kvStop s1 p t r .fault seq g pos
             else
               match kvPages s1 p t r q g pos stop false with
               | .error ((e, at_), s2) => kvStop s2 p t r e seq g at_
               | .ok (pages, s2) =>
                 if leaves sp (bitsOf (wd d 6) 21 0) (gatherBytes s2 p t r d q pos stop pages) then
                   kvStop s2 p t r .invalid seq g pos
                 else finish s2 p t { s2.tile p t with dq := x.dq ++ [{ job := .gather d q pos stop }] } r))

end Sys2Proof.Machine
end

