-- ==== Sys2Proof/Machine/Vector.lean ====
section
/-! DEFINITION. The vector engine (R300 to R325). -/

namespace Sys2Proof.Machine

/-! Elements. -/

/-- Width in bytes and number of elements of a TYPE (R301); none for a reserved TYPE. -/
def vType : Nat → Option (Nat × Nat)
  | 0 => some (4, 256)
  | 1 => some (2, 512)
  | 2 => some (2, 512)
  | 3 => some (4, 256)
  | 4 => some (1, 1024)
  | _ => none

/-- Whether a TYPE is a floating-point type. -/
def isFpType (ty : Nat) : Bool := ty ≤ 2

/-- The n elements of w bytes of a register (R300). -/
def vElems (w n v : Nat) : List Nat := (List.range n).map fun i => v / 2 ^ (8 * w * i) % 2 ^ (8 * w)

/-- A register of elements of w bytes. -/
def vOf (w : Nat) (es : List Nat) : Nat := es.foldr (fun e a => e % 2 ^ (8 * w) + 2 ^ (8 * w) * a) 0

/-- The mask bits of n elements (R302). -/
def vMask (n m : Nat) : List Bool := (List.range n).map fun i => bitOf m i

/-- Masked result: an element whose bit is 0 keeps its old value or, with MZ, becomes zero (R305). -/
def merge (mz : Bool) : List Bool → List Nat → List Nat → List Nat
  | b :: bs, x :: xs, o :: os => (if b then x else if mz then 0 else o) :: merge mz bs xs os
  | _, _, _ => []

/-! Fields of the common layout (R304). Bits of a field that an instruction redefines more narrowly, and that its meaning leaves
unused, are ignored (DESIGN CHOICE, log entry 145). -/

/-- TYPE. -/
def fTy (w : Nat) : Nat := bitsOf w 55 53
/-- MZ. -/
def fMz (w : Nat) : Bool := bitOf w 52
/-- MASK. -/
def fMask (w : Nat) : Nat := bitsOf w 51 49
/-- VD. -/
def fVd (w : Nat) : Nat := bitsOf w 48 43
/-- VA. -/
def fVa (w : Nat) : Nat := bitsOf w 42 37
/-- VB. -/
def fVb (w : Nat) : Nat := bitsOf w 36 31
/-- Scalar operand of BSCAL. -/
def fSb (w : Nat) : Nat := bitsOf w 35 31
/-- VC. -/
def fVc (w : Nat) : Nat := bitsOf w 30 25
/-- BSCAL. -/
def fBscal (w : Nat) : Bool := bitOf w 24
/-- RND. -/
def fRnd (w : Nat) : Nat := bitsOf w 23 22
/-- SAT. -/
def fSat (w : Nat) : Bool := bitOf w 21
/-- PRED. -/
def fPred (w : Nat) : Nat := bitsOf w 20 18
/-- MFN. -/
def fMfn (w : Nat) : Nat := bitsOf w 17 16
/-- LANE. -/
def fLane (w : Nat) : Nat := bitsOf w 15 6
/-- SCAL. -/
def fScal (w : Nat) : Nat := bitsOf w 4 0
/-- Mask MA of MLOG, MPOP and MFIRST. -/
def fMa (w : Nat) : Nat := bitsOf w 39 37
/-- Mask MB of MLOG. -/
def fMb (w : Nat) : Nat := bitsOf w 33 31
/-- Mask MD of VCMP and MLOG. -/
def fMd (w : Nat) : Nat := bitsOf w 45 43

/-- The VB operand's elements: a register, or a scalar's low bytes in every element (R314). -/
def vbElems (x : Tile) (w wid n : Nat) : List Nat :=
  if fBscal w then List.replicate n (x.sreg (fSb w) % 2 ^ (8 * wid)) else vElems wid n (x.vreg (fVb w))

/-- Parity check of the operands that a common-layout word reads: VA, VB or its scalar, more vectors and scalars, MASK,
and VD where masked-off elements keep their value. -/
def vChk (s : State) (p t : Nat) (x : Tile) (r : Run) (w : Nat) (useB : Bool) (vs ms ss : List Nat) (k : State) : State :=
  withRegs s p t x r (vs ++ (if useB && !fBscal w then [fVb w] else []) ++ (if fMask w != 0 && !fMz w then [fVd w] else []))
    (fMask w :: ms) (ss ++ (if useB && fBscal w then [fSb w] else [])) k

/-- An element-wise instruction with one result register: reserved TYPE, reserved bit 5 or a TYPE that `ok` refuses is
illegal (R344); `f` gives the n result elements from the tile, the element width and count. -/
def vOp (s : State) (p t op : Nat) (ok : Nat → Bool) (useB : Bool) (vs ss : Nat → List Nat)
    (f : Tile → Nat → Nat → Nat → Nat → List Nat) : State :=
  issue s p t op fun x r w =>
    match vType (fTy w) with
    | none => illegal s p t r
    | some (wid, n) =>
      if bitOf w 5 || !ok (fTy w) then illegal s p t r
      else vChk s p t x r w useB (vs w) [] (ss w)
        (let res := merge (fMz w) (vMask n (x.mreg (fMask w))) (f x w (fTy w) wid n) (vElems wid n (x.vreg (fVd w)))
         finish s p t (x.setV (fVd w) (vOf wid res)) r)

/-- Two-operand element-wise instruction. -/
def vBin (s : State) (p t op : Nat) (ok : Nat → Bool) (f : Nat → Nat → Nat → Nat → Nat) : State :=
  vOp s p t op ok true (fun w => [fVa w]) (fun _ => []) fun x w ty wid n =>
    List.zipWith (f ty w) (vElems wid n (x.vreg (fVa w))) (vbElems x w wid n)

/-- One-operand element-wise instruction. -/
def vUn (s : State) (p t op : Nat) (ok : Nat → Bool) (f : Nat → Nat → Nat → Nat) : State :=
  vOp s p t op ok false (fun w => [fVa w]) (fun _ => []) fun x w ty wid n =>
    (vElems wid n (x.vreg (fVa w))).map (f ty w)

/-- Any TYPE of the table. -/
def anyTy (_ : Nat) : Bool := true
/-- Integer types only. -/
def intTy (ty : Nat) : Bool := ty == 3 || ty == 4

/-- Bit width of a type's element. -/
def tyBits (ty : Nat) : Nat := if ty = 0 || ty = 3 then 32 else if ty = 4 then 8 else 16

/-- Wrap or saturate an integer result (R313). -/
def intRes (ty : Nat) (sat : Bool) (v : Int) : Nat := uNat (tyBits ty) (if sat then clampS (tyBits ty) v else v)

/-- Sum (R310, R313). -/
def vAddE (ty w a b : Nat) : Nat :=
  if isFpType ty then fAdd (ffmtOf ty) (fRnd w) a b else intRes ty (fSat w) (sInt (tyBits ty) a + sInt (tyBits ty) b)
/-- Difference (R310, R313). -/
def vSubE (ty w a b : Nat) : Nat :=
  if isFpType ty then fSub (ffmtOf ty) (fRnd w) a b else intRes ty (fSat w) (sInt (tyBits ty) a - sInt (tyBits ty) b)
/-- Product (R310, R313). -/
def vMulE (ty w a b : Nat) : Nat :=
  if isFpType ty then fMul (ffmtOf ty) (fRnd w) a b else a * b % 2 ^ tyBits ty
/-- Minimum (R312). -/
def vMinE (ty _w a b : Nat) : Nat :=
  if isFpType ty then let f := ffmtOf ty; (f.encode 0 false (FV.min (f.decode a) (f.decode b))).1
  else if sInt (tyBits ty) a ≤ sInt (tyBits ty) b then a else b
/-- Maximum (R312). -/
def vMaxE (ty _w a b : Nat) : Nat :=
  if isFpType ty then let f := ffmtOf ty; (f.encode 0 false (FV.max (f.decode a) (f.decode b))).1
  else if sInt (tyBits ty) a ≤ sInt (tyBits ty) b then b else a
/-- Magnitude (R313); a NaN gives the canonical NaN (R311). -/
def vAbsE (ty w a : Nat) : Nat :=
  if isFpType ty then let f := ffmtOf ty; (f.encode 0 false (f.decode a).abs).1
  else intRes ty (fSat w) (sInt (tyBits ty) a).natAbs
/-- Negation (R313); a NaN gives the canonical NaN (R311). -/
def vNegE (ty w a : Nat) : Nat :=
  if isFpType ty then let f := ffmtOf ty; (f.encode 0 false (f.decode a).neg).1
  else intRes ty (fSat w) (-(sInt (tyBits ty) a))
/-- Shift count (R313): low 5 bits for INT32, low 3 for INT8. -/
def shCount (ty b : Nat) : Nat := if ty = 3 then b % 32 else b % 8

/-- VADD. -/
def execVadd (p : Fin 8) (t : Fin 16) (s : State) : Host.Outcome State Fault Refusal := next (vBin s p t 0x10 anyTy vAddE)
/-- VSUB. -/
def execVsub (p : Fin 8) (t : Fin 16) (s : State) : Host.Outcome State Fault Refusal := next (vBin s p t 0x11 anyTy vSubE)
/-- VMUL. -/
def execVmul (p : Fin 8) (t : Fin 16) (s : State) : Host.Outcome State Fault Refusal := next (vBin s p t 0x12 anyTy vMulE)

/-- VFMA, floating-point types only: VA × VB + VC rounded once (R310). -/
def execVfma (p : Fin 8) (t : Fin 16) (s : State) : Host.Outcome State Fault Refusal :=
  next (vOp s p t 0x13 isFpType true (fun w => [fVa w, fVc w]) (fun _ => []) fun x w ty wid n =>
    List.zipWith (fun (ab : Nat × Nat) c => fFma (ffmtOf ty) (fRnd w) ab.1 ab.2 c)
      (List.zip (vElems wid n (x.vreg (fVa w))) (vbElems x w wid n)) (vElems wid n (x.vreg (fVc w))))

/-- VMIN. -/
def execVmin (p : Fin 8) (t : Fin 16) (s : State) : Host.Outcome State Fault Refusal := next (vBin s p t 0x14 anyTy vMinE)
/-- VMAX. -/
def execVmax (p : Fin 8) (t : Fin 16) (s : State) : Host.Outcome State Fault Refusal := next (vBin s p t 0x15 anyTy vMaxE)
/-- VABS. -/
def execVabs (p : Fin 8) (t : Fin 16) (s : State) : Host.Outcome State Fault Refusal := next (vUn s p t 0x16 anyTy vAbsE)
/-- VNEG. -/
def execVneg (p : Fin 8) (t : Fin 16) (s : State) : Host.Outcome State Fault Refusal := next (vUn s p t 0x17 anyTy vNegE)
/-- VAND. -/
def execVand (p : Fin 8) (t : Fin 16) (s : State) : Host.Outcome State Fault Refusal :=
  next (vBin s p t 0x18 anyTy fun _ _ a b => Nat.land a b)
/-- VOR. -/
def execVor (p : Fin 8) (t : Fin 16) (s : State) : Host.Outcome State Fault Refusal :=
  next (vBin s p t 0x19 anyTy fun _ _ a b => Nat.lor a b)
/-- VXOR. -/
def execVxor (p : Fin 8) (t : Fin 16) (s : State) : Host.Outcome State Fault Refusal :=
  next (vBin s p t 0x1A anyTy fun _ _ a b => Nat.xor a b)
/-- VSHL (R313). -/
def execVshl (p : Fin 8) (t : Fin 16) (s : State) : Host.Outcome State Fault Refusal :=
  next (vBin s p t 0x1B intTy fun ty _ a b => a * 2 ^ shCount ty b % 2 ^ tyBits ty)
/-- VSHR (R313). -/
def execVshr (p : Fin 8) (t : Fin 16) (s : State) : Host.Outcome State Fault Refusal :=
  next (vBin s p t 0x1C intTy fun ty _ a b => a / 2 ^ shCount ty b)
/-- VSRA (R313). -/
def execVsra (p : Fin 8) (t : Fin 16) (s : State) : Host.Outcome State Fault Refusal :=
  next (vBin s p t 0x1D intTy fun ty _ a b => uNat (tyBits ty) (sInt (tyBits ty) a / 2 ^ shCount ty b))
/-- VMOV. -/
def execVmov (p : Fin 8) (t : Fin 16) (s : State) : Host.Outcome State Fault Refusal := next (vUn s p t 0x1E anyTy fun _ _ a => a)

/-- VBCAST: scalar SCAL in every element. -/
def execVbcast (p : Fin 8) (t : Fin 16) (s : State) : Host.Outcome State Fault Refusal :=
  next (vOp s p t 0x1F anyTy false (fun _ => []) (fun w => [fScal w]) fun x w _ wid n =>
    List.replicate n (x.sreg (fScal w) % 2 ^ (8 * wid)))

/-- VIOTA: S[SCAL] + i, INT32 only. -/
def execViota (p : Fin 8) (t : Fin 16) (s : State) : Host.Outcome State Fault Refusal :=
  next (vOp s p t 0x20 (· == 3) false (fun _ => []) (fun w => [fScal w]) fun x w _ _ n =>
    (List.range n).map fun i => (x.sreg (fScal w) + i) % 2 ^ 32)

/-- VEXT: scalar SCAL takes element LANE of VA, zero-extended. A LANE at or beyond n names no element: the value is free
(DESIGN CHOICE, log entry 7). -/
def execVext (p : Fin 8) (t : Fin 16) (s : State) : Host.Outcome State Fault Refusal :=
  next (issue s p t 0x21 fun x r w =>
    match vType (fTy w) with
    | none => illegal s p t r
    | some (wid, n) =>
      if bitOf w 5 then illegal s p t r
      else withRegs s p t x r [fVa w] [] []
        (if fLane w < n then
          finish s p t (x.setS (fScal w) (x.vreg (fVa w) / 2 ^ (8 * wid * fLane w) % 2 ^ (8 * wid))) r
         else
          let f := s.takeFree
          finish f.2 p t (x.setS (fScal w) (f.1 % 2 ^ (8 * wid))) r))

/-- VINS: element LANE of VD takes the low bytes of scalar SCAL, under MASK and MZ as every element (R305). A LANE at or beyond n
names no element: the elements whose mask bit is 1 are free (DESIGN CHOICE, log entry 7). -/
def execVins (p : Fin 8) (t : Fin 16) (s : State) : Host.Outcome State Fault Refusal :=
  next (issue s p t 0x22 fun x r w =>
    match vType (fTy w) with
    | none => illegal s p t r
    | some (wid, n) =>
      if bitOf w 5 then illegal s p t r
      else withRegs s p t x r [fVd w] [fMask w] [fScal w]
        (let old := vElems wid n (x.vreg (fVd w))
         let put (new : List Nat) : Nat := vOf wid (merge (fMz w) (vMask n (x.mreg (fMask w))) new old)
         if n ≤ fLane w then
          let f := s.takeFree
          finish f.2 p t (x.setV (fVd w) (put (vElems wid n f.1))) r
         else finish s p t (x.setV (fVd w) (put (old.set (fLane w) (x.sreg (fScal w) % 2 ^ (8 * wid))))) r))

/-- VPERM: VA[VB[i] mod n] (R318). -/
def execVperm (p : Fin 8) (t : Fin 16) (s : State) : Host.Outcome State Fault Refusal :=
  next (vOp s p t 0x23 anyTy true (fun w => [fVa w]) (fun _ => []) fun x w _ wid n =>
    (vbElems x w wid n).map fun i => x.vreg (fVa w) / 2 ^ (8 * wid * (i % n)) % 2 ^ (8 * wid))

/-- VPACK (R317): the elements whose mask bit is 1, then the fill from VC; the count to SCAL. MZ is ignored (R309). -/
def execVpack (p : Fin 8) (t : Fin 16) (s : State) : Host.Outcome State Fault Refusal :=
  next (issue s p t 0x24 fun x r w =>
    match vType (fTy w) with
    | none => illegal s p t r
    | some (wid, n) =>
      if bitOf w 5 then illegal s p t r
      else withRegs s p t x r [fVa w, fVc w] [fMask w] []
        (let sel := ((List.zip (vElems wid n (x.vreg (fVa w))) (vMask n (x.mreg (fMask w)))).filter (·.2)).map (·.1)
         let c := sel.length
         let res := sel ++ (vElems wid n (x.vreg (fVc w))).drop c
         finish s p t ((x.setV (fVd w) (vOf wid res)).setS (fScal w) c) r))

/-- The order of two elements: integers signed, floating point by IEEE 754 (R316). -/
def cmpElem (ty a b : Nat) : Option Ordering :=
  if isFpType ty then FV.cmp ((ffmtOf ty).decode a) ((ffmtOf ty).decode b)
  else some (compare (sInt (tyBits ty) a) (sInt (tyBits ty) b))

/-- A mask register of bits. -/
def maskOf (bs : List Bool) : Nat := bs.foldr (fun b a => b2n b + 2 * a) 0

/-- VCMP (R308, R316): bits below n by predicate under MASK and MZ, bits from n on become 0. PRED 7 is reserved. -/
def execVcmp (p : Fin 8) (t : Fin 16) (s : State) : Host.Outcome State Fault Refusal :=
  next (issue s p t 0x30 fun x r w =>
    match vType (fTy w) with
    | none => illegal s p t r
    | some (wid, n) =>
      if bitOf w 5 || fPred w == 7 then illegal s p t r
      else withRegs s p t x r ([fVa w] ++ if fBscal w then [] else [fVb w])
          ([fMask w] ++ if fMask w != 0 && !fMz w then [fMd w] else []) (if fBscal w then [fSb w] else [])
        (let hits := List.zipWith (fun a b => b2n (predHolds (fPred w) (cmpElem (fTy w) a b)))
            (vElems wid n (x.vreg (fVa w))) (vbElems x w wid n)
         let old := (vMask n (x.mreg (fMd w))).map b2n
         let res := (merge (fMz w) (vMask n (x.mreg (fMask w))) hits old).map (· == 1)
         finish s p t (x.setM (fMd w) (maskOf res)) r))

/-- VSEL: VA where the mask bit is 1, else VB; MZ is ignored (R309). -/
def execVsel (p : Fin 8) (t : Fin 16) (s : State) : Host.Outcome State Fault Refusal :=
  next (issue s p t 0x31 fun x r w =>
    match vType (fTy w) with
    | none => illegal s p t r
    | some (wid, n) =>
      if bitOf w 5 then illegal s p t r
      else withRegs s p t x r ([fVa w] ++ if fBscal w then [] else [fVb w]) [fMask w] (if fBscal w then [fSb w] else [])
        (let res := merge false (vMask n (x.mreg (fMask w))) (vElems wid n (x.vreg (fVa w))) (vbElems x w wid n)
         finish s p t (x.setV (fVd w) (vOf wid res)) r))

/-- MFN of MLOG on 1,024 bits. -/
def mlogFn (fn a b : Nat) : Nat :=
  match fn with
  | 0 => Nat.land a b
  | 1 => Nat.lor a b
  | 2 => Nat.xor a b
  | _ => Nat.land a (Nat.xor b (2 ^ 1024 - 1))

/-- MLOG: mask logic on all bits; ignores MASK and MZ (R309). -/
def execMlog (p : Fin 8) (t : Fin 16) (s : State) : Host.Outcome State Fault Refusal :=
  next (issue s p t 0x32 fun x r w =>
    if vType (fTy w) = none || bitOf w 5 then illegal s p t r
    else withRegs s p t x r [] [fMa w, fMb w] []
      (finish s p t (x.setM (fMd w) (mlogFn (fMfn w) (x.mreg (fMa w)) (x.mreg (fMb w)))) r))

/-- MPOP: number of set bits of MA among 0 to n − 1, whatever MASK names (R309; DESIGN CHOICE, log entry 145). -/
def execMpop (p : Fin 8) (t : Fin 16) (s : State) : Host.Outcome State Fault Refusal :=
  next (issue s p t 0x33 fun x r w =>
    match vType (fTy w) with
    | none => illegal s p t r
    | some (_, n) =>
      if bitOf w 5 then illegal s p t r
      else withRegs s p t x r [] [fMa w] []
        (finish s p t (x.setS (fScal w) ((vMask n (x.mreg (fMa w))).filter id).length) r))

/-- MFIRST: lowest set bit of MA below n, or n, whatever MASK names (R309; DESIGN CHOICE, log entry 145). -/
def execMfirst (p : Fin 8) (t : Fin 16) (s : State) : Host.Outcome State Fault Refusal :=
  next (issue s p t 0x34 fun x r w =>
    match vType (fTy w) with
    | none => illegal s p t r
    | some (_, n) =>
      if bitOf w 5 then illegal s p t r
      else withRegs s p t x r [] [fMa w] []
        (finish s p t (x.setS (fScal w) (((vMask n (x.mreg (fMa w))).findIdx? id).getD n)) r))

/-! Conversions (R319 to R325). -/

/-- A format's element width in whole bytes. -/
def fmtBytes (c : Nat) : Nat := (fmtBits c + 7) / 8

/-- First bit of a side in its register: 0 for the wider side, PART × n × width for the narrower (R321). -/
def sideBit (own other part n : Nat) : Nat := if own < other then part * (n * own) else 0

/-- First scale byte of an MX side in its scale register (R322). -/
def scaleByte (own other part n : Nat) : Nat := (if own < other then part * n / 32 else 0)

/-- Byte i of a register. -/
def regByte (v i : Nat) : Nat := v / 2 ^ (8 * i) % 256

/-- Replace w bits at bit b of a register. -/
def putBits (v b w x : Nat) : Nat := v - 2 ^ b * (v / 2 ^ b % 2 ^ w) + 2 ^ b * (x % 2 ^ w)

/-- CVT (R319 to R325, R344). BSCAL has no effect (DESIGN CHOICE, log entry 145). -/
def execCvt (p : Fin 8) (t : Fin 16) (s : State) : Host.Outcome State Fault Refusal :=
  next (issue s p t 0x38 fun x r w =>
    let src := bitsOf w 20 17
    let dst := bitsOf w 16 13
    let part := bitsOf w 12 10
    let sw := fmtBits src
    let dw := fmtBits dst
    let n := 1024 / max (fmtBytes src) (fmtBytes dst)
    let narrow := min sw dw
    if bitsOf w 9 0 != 0 || 0xD ≤ src || 0xD ≤ dst || fTy w != 0 || (sw == dw && part != 0) ||
        8192 < (part + 1) * (n * narrow) && sw != dw || (isMx dst && fMask w != 0) then illegal s p t r
    else withRegs s p t x r ([fVa w, fVd w] ++ (if isMx src then [fVb w] else []) ++ (if isMx dst then [fVc w] else []))
        [fMask w] []
      (let sb := sideBit sw dw part n
       let db := sideBit dw sw part n
       let codes := (List.range n).map fun i => x.vreg (fVa w) / 2 ^ (sb + sw * i) % 2 ^ sw
       let ssc := scaleByte sw dw part n
       let dsc := scaleByte dw sw part n
       let scales := (List.range (n / 32)).map fun q => regByte (x.vreg (fVb w)) (ssc + q)
       let vals := (List.zip (List.range n) codes).map fun ic =>
         if isMx src then mxVal src ic.2 (scales.getD (ic.1 / 32) 0) else elemVal src ic.2
       if isMx dst then
         let blocks := (List.range (n / 32)).map fun q =>
           if src = dst then (scales.getD q 0, (codes.drop (32 * q)).take 32)
           else mxBlock dst (fRnd w) (fSat w) ((vals.drop (32 * q)).take 32)
         let vd := (List.zip (List.range n) (blocks.flatMap (·.2))).foldl
           (fun v ic => putBits v (db + dw * ic.1) dw ic.2) (x.vreg (fVd w))
         let y := x.setV (fVd w) vd
         let vc := (List.zip (List.range (n / 32)) (blocks.map (·.1))).foldl
           (fun v ic => putBits v (8 * (dsc + ic.1)) 8 ic.2) (y.vreg (fVc w))
         finish s p t (y.setV (fVc w) vc) r
       else
         let res := (List.zip codes vals).map fun cv =>
           if src = dst then (if (elemVal src cv.1).isNan then convert dst 0 false .nan else cv.1)
           else convert dst (fRnd w) (fSat w) cv.2
         let vd := (List.zip (List.range n) res).foldl (fun v ic =>
           if bitOf (x.mreg (fMask w)) ic.1 then putBits v (db + dw * ic.1) dw ic.2
           else if fMz w then putBits v (db + dw * ic.1) dw 0 else v) (x.vreg (fVd w))
         finish s p t (x.setV (fVd w) vd) r))

/-! Loads and stores (R303, R306, R307, R345). -/

/-- Address of VLD and VST: the sum does not wrap (R303; DESIGN CHOICE, log entry 145). -/
def vAddr (x : Tile) (w : Nat) : Nat := x.sreg (bitsOf w 41 37) + bitsOf w 20 0

/-- VLD: 1,024 bytes into VD under the mask; every line is read and checked (R306). -/
def execVld (p : Fin 8) (t : Fin 16) (s : State) : Host.Outcome State Fault Refusal :=
  next (issue s p t 0x39 fun x r w =>
    match vType (fTy w) with
    | none => illegal s p t r
    | some (wid, n) =>
      let sp := spaceBit (bitOf w 42)
      let a := vAddr x w
      if bitsOf w 36 21 != 0 then illegal s p t r
      else withRegs s p t x r (if fMask w != 0 && !fMz w then [fVd w] else []) [fMask w] [bitsOf w 41 37]
        (if a % 64 != 0 || Spc.size sp < a + 1024 then badAddress s p t r
         else
          match (x.spad sp).readErr a 1024 with
          | some _ => linesKill s p t r ((x.spad sp).badLines a 1024) (Spc.code sp)
          | none =>
            let v := leNat (memRead (x.spad sp).bytes a 1024)
            let res := merge (fMz w) (vMask n (x.mreg (fMask w))) (vElems wid n v) (vElems wid n (x.vreg (fVd w)))
            finish s p t (x.setV (fVd w) (vOf wid res)) r))

/-- Write the enabled bytes of a register, line by line; a line with no enabled byte is not written (R307). -/
def storeMasked (d : Spad) (a : Nat) (v : Nat) (on : Nat → Bool) : Spad :=
  (List.range 16).foldl (fun d l =>
    let idx := (List.range 64).map fun i => 64 * l + i
    if idx.any on then
      d.write (a + 64 * l) (idx.map fun i => if on i then BitVec.ofNat 8 (regByte v i) else memByte d.bytes (a + i)) false
    else d) d

/-- What the merges of a masked store meet: the first bad line that it writes in part (R192, R207, R208, R307). -/
def storeErr (d : Spad) (a : Nat) (on : Nat → Bool) : Option (LineErr × Nat) :=
  (List.range 16).findSome? fun l =>
    let bits := (List.range 64).map fun i => on (64 * l + i)
    if bits.any id && !bits.all id then (d.lineErr (a / 64 + l)).map fun e => (e, a / 64 + l) else none

/-- VST: the bytes of the elements whose mask bit is 1 (R307). -/
def execVst (p : Fin 8) (t : Fin 16) (s : State) : Host.Outcome State Fault Refusal :=
  next (issue s p t 0x3A fun x r w =>
    match vType (fTy w) with
    | none => illegal s p t r
    | some (wid, _) =>
      let sp := spaceBit (bitOf w 42)
      let a := vAddr x w
      if bitsOf w 36 21 != 0 then illegal s p t r
      else withRegs s p t x r [fVd w] [fMask w] [bitsOf w 41 37]
        (if a % 64 != 0 || Spc.size sp < a + 1024 then badAddress s p t r
         else
          let on (i : Nat) : Bool := bitOf (x.mreg (fMask w)) (i / wid)
          match storeErr (x.spad sp) a on with
          | some e => lineKill s p t r e.1 (Spc.code sp) e.2
          | none => finish s p t (x.setSpad sp (storeMasked (x.spad sp) a (x.vreg (fVd w)) on)) r))

end Sys2Proof.Machine
end

