-- ==== Sys2Proof/Machine/Reduce.lean ====
section
/-! DEFINITION. The reduction unit (R326 to R341). -/

namespace Sys2Proof.Machine

/-- Element of a TYPE as the reduction unit takes it: FP32 code, or INT32 (R328). -/
def redElem (ty x : Nat) : Nat := if ty = 3 then x else toF32 ((ffmtOf ty).decode x)

/-- Order key of a value (R329): integers signed. -/
def redOrd (ty x : Nat) : Int := if ty = 3 then sInt 32 x else redKey x

/-- What MAX of no element yields: −Inf, or −2³¹ for INT32 (R335). -/
def redLow (ty : Nat) : Nat := if ty = 3 then 0x80000000 else 0xFF800000

/-- The value of an ARGMAX or TOPK entry without an element: −Inf, a free value for INT32 (R335; DESIGN CHOICE, log entry 8). -/
def redFill (ty : Nat) : Nat := if ty = 3 then Config.redFillInt.toNat else 0xFF800000

/-- One addition of the tree: FP32 to nearest even, or INT32 saturating (R330, R332). -/
def redAdd (ty a b : Nat) : Nat := if ty = 3 then uNat 32 (clampS 32 (sInt 32 a + sInt 32 b)) else fAdd fp32 0 a b

/-- One level of the pairwise tree. -/
def pairLevel (f : Nat → Nat → Nat) : List Nat → List Nat
  | a :: b :: l => f a b :: pairLevel f l
  | l => l

/-- The pairwise tree over at most 2^k elements (R330). -/
def pairTree (f : Nat → Nat → Nat) : Nat → List Nat → Nat
  | 0, l => l.headD 0
  | k + 1, l => if l.length ≤ 1 then l.headD 0 else pairTree f k (pairLevel f l)

/-- Canonical NaN for a selected NaN (R329). -/
def redCanon (ty x : Nat) : Nat := if ty != 3 && (ofF32 x).isNan then 0x7FC00000 else x

/-- Greatest of values, ties to the first. -/
def redMax (ty : Nat) (l : List Nat) : Nat :=
  redCanon ty (l.foldl (fun a x => if redOrd ty a < redOrd ty x then x else a) (redLow ty))

/-- An entry of ARGMAX or TOPK with its order key. -/
def keyed (ty : Nat) (x : Nat × Nat) : Int × Nat × Nat := (redOrd ty x.1, x)

/-- An entry of the state: for INT32 one that R335 has filled in stands for −∞ (R335, R336). It is known by its value and its index
0xFFFF_FFFF (DESIGN CHOICE, log entry 8). -/
def keyedState (ty : Nat) (x : Nat × Nat) : Int × Nat × Nat :=
  if ty = 3 && x == (redFill 3, 0xFFFFFFFF) then (-2 ^ 32, x) else keyed ty x

/-- Insert an entry behind every entry that is not smaller. -/
def topInsert : List (Int × Nat × Nat) → Int × Nat × Nat → List (Int × Nat × Nat)
  | [], x => [x]
  | y :: l, x => if y.1 < x.1 then x :: y :: l else y :: topInsert l x

/-- The k greatest entries, equal values in the order given (R334, R336). -/
def topKeyed (k : Nat) (l : List (Int × Nat × Nat)) : List (Nat × Nat) :=
  (l.foldl (fun a x => (topInsert a x).take k) []).map (·.2)

/-- The k greatest entries of a segment. -/
def topK (ty k : Nat) (l : List (Nat × Nat)) : List (Nat × Nat) := topKeyed k (l.map (keyed ty))

/-- Fill up to k entries (R335). -/
def topFill (ty k : Nat) (l : List (Nat × Nat)) : List (Nat × Nat) :=
  l ++ List.replicate (k - l.length) (redFill ty, 0xFFFFFFFF)

/-- Result words of one segment without state. `seg` holds the elements with mask bit and position (R327, R330 to R335). -/
def segWords (rop ty k base : Nat) (seg : List (Nat × Bool)) : List Nat :=
  let idx := List.zip (List.range seg.length) seg
  let on := (idx.filter (·.2.2)).map fun x => (x.2.1, (x.1 + base) % 2 ^ 32)
  let none_ := if ty = 3 then 0 else 0x80000000
  match rop with
  | 0 => [redMax ty (on.map (·.1))]
  | 1 => [pairTree (redAdd ty) 12 (seg.map fun x => if x.2 then x.1 else none_)]
  | 2 => [pairTree (redAdd ty) 12 (seg.map fun x => if x.2 then fMul fp32 0 x.1 x.1 else none_)]
  | 3 =>
    match topK ty 1 on with
    | x :: _ => [redCanon ty x.1, x.2]
    | [] => [redFill ty, 0xFFFFFFFF]
  | _ => (topFill ty k (topK ty k on)).flatMap fun x => [x.1, x.2]

/-- Pairs of a record's words. -/
def pairsOf : List Nat → List (Nat × Nat)
  | a :: b :: l => (a, b) :: pairsOf l
  | _ => []

/-- Combine the state with the result of a segment of `cnt` unmasked elements. For INT32 an entry without an element stands for −∞,
whatever value it holds, in the state as in the segment (R335, R336). -/
def redRun (rop ty k cnt : Nat) (st new : List Nat) : List Nat :=
  match rop with
  | 0 => [redCanon ty (if redOrd ty (wd st 0) < redOrd ty (wd new 0) then wd new 0 else wd st 0)]
  | 1 => [redAdd ty (wd st 0) (wd new 0)]
  | 2 => [redAdd ty (wd st 0) (wd new 0)]
  | 3 => if (ty != 3 || cnt != 0) && (keyedState ty (wd st 0, wd st 1)).1 < redOrd ty (wd new 0) then new else st
  | _ =>
    let fresh := (pairsOf new).take (if ty = 3 then cnt else k)
    let out := topKeyed k ((pairsOf st).map (keyedState ty) ++ fresh.map (keyed ty))
    out.flatMap fun x => [x.1, x.2]

/-- RED (R326 to R339, R344, R345). -/
def execRed (p : Fin 8) (t : Fin 16) (s : State) : Host.Outcome State Fault Refusal :=
  next (issue s p t 0x3C fun x r w =>
    let ty := fTy w
    let rop := bitsOf w 48 46
    let run := bitOf w 45
    let am := bitOf w 44
    let sd := bitsOf w 36 32
    let sb := bitsOf w 31 27
    let g := 2 ^ (bitsOf w 26 24 + 4)
    let k := bitsOf w 23 18 + 1
    let useSb := 3 ≤ rop
    match vType ty with
    | none => illegal s p t r
    | some (wid, n) =>
      if ty == 4 || bitOf w 52 || bitOf w 43 || bitsOf w 17 15 != 0 || 5 ≤ rop || n < g || (!am && n != g) ||
          (!am && rop == 4) || (rop == 2 && ty == 3) || (rop == 3 && sd == 31) then illegal s p t r
      else
        let q := n / g
        let rec_ := if rop ≤ 2 then 4 else if rop = 3 then 8 else 8 * k
        let a := 64 * bitsOf w 14 0
        withRegs s p t x r [fVa w] [fMask w]
          ((if useSb then [sb] else []) ++ (if run && !am then (if rop = 3 then [sd, sd + 1] else [sd]) else []))
          (if am && Spc.size .am < a + q * rec_ then badAddress s p t r
           else
            let es := (vElems wid n (x.vreg (fVa w))).map (redElem ty)
            let ms := List.zip es (vMask n (x.mreg (fMask w)))
            let base := if useSb then x.sreg sb else 0
            let res := (List.range q).map fun j => segWords rop ty k base ((ms.drop (g * j)).take g)
            let cnt (j : Nat) : Nat := (((ms.drop (g * j)).take g).filter (·.2)).length
            if am then
              match (if run then x.am.readErr a (q * rec_) else x.am.mergeErr a (q * rec_)) with
              | some e =>
                lineKill s p t r e (Spc.code .am) (if run then x.am.badLine a (q * rec_) else x.am.mergeLine a (q * rec_))
              | none =>
                let out := (List.zip (List.range q) res).map fun jr =>
                  if run then redRun rop ty k (cnt jr.1) (memWords x.am.bytes (a + rec_ * jr.1) (rec_ / 4)) jr.2 else jr.2
                finish s p t { x with am := x.am.write a (wordsBytes out.flatten) false } r
            else
              let st := if rop = 3 then [x.sreg sd, x.sreg (sd + 1)] else [x.sreg sd]
              let new := res.headD []
              let out := if run then redRun rop ty k (cnt 0) st new else new
              let y := x.setS sd (wd out 0)
              finish s p t (if rop = 3 then y.setS (sd + 1) (wd out 1) else y) r))

end Sys2Proof.Machine
end

