-- ==== Sys2Proof/Machine/Grad.lean ====
section
/-! DEFINITION. The gradient stream and the stack vector units: GSEND, GCTL, phase 1 and the groups of SVU kernels (R465 to
R486, R686 to R699). -/

namespace Sys2Proof.Machine

/-! SVU programs (R688 to R692). -/

/-- Registers of one lane: temporaries, outputs, accumulators; inputs and hyper-parameters are sources. -/
structure SvuLane where
  u : List Nat := List.replicate 16 0
  o : List Nat := [0, 0]
  a : List Nat := List.replicate 8 0
  i : List Nat := [0, 0, 0, 0]
  h : List Nat := []
  /-- The accumulators are read-only: phase 2 (R692). -/
  ro : Bool := false
deriving DecidableEq, Repr

/-- The value of an operand code (R688). -/
def SvuLane.src (l : SvuLane) (k : Nat) : Nat :=
  if k < 16 then wd l.u k
  else if k < 20 then wd l.i (k - 16)
  else if k < 32 then wd l.a (k - 24)
  else if k < 48 then wd l.h (k - 32)
  else if k = 51 then 0x3F800000
  else 0

/-- Write an operand code: temporaries, accumulators and outputs. A write to an accumulator of phase 2, where they are read-only
(R692), has no effect (DEDUCED, log entry 135). -/
def SvuLane.put (l : SvuLane) (k v : Nat) : SvuLane :=
  if k < 16 then { l with u := l.u.set k v }
  else if 24 ≤ k && k < 32 then (if l.ro then l else { l with a := l.a.set (k - 24) v })
  else if 48 ≤ k && k < 50 then { l with o := l.o.set (k - 48) v }
  else l

/-- One step (R688, R689). -/
def svuStep (l : SvuLane) (w : Nat) : SvuLane :=
  let d := bitsOf w 26 21
  let va := l.src (bitsOf w 20 15)
  let vb := l.src (bitsOf w 14 9)
  let vc := l.src (bitsOf w 8 3)
  let a := ofF32 va
  let b := ofF32 vb
  match bitsOf w 31 27 with
  | 1 => l.put d (fAdd fp32 0 va vb)
  | 2 => l.put d (fSub fp32 0 va vb)
  | 3 => l.put d (fMul fp32 0 va vb)
  | 4 => l.put d (fFma fp32 0 va vb vc)
  | 5 => l.put d (toF32 (FV.div a b))
  | 6 => l.put d (toF32 (FV.sqrt a))
  | 7 => l.put d (toF32 (FV.min a b))
  | 8 => l.put d (toF32 (FV.max a b))
  | 9 => l.put d (toF32 (FV.abs a))
  | 10 => l.put d (toF32 a)
  | _ => if predHolds (bitsOf w 2 0) (FV.cmp a b) then l.put d (toF32 (ofF32 vc)) else l

/-- Run a program on one lane. -/
def svuRun (prog : List Nat) (l : SvuLane) : SvuLane := prog.foldl svuStep l

/-- Whether a code may be a source. -/
def svuSrcOk (k : Nat) : Bool := k < 20 || (24 ≤ k && k < 48) || k == 50 || k == 51

/-- Whether a code may be a destination. -/
def svuDstOk (k : Nat) : Bool := k < 16 || (24 ≤ k && k < 32) || k == 48 || k == 49

/-- Number of operands that a step reads: A, B, C. -/
def svuReads (op : Nat) : List Nat :=
  if op = 4 || op = 11 then [0, 1, 2] else if op ≤ 3 || op = 5 || op = 7 || op = 8 then [0, 1] else [0]

/-- Whether an operand code is one that R688 lists. -/
def svuCodeOk (k : Nat) : Bool := k < 20 || (24 ≤ k && k < 52)

/-- Whether a step word is refused (R691): reserved OP, a reserved operand code in any field (R10, R688), a code used against R690,
or a PRED of CSEL that R316 does not give (DEDUCED, log entry 35). -/
def svuWordBad (w : Nat) : Bool :=
  let op := bitsOf w 31 27
  let f (i : Nat) : Nat := if i = 0 then bitsOf w 20 15 else if i = 1 then bitsOf w 14 9 else bitsOf w 8 3
  op == 0 || 11 < op || !svuDstOk (bitsOf w 26 21) || [0, 1, 2].any (fun i => !svuCodeOk (f i)) ||
  (svuReads op).any (fun i => !svuSrcOk (f i)) ||
  (op == 11 && bitsOf w 2 0 == 7)

/-- Whether a step names an accumulator (R695). -/
def svuNamesAcc (w : Nat) : Bool :=
  let acc (k : Nat) : Bool := 24 ≤ k && k < 32
  acc (bitsOf w 26 21) || (svuReads (bitsOf w 31 27)).any fun i =>
    acc (if i = 0 then bitsOf w 20 15 else if i = 1 then bitsOf w 14 9 else bitsOf w 8 3)

/-! Layers (R475 to R483). -/

/-- Fields of a layer descriptor. -/
def lyParity (l : List Nat) : Nat := bitsOf (wd l 0) 0 0
/-- MASK_MODE. -/
def lyMask (l : List Nat) : Nat := bitsOf (wd l 0) 31 30
/-- STEP. -/
def lyStep (l : List Nat) : Nat := wd l 1
/-- PLANE0. -/
def lyPlane0 (l : List Nat) : Nat := addr48 l 2
/-- PLANE_SPAN. -/
def lySpan (l : List Nat) : Nat := addr48 l 4
/-- ROWS. -/
def lyRows (l : List Nat) : Nat := wd l 6
/-- ROW_BYTES. -/
def lyRowBytes (l : List Nat) : Nat := wd l 7
/-- STAT_BASE. -/
def lyStat (l : List Nat) : Nat := addr48 l 8
/-- CHUNKS. -/
def lyChunks (l : List Nat) : Nat := bitsOf (wd l 10) 31 16
/-- PROG1 and PROG2. -/
def lyProg (l : List Nat) (two : Bool) : Nat := if two then bitsOf (wd l 11) 15 0 else bitsOf (wd l 11) 31 16
/-- MASK_PTR. -/
def lyMaskPtr (l : List Nat) : Nat := addr48 l 12
/-- HP_PTR. -/
def lyHp (l : List Nat) : Nat := addr48 l 14
/-- Bytes of one plane. -/
def lyBytes (l : List Nat) : Nat := lyRows l * lyRowBytes l
/-- Address of offset o of plane i. -/
def lyAddr (l : List Nat) (i o : Nat) : Nat := lyPlane0 l + i * lySpan l + o

/-- Whether a layer descriptor breaks its table. -/
def lyTableBad (l : List Nat) : Bool :=
  lyMask l == 3 || bitsOf (wd l 0) 29 1 != 0 || [3, 5, 9, 13, 15].any (fun i => bitsOf (wd l i) 31 16 != 0) ||
  lySpan l % 2097152 != 0 || lyRows l == 0 || 2 ^ 24 < lyRows l || lyRowBytes l == 0 || lyRowBytes l % 256 != 0 ||
  lyStat l % 64 != 0 || lyChunks l == 0 || 4096 < lyChunks l || bitsOf (wd l 10) 15 0 != 0

/-- Partition and colour of the frame that holds a mapped 2 MiB page's address; none where it is not in a 2 MiB page. -/
def bigPlace (s : State) (c v a : Nat) : Option (Nat × Nat) :=
  match s.mapOf c v a with
  | none => none
  | some m =>
    match translate s c v a false with
    | .ok (p, d) => if m.big then some (p, d / 2097152 % 3) else none
    | .error _ => none

/-- The first address of each 2 MiB page piece of [a, a + n). -/
def bigPages (a n : Nat) : List Nat :=
  if n = 0 then [] else (List.range ((a + n - 1) / 2097152 - a / 2097152 + 1)).map fun i => max a (2097152 * (a / 2097152 + i))

/-- Whether a layer breaks R475: a page of a plane that is not a 2 MiB page, or planes on other partitions or colours. -/
def lyPlanesBad (s : State) (c v : Nat) (l : List Nat) : Bool :=
  (bigPages (lyPlane0 l) (lyBytes l)).any fun a =>
    let o := a - lyPlane0 l
    let x := bigPlace s c v a
    x.isNone || [1, 2, 3, 4, 5].any fun i => bigPlace s c v (lyAddr l i o) != x

/-- GRAD_LAYER_FAULT for a layer descriptor (R484). Memory of a partition in reset is mapped: an access to it ends as R993 gives. -/
def lyFault (s : State) (p c v : Nat) (l : List Nat) : Bool :=
  let un (a n : Nat) : Bool :=
    match checkRange s p c v a n false with
    | none | some (.targetReset ..) => false
    | some _ => true
  lyTableBad l || lyPlanesBad s c v l || un (lyStat l) (64 * 768 * lyChunks l) || un (lyHp l) 64 ||
  (lyMask l != 0 && un (lyMaskPtr l) (maskBytes (lyMask l) (lyRows l))) ||
  (tabFind (s.ctx c).progs (lyProg l false)).isNone || (tabFind (s.ctx c).progs (lyProg l true)).isNone

/-! GCTL and GSEND. -/

/-- QUERY (R465): the PM address of a tensor's current buffer. -/
def gQuery (x : Tile) (r : Run) (t : Nat) : Nat :=
  let pick (b : Nat × Nat) (one : Bool) : Nat := if one then b.2 else b.1
  let sel := x.sel.contains t
  if r.gnamed.contains t then pick (tabGet (0, 0) r.gbufs t) (!sel)
  else if x.live.contains t then pick (tabGet (0, 0) x.gbuf t) sel
  else 0xFFFFFFFF

/-- GCTL with FN 0 or a reserved FN (R344, R465, R484). -/
def execGctlQuery (p : Fin 8) (t : Fin 16) (s : State) : Host.Outcome State Fault Refusal :=
  next (issue s p t 0x52 fun x r w =>
    if bitsOf w 14 13 = 1 then s
    else if bitsOf w 55 15 != 0 then failTile s p t r 0x3270 [bitsOf w 7 0]
    else if bitsOf w 14 13 != 0 then illegal s p t r
    else finish s p t (x.setS (bitsOf w 12 8) (gQuery x r (bitsOf w 7 0))) r)

/-- GCTL with FN 1: LIVE becomes 0 at the kernel's commit (R465). -/
def execGctlRelease (p : Fin 8) (t : Fin 16) (s : State) : Host.Outcome State Fault Refusal :=
  next (issue s p t 0x52 fun x r w =>
    if bitsOf w 14 13 != 1 then s
    else if bitsOf w 55 15 != 0 then failTile s p t r 0x3270 [bitsOf w 7 0]
    else finish s p t x { r with greleased := setIns r.greleased (bitsOf w 7 0) })

/-- GRAD_INVALID of a GSEND descriptor by its own fields (R467, R484); `src` is the source address. -/
def gsendBad (d : List Nat) (src : Nat) : Bool :=
  let rows := bitsOf (wd d 3) 31 16
  let cols := bitsOf (wd d 3) 15 0
  let ld := bitsOf (wd d 2) 19 0
  let mode := bitsOf (wd d 0) 30 29
  let ma := bitsOf (wd d 8) 20 0
  bitsOf (wd d 0) 28 8 != 0 || bitsOf (wd d 1) 31 20 != 0 || bitsOf (wd d 2) 31 20 != 0 || bitsOf (wd d 5) 31 16 != 0 ||
  bitsOf (wd d 8) 31 21 != 0 || bitsOf (wd d 9) 31 12 != 0 || (d.drop 10).any (· != 0) || mode == 3 ||
  ma % 4 != 0 || (mode != 0 && Spc.size .am < ma + maskBytes mode rows) ||
  (bitOf (wd d 0) 31 && src == 0xFFFFFFFF) || src % 64 != 0 || ld % 64 != 0 ||
  rows == 0 || 8192 < rows || cols % 64 != 0 || cols == 0 || 16384 < cols || wd d 7 % 64 != 0 ||
  Spc.size .pm < src + (rows - 1) * ld + 4 * cols

/-- Event data of the gradient path: tile, layer descriptor address, chunk. -/
def gradData (t : Nat) (d : List Nat) : List Nat := [t, addr48 d 4 % 2 ^ 32, addr48 d 4 / 2 ^ 32, bitsOf (wd d 9) 11 0]

/-- GSEND (R467 to R473, R484). -/
def execGsend (p : Fin 8) (t : Fin 16) (s : State) : Host.Outcome State Fault Refusal :=
  next (gate s <| issue s p t 0x51 fun x r w =>
    if bitsOf w 55 15 != 0 then illegal s p t r
    else if maxDma ≤ x.dq.length then s
    else
      let a := 64 * bitsOf w 14 0
      match x.am.readErr a 64 with
      | some e => lineKill s p t r e (Spc.code .am) (a / 64)
      | none =>
        let d := memWords x.am.bytes a 16
        let src := if bitOf (wd d 0) 31 then gQuery x r (bitsOf (wd d 0) 7 0) else bitsOf (wd d 1) 19 0
        let bad (s : State) : State := failNode s p r.inst 0x3270 (gradData t d)
        if gsendBad d src then bad s
        else
          let ma := bitsOf (wd d 8) 20 0
          let mn := maskBytes (bitsOf (wd d 0) 30 29) (bitsOf (wd d 3) 31 16)
          match x.am.readErr ma mn with
          | some e => lineKill s p t r e (Spc.code .am) (x.am.badLine ma mn)
          | none =>
            let fault (s : State) : State := failNode s p r.inst 0x3271 (gradData t d)
            let poison (s : State) : State := failNode s p r.inst 0x2272 (gradData t d)
            match kvRead s p r.inst r.ctx r.mapVer (addr48 d 4) 64 t with
            | .error (.other e, s1) => accKill s1 p r.inst e
            | .error (.closed, s1) => regDisabled s1 p r.inst
            | .error (.poison _, s1) => poison s1
            | .error (_, s1) => fault s1
            | .ok (lb, s1) =>
              let l := bytesWords 16 lb
              if lyFault s1 p r.ctx r.mapVer l then fault s1
              else if lyChunks l ≤ bitsOf (wd d 9) 11 0 || lyRows l < wd d 6 + bitsOf (wd d 3) 31 16 ||
                  lyRowBytes l < 4 * (wd d 7 + bitsOf (wd d 3) 15 0) then bad s1
              else
                match kvRead s1 p r.inst r.ctx r.mapVer (lyHp l) 64 t with
                | .error (.other e, s2) => accKill s2 p r.inst e
                | .error (.closed, s2) => regDisabled s2 p r.inst
                | .error (.poison _, s2) => poison s2
                | .error (_, s2) => fault s2
                | .ok (hb, s2) =>
                  let job := DmaJob.gsend d l (bytesWords 16 hb) (memRead x.am.bytes ma mn) src 0
                  finish s2 p t { s2.tile p t with dq := x.dq ++ [{ job }] } r)

/-- Element k of a GSEND: row and column among the trained rows (R468); none when all are sent. -/
def gsendElem (d : List Nat) (mask : List Byte) (k : Nat) : Option (Nat × Nat) :=
  let cols := bitsOf (wd d 3) 15 0
  let rows := (List.range (bitsOf (wd d 3) 31 16)).filter (trainedRow (bitsOf (wd d 0) 30 29) mask)
  match rows[k / cols]? with
  | some r => some (r, k % cols)
  | none => none

/-- SVU number of a place: 32 × stack + pseudo-channel (R477). -/
def svuOf (p dpa : Nat) : Nat := let x := hbmPlace p dpa; 32 * x.1 + x.2.1

/-- Read one FP32 word of the layer state: its value, or none where it is poisoned. -/
def svuWord (s : State) (p c v a : Nat) : Except (AccErr × State) (Option Nat × State) :=
  match readDva s p c v a 4 16 with
  | .error e => .error e
  | .ok (bs, s1) => .ok (if bs.any (·.2) then none else some (leNat (bs.map (·.1))), s1)

/-- Read several words of device memory; an unmapped address stops, none marks poison. -/
def svuWords (s : State) (p c v : Nat) : List Nat → Except (AccErr × State) (Option (List Nat) × State)
  | [] => .ok (some [], s)
  | a :: l =>
    match svuWord s p c v a with
    | .error e => .error e
    | .ok (none, s1) => .ok (none, s1)
    | .ok (some x, s1) =>
      match svuWords s1 p c v l with
      | .error e => .error e
      | .ok (none, s2) => .ok (none, s2)
      | .ok (some xs, s2) => .ok (some (x :: xs), s2)

/-- The affected data of a gradient element that a bad line of PM holds: the moments that phase 1 would have written become poisoned
(R209, R485). -/
def poisonMoments (s : State) (p c v : Nat) (l : List Nat) (o : Nat) : State :=
  [4 - 3 * lyParity l, 5 - 3 * lyParity l].foldl (fun s pl =>
    match writeDva s p c v (lyAddr l pl o) (poisoned 4) with
    | .ok s1 => s1
    | .error _ => s) s

/-- Phase 1 on one element (R470, R476, R477, R485, R486). -/
def phase1 (w : Who) (s : State) (i : Nat) (e : DmaEnt) (d l hp : List Nat) (mask : List Byte) (src k row col : Nat) : State :=
  let x := s.tile w.p w.t
  let pa := src + row * bitsOf (wd d 2) 19 0 + 4 * col
  let c := w.r.ctx
  let v := w.r.mapVer
  let P := lyParity l
  let o := (wd d 6 + row) * lyRowBytes l + 4 * (wd d 7 + col)
  match x.pm.readErr pa 4 with
  | some er => lineKill (poisonMoments s w.p c v l o) w.p w.t w.r er (Spc.code .pm) (pa / 64)
  | none =>
    match translate s c v (lyAddr l (3 * P) o) false with
    | .error er => accKill s w.p w.r.inst er
    | .ok (q, dpa) =>
      if q != w.p && closedFor (s.part w.p) 1 w.r.inst then regDisabled s w.p w.r.inst
      else
        let s0 := if q = w.p then s else charge s w.p 1 4
        match svuWords s0 w.p c v [lyAddr l (3 * P) o, lyAddr l (3 * P + 1) o, lyAddr l (3 * P + 2) o] with
        | .error (er, s1) => accKill s1 w.p w.r.inst er
        | .ok (none, s1) => failNode s1 w.p w.r.inst 0x2272 (gradData w.t d)
        | .ok (some ins, s1) =>
          let sv := svuOf q dpa
          let lane := (wd d 7 + col) % 32
          let acc := tabGet (List.replicate 256 0) e.acc sv
          let lane0 : SvuLane := { a := (List.range 8).map (fun j => wd acc (32 * j + lane)),
                                   i := memWord x.pm.bytes pa :: ins, h := hp }
          let r := svuRun (tabGet [] (s1.ctx c).progs (lyProg l false)) lane0
          let acc1 := (List.range 8).foldl (fun a j => a.set (32 * j + lane) (wd r.a j)) acc
          let wr (s : State) (pl v' : Nat) : Except AccErr State := writeDva s w.p c v (lyAddr l pl o) (good (natLe 4 v'))
          match wr s1 (4 - 3 * P) (wd r.o 0) with
          | .error er => accKill s1 w.p w.r.inst er
          | .ok s2 =>
            match wr s2 (5 - 3 * P) (wd r.o 1) with
            | .error er => accKill s2 w.p w.r.inst er
            | .ok s3 =>
              let y := s3.tile w.p w.t
              let e1 : DmaEnt := { e with job := .gsend d l hp mask src (k + 1), acc := tabSet e.acc sv acc1 }
              s3.setTile w.p w.t { y with dq := y.dq.set i e1 }

/-- Whether an entry is an active GSEND with an element left. -/
def DmaEnt.sends (e : DmaEnt) : Bool :=
  e.active && match e.job with
    | .gsend d _ _ mask _ k => (gsendElem d mask k).isSome
    | _ => false

/-- SVU_PHASE1_ELEMENT: the next element of the tile's oldest active GSEND reaches its SVU, unless a regulator holds it (R469, R611). -/
def execSvuPhase1Element (p : Fin 8) (t : Fin 16) (s : State) : Host.Outcome State Fault Refusal :=
  let x := s.tile p t
  next (gate s <| if (s.part p).frozen then s else match x.run, x.dq.findIdx? DmaEnt.sends with
    | some r, some i =>
      let e := x.dq.getD i { job := .desc [] 0 0 }
      match e.job with
      | .gsend d l hp mask src k =>
        match gsendElem d mask k with
        | some (row, col) => phase1 ⟨p, t, r, x⟩ s i e d l hp mask src k row col
        | none => s
      | _ => s
    | _, _ => s)

/-- The eight totals of an SVU: 32 lanes by the tree of R330. -/
def statTotals (acc : List Nat) : List Nat :=
  (List.range 8).map fun j => pairTree (fAdd fp32 0) 6 ((List.range 32).map fun i => wd acc (32 * j + i))

/-- 28 free bytes of a statistics entry beyond its nine words (DESIGN CHOICE, log entry 17). -/
def freeTail (k : Nat) : List Byte := (freeLine k).take 28

/-- GSEND_RETIRE: the oldest entry of the queue is a GSEND whose elements have all run; each SVU it reached writes its
statistics entry (R473, R477). -/
def execGsendRetire (p : Fin 8) (t : Fin 16) (s : State) : Host.Outcome State Fault Refusal :=
  let x := s.tile p t
  next (gate s <| if (s.part p).frozen || owes s p [0, 1] then s else match x.run, x.dq with
    | some r, e :: rest =>
      match e.job with
      | .gsend d l _ mask _ k =>
        if !e.active || (gsendElem d mask k).isSome then s
        else
          let w : Who := ⟨p, t, r, x⟩
          let m := e.acc.foldl (fun (m : Mv) sv => m.bind fun s =>
            let a := lyStat l + 64 * (768 * bitsOf (wd d 9) 11 0 + sv.1)
            let f := freeTail s.free
            match writeHbm { s with free := s.free + 1 } w.p r.ctx r.mapVer a
                (good (wordsBytes (statTotals sv.2 ++ [lyStep l]) ++ f)) with
            | .error er => ⟨s, some (.acc er)⟩
            | .ok s1 => ⟨s1, none⟩) ⟨s, none⟩
          match m.err with
          | some er => dmaStop w m.s er fun _ => gradData t d
          | none => m.s.setTile p t (Tile.touch { m.s.tile p t with dq := rest } (s.part p).count)
      | _ => s
    | _, _ => s)

/-! SVU kernels (R479 to R482, R693 to R699). -/

/-- The instance is a dispatched SVU kernel. -/
def Inst.svu (i : Inst) : Bool := i.ty == 0 && bitOf (wd i.words 6) 31

/-- LAYER mode. -/
def svuIsLayer (d : List Nat) : Bool := bitsOf (wd d 0) 31 30 == 1
/-- Bytes per element of a STREAM. -/
def svuElem (d : List Nat) : Nat := if !svuIsLayer d && bitOf (wd d 0) 28 then 2 else 4
/-- Groups of 32 elements in a 256-byte unit. -/
def svuPerUnit (d : List Nat) : Nat := 256 / (32 * svuElem d)
/-- Bytes that an SVU kernel walks. -/
def svuBytes (i : Inst) : Nat := if svuIsLayer i.svuDesc then lyBytes i.svuLayer else wd i.svuDesc 1
/-- The address whose place decides the SVU of offset o. -/
def svuLead (i : Inst) (o : Nat) : Nat :=
  if svuIsLayer i.svuDesc then lyAddr i.svuLayer 0 o
  else if bitsOf (wd i.svuDesc 0) 23 20 = 0 then addr48 i.svuDesc 12 + o
  else addr48 i.svuDesc 4 + o

/-- The SVU of partition p that handles the 256-byte unit at offset o; none where it lies elsewhere (R694, R696). -/
def svuUnit (s : State) (p : Nat) (i : Inst) (o : Nat) : Option Nat :=
  match translate s i.ctx i.mapVer (svuLead i o) false with
  | .ok (q, d) => if q = p then some (svuOf q d) else none
  | .error _ => none

/-- The offsets of 256-byte units of an SVU on partition p, ascending (R694). -/
def svuUnits (s : State) (p : Nat) (i : Inst) (sv : Nat) : List Nat :=
  ((List.range (svuBytes i / 256)).map (256 * ·)).filter fun o => svuUnit s p i o == some sv

/-- Groups that the kernel has in all on partition p. -/
def svuTotal (s : State) (p : Nat) (i : Inst) : Nat :=
  svuPerUnit i.svuDesc * (((List.range (svuBytes i / 256)).map (256 * ·)).filter fun o => (svuUnit s p i o).isSome).length

/-- Groups done in all. -/
def svuDoneAll (i : Inst) : Nat := i.svuDone.foldl (fun a e => a + e.2) 0

/-- Widen an element of a stream to FP32 (R694). -/
def svuIn (d : List Nat) (x : Nat) : Nat := if svuElem d = 2 then toF32 (bf16.decode x) else x

/-- Narrow a result to the element of a stream (R694). -/
def svuOut (d : List Nat) (x : Nat) : Nat := if svuElem d = 2 then (bf16.encode 0 false (ofF32 x)).1 else x

/-- Read n elements of `wid` bytes from a stream; none where a line is poisoned. -/
def svuElems (s : State) (p : Nat) (i : Inst) (a wid n : Nat) : Except (AccErr × State) (Option (List Nat) × State) :=
  match readDva s p i.ctx i.mapVer a (wid * n) 16 with
  | .error e => .error e
  | .ok (bs, s1) =>
    .ok (if bs.any (·.2) then none else some ((List.range n).map fun j => leNat (((bs.drop (wid * j)).take wid).map (·.1))), s1)

/-- Several streams, or poison. -/
def svuStreams (s : State) (p : Nat) (i : Inst) (wid n : Nat) :
    List Nat → Except (AccErr × State) (Option (List (List Nat)) × State)
  | [] => .ok (some [], s)
  | a :: l =>
    match svuElems s p i a wid n with
    | .error e => .error e
    | .ok (none, s1) => .ok (none, s1)
    | .ok (some x, s1) =>
      match svuStreams s1 p i wid n l with
      | .error e => .error e
      | .ok (none, s2) => .ok (none, s2)
      | .ok (some xs, s2) => .ok (some (x :: xs), s2)

/-- Whether row `row` of a layer is trained by its mask in device memory (R454, R481); none where the mask reads poisoned. The read
counts where it crosses dies (R607). -/
def lyTrained (s : State) (p : Nat) (i : Inst) (row : Nat) : Except (AccErr × State) (Option Bool × State) :=
  let l := i.svuLayer
  if lyMask l = 0 then .ok (some true, s)
  else
    let b := if lyMask l = 1 then row else row / 32
    match readHbm s p i.ctx i.mapVer (lyMaskPtr l + b / 8) 1 16 with
    | .error e => .error e
    | .ok (bs, s1) =>
      .ok (match bs with
        | [(x, false)] => some (bitOf x.toNat (b % 8))
        | _ => none, s1)

/-- The addresses of the input streams of the group at offset o. -/
def svuInputs (i : Inst) (o : Nat) : List Nat :=
  (List.range (bitsOf (wd i.svuDesc 0) 23 20)).map fun j => addr48 i.svuDesc (4 + 2 * j) + o

/-- The address of the first poisoned byte of a group's inputs (R698, R702). -/
def poisonedInput (s : State) (p : Nat) (i : Inst) (o : Nat) : Nat :=
  ((svuInputs i o).findSome? fun a =>
    match readDva s p i.ctx i.mapVer a (32 * svuElem i.svuDesc) 16 with
    | .ok (bs, _) => if bs.any (·.2) then some (poisonAt a bs) else none
    | .error _ => none).getD (svuLead i o)

/-- The group of 32 elements at offset o: the kernel's writes of it, none where an input reads poisoned. -/
def svuGroup (s : State) (p : Nat) (i : Inst) (o : Nat) : Except (AccErr × State) (Option (List (Nat × List Byte)) × State) :=
  let d := i.svuDesc
  let l := i.svuLayer
  if svuIsLayer d then
    let P := lyParity l
    match lyTrained s p i (o / lyRowBytes l) with
    | .error e => .error e
    | .ok (none, s1) => .ok (none, s1)
    | .ok (some false, s1) =>
      match svuStreams s1 p i 4 32 ((List.range 3).map fun j => lyAddr l (3 * P + j) o) with
      | .error e => .error e
      | .ok (none, s2) => .ok (none, s2)
      | .ok (some xs, s2) =>
        .ok (some ((List.zip (List.range 3) xs).map fun x => (lyAddr l (3 - 3 * P + x.1) o, wordsBytes x.2)), s2)
    | .ok (some true, s1) =>
      match svuStreams s1 p i 4 32 [lyAddr l (3 * P) o, lyAddr l (4 - 3 * P) o, lyAddr l (5 - 3 * P) o] with
      | .error e => .error e
      | .ok (none, s2) => .ok (none, s2)
      | .ok (some xs, s2) =>
        let prog := tabGet [] (s.ctx i.ctx).progs (lyProg l true)
        let outs := (List.range 32).map fun j =>
          wd (svuRun prog { a := i.svuTot, i := 0 :: xs.map (wd · j), h := i.svuHp, ro := true }).o 0
        .ok (some [(lyAddr l (3 - 3 * P) o, wordsBytes outs)], s2)
  else
    let wid := svuElem d
    match svuStreams s p i wid 32 (svuInputs i o) with
    | .error e => .error e
    | .ok (none, s1) => .ok (none, s1)
    | .ok (some xs, s1) =>
      let prog := tabGet [] (s.ctx i.ctx).progs (bitsOf (wd d 0) 15 0)
      let lanes := (List.range 32).map fun j =>
        svuRun prog { i := (List.range 4).map fun k => svuIn d (wd (xs.getD k []) j), h := i.svuHp }
      .ok (some ((List.range (bitsOf (wd d 0) 19 16)).map fun k =>
        (addr48 d (12 + 2 * k) + o, lanes.flatMap fun q => natLe wid (svuOut d (wd q.o k)))), s1)


/-- The SVU that the next element of a tile's oldest active GSEND goes to. -/
def Tile.nextSvu (s : State) (x : Tile) : Option Nat :=
  match x.run, x.dq.find? DmaEnt.sends with
  | some r, some e =>
    match e.job with
    | .gsend d l _ mask _ k =>
      match gsendElem d mask k with
      | some (row, col) =>
        let o := (wd d 6 + row) * lyRowBytes l + 4 * (wd d 7 + col)
        match translate s r.ctx r.mapVer (lyAddr l (3 * lyParity l) o) false with
        | .ok (q, dpa) => some (svuOf q dpa)
        | .error _ => none
      | none => none
    | _ => none
  | _, _ => none

/-- Whether phase-1 work waits for an SVU: an element on its way there, of a group that has begun or is to begin (R699). -/
def phase1Waits (s : State) (sv : Nat) : Bool :=
  s.tiles.any fun e => !(s.part (e.1 / 16)).frozen && e.2.nextSvu s == some sv

/-- The first write of a group to a page that may not be written (R665). -/
def groupFault (s : State) (p : Nat) (i : Inst) (ws : List (Nat × List Byte)) : Option AccErr :=
  ws.findSome? fun w => checkRange s p i.ctx i.mapVer w.1 w.2.length true

/-- SVU_STREAM_GROUP: SVU `sv` runs its next group of a dispatched SVU kernel (R481, R486, R694, R696, R698), once no phase-1 work
waits for it (R699), unless a regulator holds the read of a row mask (R607). A write to a page without WRITABLE is a translation
fault (R665). -/
def execSvuStreamGroup (p : Fin 8) (inst : Nat) (svu : Fin 768) (s : State) : Host.Outcome State Fault Refusal :=
  next (gate s <| if (s.part p).frozen then s else match s.inst? p inst with
    | none => s
    | some i =>
      if !i.svu || i.st != .running || i.ended || phase1Waits s svu then s
      else
        let k := tabGet 0 i.svuDone svu
        let per := svuPerUnit i.svuDesc
        match (svuUnits s p i svu)[k / per]? with
        | none => s
        | some u =>
          let o := u + k % per * (32 * svuElem i.svuDesc)
          match svuGroup s p i o with
          | .error (e, s1) => accKill s1 p inst e
          | .ok (none, s1) =>
            if svuIsLayer i.svuDesc then
              failNode s1 p inst 0x2272 [svu, addr48 i.svuDesc 4 % 2 ^ 32, addr48 i.svuDesc 4 / 2 ^ 32, 0]
            else failNode s1 p inst 0x22A6 (i.dvaData (poisonedInput s1 p i o) 0)
          | .ok (some ws, s1) =>
            match groupFault s1 p i ws with
            | some e => accKill s1 p inst e
            | none =>
              let j := { i with svuDone := tabSet i.svuDone svu (k + 1), svuOut := i.svuOut ++ ws }
              s1.setInst p inst { j with ended := svuTotal s1 p j ≤ svuDoneAll j })

end Sys2Proof.Machine
end

