-- ==== Sys2Proof/Machine/Commit.lean ====
section
/-! DEFINITION. The commit phase of a node (R528 to R532, R1115): publications and writes, fabric transfers, their
acknowledgements, PCIe writes, fences, record, interrupt and releases; the acknowledgement of a fabric transfer. -/

namespace Sys2Proof.Machine

/-! Fields of SIGNAL, SEND and EPOCH bodies. -/

/-- S_TARGET. -/
def Inst.sTarget (i : Inst) : Nat := bitsOf (wd i.words 6) 31 30
/-- Bytes of a SIGNAL write. -/
def Inst.sBytes (i : Inst) : Nat := if bitOf (wd i.words 6) 27 then 8 else 4
/-- A fabric SIGNAL or a SEND: DEST_MODULE. -/
def Inst.destModule (i : Inst) : Nat := bitsOf (wd i.words 7) 31 19
/-- SD_OP. -/
def Inst.sdOp (i : Inst) : Nat := bitsOf (wd i.words 6) 31 30
/-- RTAG of an ADD. -/
def Inst.rtag (i : Inst) : Nat := if i.sdOp = 0 then 0 else wd64 i.words 10 / 2 ^ 48
/-- LENGTH of a SEND or COPY. -/
def Inst.length (i : Inst) : Nat := wd i.words 12
/-- A SEND that is an arm (R804). -/
def Inst.isArm (s : State) (i : Inst) : Bool := i.ty == 7 && i.rtag != 0 && i.destModule == s.moduleId

/-! Step 1: publications and device-memory writes. -/

/-- The sequences for which some tile of the kernel requested a publication. -/
def pubSeqs (i : Inst) : List Nat := i.pubs.foldl (fun l e => e.2.foldl (fun l f => setIns l f.1) l) []

/-- The requests for one sequence, by ascending tile. -/
def pubsOf (i : Inst) (seq : Nat) : List Pub := i.pubs.filterMap fun e => tabFind e.2 seq

/-- The LEN that the commit publishes: the smallest request (R428). -/
def pubLen (ps : List Pub) : Nat :=
  match ps with
  | [] => 0
  | x :: l => l.foldl (fun a y => min a y.len) x.len

/-- Tiles asked for different values (R428). -/
def pubConflict (ps : List Pub) : Bool := ps.any fun x => ps.any fun y => x.len != y.len

/-- The lowest-numbered tile that requested the value written, and the group of its counting request (R427, R1114). -/
def pubWinner (i : Inst) (seq : Nat) : Nat × Nat :=
  match i.pubs.find? (fun e => (tabFind e.2 seq).any fun x => x.len == pubLen (pubsOf i seq)) with
  | some e => (e.1, ((tabFind e.2 seq).map (·.group)).getD 0)
  | none => (0, 0)

/-- A commit-phase write to device memory; it cannot fault (R1109). Its bytes count where they cross dies, but for those of a SIGNAL
(`counted` false; R607, R608). -/
def commitWrite (s : State) (p : Nat) (i : Inst) (counted : Bool) (dva : Nat) (bs : List Byte) : State :=
  match writeDva s p i.ctx i.mapVer dva (good bs) with
  | .ok s1 => if counted then chargeHbm s1 p i.ctx i.mapVer dva bs.length else s1
  | .error _ => s

/-- The publications of a kernel (R425 to R429, R1114). DEDUCED, log entry 114. -/
def publish (s : State) (p n : Nat) (i : Inst) : State :=
  (pubSeqs i).foldl (fun s seq =>
    let ps := pubsOf i seq
    let s1 := commitWrite s p i true seq (natLe 4 (pubLen ps))
    if pubConflict ps then
      let t := pubWinner i seq
      nodeEvent s1 p n 0x1263 (kvData t.1 seq t.2 (pubLen ps))
    else s1) s

/-- The writes of an SVU kernel become visible (R699), and the layer descriptor is written where FLIP is set (R482). -/
def svuCommit (s : State) (p : Nat) (i : Inst) : State :=
  let s1 := i.svuOut.foldl (fun s w => commitWrite s p i true w.1 w.2) s
  if svuIsLayer i.svuDesc && bitOf (wd i.svuDesc 0) 29 then
    let w0 := wd i.svuLayer 0
    let flip := if w0 % 2 = 0 then w0 + 1 else w0 - 1
    commitWrite s1 p i true (addr48 i.svuDesc 4) (wordsBytes [flip, (lyStep i.svuLayer + 1) % 2 ^ 32])
  else s1

/-- Step 1 of R530. -/
def commitStep1 (s : State) (p n : Nat) (i : Inst) : State :=
  let s1 := i.writes.foldl (fun s w => commitWrite s p i true w.dva (natLe w.width w.value)) s
  if i.ty = 0 then (if i.svu then svuCommit s1 p i else publish s1 p n i)
  else if i.ty = 3 && i.sTarget = 3 then
    commitWrite s1 p i false (wd64 i.words 8) (natLe i.sBytes (wd64 i.words 10))
  else s1

/-! Step 2: fabric transfers. -/

/-- The packets of a SEND that is no arm: its data in ascending pieces (R778), then the remote fence (R520). -/
def sendPackets (i : Inst) : List Packet :=
  let w6 := wd i.words 6
  let w7 := wd i.words 7
  let dst := wd64 i.words 10 % 2 ^ 48
  let data := i.staged.getD []
  let base : Packet :=
    { ptype := if i.sdOp = 0 then 0 else 1, tc := bitsOf w6 29 28, dstDie := bitsOf w6 15 13, dstSpace := bitsOf w6 21 20,
      dstTile := bitsOf w6 19 16, destModule := i.destModule, destCtx := bitsOf w7 18 13,
      op := if i.sdOp = 2 then 1 else 0, status := bitsOf (wd i.words 13) 7 0, rtag := i.rtag }
  let ps := (splitAt4k dst i.length).map fun x =>
    { base with len := x.2 / 4, addrHi := (dst + x.1) / 2 ^ 32 % 65536, addrLo := (dst + x.1) % 2 ^ 32,
                data := (data.drop x.1).take x.2 }
  if bitOf w7 12 then
    let v := wd64 i.words 14 % 2 ^ 63
    ps ++ [{ base with ptype := 2, op := 0, len := 0, dstSpace := 0, dstTile := 0, addrHi := bitsOf w7 11 0,
                       addrLo := v % 2 ^ 32, low := v / 2 ^ 32 % 65536, rtag := v / 2 ^ 48 }]
  else ps

/-- The packet of a fabric fence SIGNAL (R800). -/
def signalPacket (i : Inst) : Packet :=
  let w6 := wd i.words 6
  let v := wd64 i.words 10
  { ptype := 2, tc := bitsOf w6 25 24, destModule := i.destModule, destCtx := bitsOf w6 21 16, op := bitsOf w6 29 28,
    status := bitsOf (wd i.words 7) 7 0, addrHi := bitsOf w6 11 0,
    addrLo := v % 2 ^ 32, low := v / 2 ^ 32 % 65536, rtag := v / 2 ^ 48 % 2 ^ 15 }

/-- Data of a fabric event about node i of partition p, whose packets go to module m (R822). -/
def fabNode (s : State) (p : Nat) (i : Inst) (m st : Nat) : List Nat :=
  fabData ((s.routePort m).getD 6) p st m i.ctx (i.seg + 65536 * i.idx)

/-- Log FAB_SEND_NACK for the statuses of a commit's transfers (R798). -/
def sendNacks (s : State) (p n : Nat) (i : Inst) (sts : List Nat) : State :=
  sts.foldl (fun s st => nodeEvent s p n 0x22C4 (fabNode s p i i.destModule st)) s

/-- Step 2 of R530: the state with the transfers released. -/
def commitStep2 (s : State) (p n : Nat) (i : Inst) : State :=
  let isSend := i.ty == 7
  let isSig := i.ty == 3 && i.sTarget == 1
  if i.isArm s then
    let P := s.part p
    let a : Arm := { inst := n, ctx := i.ctx, rtag := i.rtag, bf16 := i.sdOp == 2, base := wd64 i.words 10 % 2 ^ 48,
                     data := i.staged.getD [] }
    let s1 := s.setPart p { P with arms := tabSet P.arms P.nextArm a, nextArm := P.nextArm + 1 }
    activateArms (s1.modInst p n fun j => { j with arm := some P.nextArm, sentAt := P.count }) p
  else if isSend || isSig then
    let qs := if isSend then sendPackets i else [signalPacket i]
    let r := sendAll s p n false i qs
    let s1 := r.1.modInst p n fun j =>
      { j with acks := r.2.1, unsent := unsentOf s p qs, ackBad := r.2.2 != [], sentAt := (s.part p).count }
    sendNacks s1 p n i r.2.2
  else s

/-! Steps 4 to 8. -/

/-- Raise MSI-X vector v of function k (R869, R870). -/
def raiseVector (s : State) (k v : Nat) : State :=
  let f := s.fn k
  if !f.msixEn then s
  else
    let e : Vec := tabGet {} f.vecs v
    if f.msixMask || e.masked then s.setFn k { f with vecs := tabSet f.vecs v { e with pending := true } }
    else s.post 0 e.addr (natLe 4 e.data) false

/-- Raise the map generation of every partition of a context (R659). -/
def bumpMaps (s : State) (c : Nat) : State :=
  (s.ctx c).parts.foldl (fun s p => s.setPart p { s.part p with mapGen := (s.part p).mapGen + 1 }) s

/-- A context with generation g of binding b bound on partition p from mapping version v on, or the binding unbound there where g
is 0 (R726, R741, R745). DESIGN CHOICE, log entry 42. -/
def Ctx.bindPart (x : Ctx) (b g v p : Nat) : Ctx :=
  let B := tabGet {} x.bindings b
  let at_ := B.window + p * B.span
  let maps := x.maps.map fun m => if m.handle = 0 && m.dva = at_ && m.died = none then { m with died := some v } else m
  let units := match tabFind B.gens g with | some w => tabGet [] w.units p | none => []
  let new : List Mapping :=
    if g = 0 || units = [] then [] else [{ dva := at_, units, big := true, writable := false, part := p, handle := 0, born := v }]
  let gens := tabMap B.gens fun k w =>
    { w with bound := if k = g then setIns w.bound p else setDel w.bound p, unbinding := setDel w.unbinding p }
  { x with mapVer := v, maps := maps ++ new, bindings := tabSet x.bindings b { B with gens } }

/-- Bind generation g of binding b on the partitions ps of context c, or unbind where g is 0: the mappings of the window parts
change in one step, at the next mapping version (R659). -/
def bindWindows (s : State) (c b g : Nat) (ps : List Nat) : State :=
  let x := s.ctx c
  if ps = [] then s
  else bumpMaps (s.setCtx c (ps.foldl (fun y p => y.bindPart b g (x.mapVer + 1) p) x)) c

/-- The same for one partition. -/
def bindWindow (s : State) (c b g p : Nat) : State := bindWindows s c b g [p]

/-! Command boundaries: the moment between the commit of one command and the dispatch of the next on a partition. -/

/-- A new page table takes effect (R404). -/
def boundaryTables (s : State) (p : Nat) : State :=
  (s.ctxsOn p).foldl (fun s c =>
    let x := s.cp c p
    match x.ptNext with
    | some t => s.setCp c p { x with pt := some t, ptNext := none }
    | none => s) s

/-- A revoked grant ends once every partition has passed a boundary (R583). -/
def boundaryGrants (s : State) (p : Nat) : State :=
  { s with ctxs := tabMap s.ctxs fun _ x =>
      { x with grants := (x.grants.map fun g => { g with revoked := g.revoked.map (setDel · p) }).filter fun g =>
                 g.revoked != some [] } }

/-- New regulator settings: a RATE above 0 waits for the next refill (R615), RATE 0 closes the resource for nodes dispatched
from here on (R616). -/
def boundaryRegs (P : Part) : Part :=
  let running := (P.insts.filter fun e => !e.2.st.resolved && e.2.firstAt.isSome).map (·.1)
  { P with regs := tabMap P.regs fun _ r =>
      match r.next with
      | none => r
      | some (rate, burst) =>
        if rate = 0 then { r with next := none, armed := some (0, burst), closed := true, closing := running }
        else { r with next := none, armed := some (rate, burst) } }

/-- Weight windows that a drop unbinds (R741). -/
def boundaryUnbind (s : State) (p : Nat) : State :=
  s.ctxs.foldl (fun s ce => ce.2.bindings.foldl (fun s be =>
    if be.2.gens.any fun ge => ge.2.unbinding.contains p then bindWindow s ce.1 be.1 0 p else s) s) s

/-- What takes effect at a command boundary of partition p. DEDUCED, log entry 38. -/
def boundary (s : State) (p : Nat) : State :=
  let s1 := boundaryUnbind (boundaryGrants (boundaryTables s p) p) p
  let off := [0, 1, 2, 3, 4, 5].filter fun k => (s1.port k).disable
  s1.setPart p { boundaryRegs (s1.part p) with portOff := off }

/-- Whether partition p has no command between its dispatch and its commit: it stands at a boundary. -/
def atBoundary (s : State) (p : Nat) : Bool :=
  !(s.part p).insts.any fun e => e.2.st == .running || e.2.st == .committing

/-- A boundary, where partition p stands at one. -/
def boundaryIfIdle (s : State) (p : Nat) : State := if atBoundary s p then boundary s p else s

/-- The generation of binding b bound on partition p, 0 for none. -/
def boundGen (x : Ctx) (b p : Nat) : Nat :=
  match (tabGet {} x.bindings b).gens.find? fun e => e.2.bound.contains p with
  | some e => e.1
  | none => 0

/-- An EPOCH's remap (R745, R746). -/
def epochRemap (s : State) (p : Nat) (i : Inst) : State :=
  let b := bitsOf (wd i.words 6) 15 0
  let g := wd i.words 7
  if boundGen (s.ctx i.ctx) b p = g then s else bindWindow s i.ctx b g p

/-- The context that a local SIGNAL names is gone or carries another epoch than at dispatch (R1115). -/
def signalStale (s : State) (i : Inst) : Bool :=
  match i.grant with
  | none => false
  | some (c, e) => (s.ctx c).st == .free || (s.ctx c).st == .zeroing || (s.ctx c).epoch != e

/-- The fence operation of a local SIGNAL (R524). -/
def localSignal (s : State) (i : Inst) : State :=
  let w6 := wd i.words 6
  let c := if bitsOf w6 21 16 = 0 then i.ctx else bitsOf w6 21 16
  let f := bitsOf w6 11 0
  setFence s c f (fenceApply (fenceWord s c f) (bitsOf w6 29 28) (wd64 i.words 10))

/-- GRAPH_ABORT replies once every instance that it found past its commit point has resolved (R589). -/
def settleAborts (s : State) (p : Nat) : State :=
  s.ops.foldl (fun s e =>
    let o := e.2
    if o.opcode = 0x0303 && bitsOf (wd o.payload 0) 18 16 = p then
      if o.todo.all fun n => match s.inst? p n with | some i => i.st.resolved | none => true then
        endOp s e.1 (if o.a = 0 then 1 else 0) [o.a, o.b]
      else s
    else s) s

/-- Free the tiles of a committed kernel: LIVE, SEL and the buffers of the tensors that it named (R463, R465). -/
def commitTile (x : Tile) (r : Run) : Tile :=
  { x with
    run := none
    sel := r.gnamed.foldl (fun l t => if l.contains t then setDel l t else setIns l t) x.sel
    live := (setInsAll x.live r.gnamed).filter fun t => !r.greleased.contains t
    gbuf := r.gbufs.foldl (fun g e => tabSet g e.1 e.2) x.gbuf }

/-- The tiles that run instance n on partition p are done with it. DEDUCED, log entry 47. -/
def commitTiles (s : State) (p n : Nat) : State :=
  allTiles.foldl (fun s t =>
    let x := s.tile p t
    match x.run with
    | some r => if r.inst = n then s.setTile p t (commitTile x r) else s
    | none => s) s

/-- Steps 7 and 8 of R530, and the resolution of the node as COMMITTED. -/
def commitEnd (s : State) (p n : Nat) : State :=
  match s.inst? p n with
  | none => s
  | some i =>
    let s1 := if i.ty = 9 then raiseVector s (s.ctx i.ctx).owner (bitsOf (wd i.words 6) 10 0) else s
    let s2 := commitTiles (releaseRefs s1 p i) p n
    let P := s2.part p
    let s3 := (s2.setPart p { P with staging := P.staging - (match i.staged with | some b => b.length | none => 0) }).setInst p n
      { i with st := .committed, refs := false, held := false, staged := none }
    boundary (settleAborts (settle nestFuel s3 p i) p) p

/-- Steps 4 to 6 of R530, with 7 and 8 where no record holds them (R531, R547). -/
def commitRest (s : State) (p n : Nat) : State :=
  match s.inst? p n with
  | none => s
  | some i =>
    let s1 := if i.ty = 3 && i.sTarget = 2 then
        s.post i.ctx (wd64 i.words 8) (natLe i.sBytes (wd64 i.words 10)) false
      else if i.ty = 8 then epochRemap s p i
      else s
    let isLocal := i.ty == 3 && i.sTarget == 0
    let stale := isLocal && signalStale s1 i
    let s2 := if stale then
        noteEvent (logEvent s1 { code := 0x1290, ctx := i.ctx, part := some p,
                                 data := [bitsOf (wd i.words 6) 21 16, bitsOf (wd i.words 6) 11 0] }) p n 0x1290
      else if isLocal then localSignal s1 i
      else s1
    let bad := i.ackBad || stale
    let f := ownFence s2 i bad
    let rs : RecSt := if stale then .failed else if i.ackBad then .sendFail else .ok
    let s3 := f.1.modInst p n fun j => { j with status := rs, fenceWord := f.2 }
    match s3.inst? p n with
    | none => s3
    | some j =>
      let s4 := putRecord s3 p n j rs f.2 j.commitAt
      if (s4.cp i.ctx p).recs.any (·.1 == n) then s4.modInst p n fun j => { j with held := true }
      else commitEnd s4 p n

/-- What a commit still waits for in step 3. -/
def Inst.step3 (i : Inst) : Bool := i.acks != [] || i.unsent != [] || i.arm.isSome

/-- A node that begins its commit on a broken path commits without its record (R544, R1003). -/
def dropRecord (s : State) (p n : Nat) (i : Inst) : State :=
  let x := s.cp i.ctx p
  if i.crec && x.broken then s.setCp i.ctx p (x.loseRecords (· == n)) else s

/-- The commit point and the steps up to the wait of step 3 (R528, R530). -/
def commitNode (s : State) (p n : Nat) : State :=
  match s.inst? p n with
  | none => s
  | some i =>
    let s0 := dropRecord (traceRec s 0x0281 p i.ctx i.seg i.idx i.iter) p n i
    let s1 := s0.setInst p n { i with st := .committing, commitAt := (s.part p).count, ended := true }
    let s2 := commitStep2 (commitStep1 s1 p n i) p n i
    match s2.inst? p n with
    | none => s2
    | some j => if j.step3 then s2 else commitRest s2 p n

/-! Acknowledgements (R779, R798, R799). -/

/-- A fabric COPY fails (R799). -/
def copyFail (s : State) (p n st : Nat) : State :=
  match s.inst? p n with
  | none => s
  | some i => if i.st.short then failNode s p n 0x32C5 (fabNode s p i (bitsOf (wd i.words 7) 31 19) st) else s

/-- A commit that waits for nothing in step 3 any more goes on, unless a save holds the partition (R530, R636). -/
def commitOn (s : State) (p n : Nat) : State :=
  match s.inst? p n with
  | none => s
  | some j => if j.st == .committing && !j.held && !j.step3 && !(s.part p).frozen then commitRest s p n else s

/-- The commits that a save of partition p has held go on (R636). -/
def resumeCommits (s : State) (p : Nat) : State := ((s.part p).insts.map (·.1)).foldl (fun s n => commitOn s p n) s

/-- An ACK has come for transaction `id` of die p: a commit goes on once none is missing, a fabric COPY ends. -/
def ackTxn (s : State) (p id : Nat) (t : Txn) (st : Nat) : State :=
  let P := s.part p
  let s1 := s.setPart p { P with txns := tabDel P.txns id }
  match s1.inst? p t.inst with
  | none => s1
  | some i =>
    if !i.acks.contains id then s1
    else
      let s2 := s1.setInst p t.inst { i with acks := i.acks.filter (· != id), ackBad := i.ackBad || st != 0 }
      if t.copy then
        if st ≠ 0 then copyFail s2 p t.inst st
        else s2.modInst p t.inst fun j => if j.acks = [] && j.unsent = [] then { j with ended := true } else j
      else
        let s3 := if st ≠ 0 then sendNacks s2 p t.inst i [st] else s2
        commitOn s3 p t.inst

/-- Send on what waits for transaction numbers of die p, instance by instance (R779). DEDUCED, log entry 136. -/
def sendUnsent (s : State) (p : Nat) : State :=
  (((s.part p).insts.filter fun e => e.2.unsent != [] && (e.2.st == .running || e.2.st == .committing)).map (·.1)).foldl (fun s n =>
    match s.inst? p n with
    | none => s
    | some i =>
      if sendable s p i.unsent = 0 then s
      else
        let copy := i.ty == 1
        let r := sendAll s p n copy i i.unsent
        let s1 := r.1.modInst p n fun j =>
          { j with acks := j.acks ++ r.2.1, unsent := unsentOf s p i.unsent, ackBad := j.ackBad || r.2.2 != [],
                   sentAt := (s.part p).count }
        match copy, r.2.2 with
        | true, [] => s1
        | true, st :: _ => copyFail (s1.modInst p n fun j => { j with acks := [], unsent := [] }) p n st
        | false, sts => commitOn (sendNacks s1 p n i sts) p n) s

/-- An ACK packet that has come to die p; one that matches no transaction is discarded (R779), and counts where its context is gone
or carries another epoch by now (R578). While a save holds the partition the ACK waits (R636). -/
def takeAck (s : State) (p : Nat) (q : Packet) : State :=
  if (s.part p).frozen then s.setPart p { s.part p with acksHeld := (s.part p).acksHeld ++ [q] }
  else
  let x := s.ctx q.destCtx
  let stale := if x.st == .free || x.epoch != q.srcEpoch then
      logEvent s { code := 0x1290, part := some p, data := [q.destCtx, q.srcEpoch] }
    else s
  match tabFind (s.part p).txns q.txn with
  | none => stale
  | some t => if t.ctx = q.destCtx && t.epoch = q.srcEpoch then sendUnsent (ackTxn s p q.txn t q.status) p else stale

/-- The arm of instance n is gone, wholly consumed or timed out: its commit goes on. -/
def armEnded (s : State) (p n : Nat) : State :=
  match s.inst? p n with
  | none => s
  | some i =>
    commitOn (s.setInst p n { i with arm := none }) p n

end Sys2Proof.Machine
end

