-- ==== Sys2Proof/Machine/Exact.lean ====
section
/-! DEFINITION. The functions that the SFU's built-ins approximate (R354), at their real values: fixed-point whole numbers with 640
fraction bits, so that a bound of R357 can be tested against them. What the last bits of a sum of a series lose lies more than 400
binary places below the bounds (DEDUCED, log entry 4). -/

namespace Sys2Proof.Machine

/-- One, as fixed point. -/
def fxOne : Int := 2 ^ 640

/-- ln 2. -/
def fxLn2 : Int := 0xb17217f7d1cf79abc9e3b39803f2f6af40f343267298b62d8a0d175b8baafa2be7b876206debac98559552fb4afa1b10ed2eae35c138214427573b291169b8253e96ca16224ae8c51acbda11317c387e

/-- π. -/
def fxPi : Int := 0x3243f6a8885a308d313198a2e03707344a4093822299f31d0082efa98ec4e6c89452821e638d01377be5466cf34e90c6cc0ac29b7c97c50dd3f84d5b5b54709179216d5d98979fb1bd1310ba698dfb5ac

/-- Product. -/
def fxMul (a b : Int) : Int := a * b / fxOne

/-- The fixed-point number at or below a finite value. -/
def FV.toFx : FV → Int
  | .fin a m e =>
    let k := e + 640
    if 0 ≤ k then sgn a (m * 2 ^ k.toNat) else sgn a m / 2 ^ (-k).toNat
  | _ => 0

/-- A fixed-point number times 2^n as a value. -/
def fxFV (x : Int) (n : Int) : FV := .fin (x < 0) x.natAbs (n - 640)

/-- e^z for 0 ≤ z < 1, by its power series. -/
def fxExp (z : Int) : Int :=
  ((List.range 120).foldl (fun (a : Int × Int) k => let t := fxMul a.2 z / (k + 1); (a.1 + t, t)) (fxOne, fxOne)).1

/-- 2^y. -/
def exp2Fx (y : Int) : FV := fxFV (fxExp (fxMul (y % fxOne) fxLn2)) (y / fxOne)

/-- e^x. -/
def expFx (x : Int) : FV := fxFV (fxExp (x % fxLn2)) (x / fxLn2)

/-- ln m for 1 ≤ m < 2, by 2 artanh((m − 1) ÷ (m + 1)). -/
def fxLn (m : Int) : Int :=
  let z := (m - fxOne) * fxOne / (m + fxOne)
  let z2 := fxMul z z
  2 * ((List.range 205).foldl (fun (a : Int × Int) k => (a.1 + a.2 / (2 * k + 1), fxMul a.2 z2)) (0, z)).1

/-- ln of a positive value. -/
def lnFV : FV → Int
  | .fin _ m e =>
    let l := Nat.log2 m
    ((l : Int) + e) * fxLn2 + fxLn (FV.fin false m (-(l : Int))).toFx
  | _ => 0

/-- Square root of a number that is not negative. -/
def fxSqrt (x : Int) : Int := let n := x.toNat * 2 ^ 640; (isqrt (Nat.log2 n / 2 + 1) n : Nat)

/-- erf x, by its power series. -/
def fxErf (x : Int) : Int :=
  let q := fxMul x x
  let r := (List.range 720).foldl (fun (a : Int × Int) k =>
    (a.1 + a.2 / (2 * k + 1), -(fxMul a.2 q / (k + 1)))) (0, x)
  r.1 * 2 * fxOne / fxSqrt fxPi

/-- Sine and cosine of an angle from 0 to π ÷ 2. -/
def fxSinCos (a : Int) : Int × Int :=
  let q := fxMul a a
  let f (t0 : Int) (o : Nat) : Int := ((List.range 75).foldl (fun (s : Int × Int) k =>
    (s.1 + s.2, -(fxMul s.2 q / ((2 * k + o + 1) * (2 * k + o + 2))))) (0, t0)).1
  (f a 1, f fxOne 0)

/-- Sine and cosine of 2π t for 0 ≤ t < 1. -/
def turn (t : Int) : Int × Int :=
  let x := fxSinCos (fxMul (4 * t % fxOne) (fxPi / 2))
  match 4 * t / fxOne with
  | 0 => x
  | 1 => (x.2, -x.1)
  | 2 => (-x.1, -x.2)
  | _ => (-x.2, x.1)

/-- The quotient of two finite values, to more than 600 bits. -/
def quot : FV → FV → FV
  | .fin a m x, .fin b n y =>
    let k := 640 + Nat.log2 n
    .fin (a != b) (m * 2 ^ k / n) (x - y - k)
  | _, _ => .nan

/-- The value 1. -/
def oneV : FV := .fin false 1 0

/-- The logistic function. -/
def sigmoidFx (x : Int) : FV := quot oneV (FV.add 0 oneV (expFx (-x)))

/-- The standard normal distribution function. -/
def normalFx (x : Int) : FV := fxFV (fxOne + fxErf (x * fxOne / fxSqrt (2 * fxOne))) (-1)

/-- The bracketed factor of GELU_TANH, ½(1 + tanh u) = σ(2u). -/
def geluTanhFx (x : Int) : FV :=
  sigmoidFx (2 * fxMul (fxSqrt (2 * fxOne * fxOne / fxPi)) (x + fxMul (fxMul x (fxMul x x)) (44715 * fxOne / 1000000)))

/-- Function FN at a finite input for which R359 and R354 give no other rule; SIN and COS stand in `turn`. -/
def builtinExact (fn : Nat) (v : FV) : FV :=
  let x := v.toFx
  match fn with
  | 0 => expFx x
  | 1 => exp2Fx x
  | 2 => fxFV (lnFV v) 0
  | 3 => fxFV (lnFV v * fxOne / fxLn2) 0
  | 4 => quot oneV v
  | 5 | 6 =>
    match v with
    | .fin _ m e =>
      let k : Nat := if (e - 640) % 2 = 0 then 640 else 641
      let n := m * 2 ^ k
      let r : FV := .fin false (isqrt (Nat.log2 n / 2 + 1) n) ((e - k) / 2)
      if fn = 6 then r else quot oneV r
    | _ => .nan
  | 7 => let e := expFx (2 * x); quot (FV.add 0 e oneV.neg) (FV.add 0 e oneV)
  | 8 => sigmoidFx x
  | 9 => fxFV (fxErf x) 0
  | 10 => FV.mul v (normalFx x)
  | 11 => FV.mul v (geluTanhFx x)
  | 12 => FV.mul v (sigmoidFx x)
  | _ => fxFV (lnFV (FV.add 0 oneV (expFx x))) 0

end Sys2Proof.Machine
end

