-- ==== Sys2Proof/Machine/Builtin.lean ====
section
/-! DEFINITION. The built-in functions of the SFU (R349 to R371): special inputs, the rules outside the segments, forms and seams,
the bounds of R357 and the order of R360 to R364. The segment polynomials lie in a ROM that the spec does not give
(Config.sfuSegment); what a polynomial gives is held to the bounds and to the order that the rules state of every result. -/

namespace Sys2Proof.Machine

/-- ln 2 as SOFTPLUS gives it at ±0 (R359). -/
def ln2Code : Nat := 0x3F317218

/-- The table of special inputs (R359): the result for NaN, ±Inf, ±0 and finite negative inputs, none elsewhere. -/
def sfuSpecial (fn : Nat) (v : FV) : Option FV :=
  match v with
  | .nan => some .nan
  | .inf false =>
    match fn with
    | 0 | 1 | 2 | 3 => some (.inf false)
    | 4 | 5 => some (.fin false 0 0)
    | 6 => some (.inf false)
    | 7 | 8 | 9 => some oneV
    | 10 | 11 | 12 | 13 => some (.inf false)
    | _ => some .nan
  | .inf true =>
    match fn with
    | 0 | 1 => some (.fin false 0 0)
    | 2 | 3 => some .nan
    | 4 => some (.fin true 0 0)
    | 5 | 6 => some .nan
    | 7 | 9 => some (.fin true 1 0)
    | 8 => some (.fin false 0 0)
    | 10 | 11 | 12 => some (.fin true 0 0)
    | 13 => some (.fin false 0 0)
    | _ => some .nan
  | .fin neg 0 _ =>
    match fn with
    | 0 | 1 => some oneV
    | 2 | 3 => some (.inf true)
    | 4 | 5 => some (.inf neg)
    | 6 | 7 | 9 | 10 | 11 | 12 | 14 => some (.fin neg 0 0)
    | 8 => some (.fin false 1 (-1))
    | 13 => some (ofF32 ln2Code)
    | _ => some oneV
  | .fin true _ _ => if fn = 2 || fn = 3 || fn = 5 || fn = 6 then some .nan else none
  | .fin false _ _ => none

/-- Order of |v| against 2^k. -/
def absGe (v : FV) (k : Int) : Bool :=
  match v.lead with
  | some l => k ≤ l
  | none => false

/-- The exponent a of form B: −12 native, −10 in compatibility mode (R353). -/
def formA (cm : Bool) : Int := if cm then -10 else -12

/-- e^x for the outside rules; what is rounded once is the same at and below −2000. -/
def expOut (x : Int) : FV := expFx (max x (-2000 * fxOne))

/-- 1 − e and 1 − e ÷ 2, for the outside rules. -/
def oneLess (e : FV) (k : Int) : FV := FV.add 0 oneV (e.scale k).neg

/-- The rules outside the segments (R354), for a finite nonzero input: the value that is rounded once. EXP and EXP2 overflow
and underflow beyond their exponent's range whatever the segment. -/
def sfuOutside (cm : Bool) (fn : Nat) (v : FV) : Option FV :=
  let small := !absGe v (formA cm)
  let big := absGe v 4
  let neg := v.sign
  let below16 := neg && FV.cmp v (.fin true 16 0) = some .lt
  let half : FV := .fin false 1 (-1)
  let ex := expOut (if neg then v.toFx else 0)
  match fn with
  | 0 => if absGe v 7 then some (if neg then .fin false 0 0 else .inf false) else none
  | 1 => if !neg && absGe v 7 then some (.inf false) else if neg && absGe v 8 then some (.fin false 0 0) else none
  | 7 => if small then some v else if big then some (.fin neg 1 0) else none
  | 8 =>
    if small then some (FV.add 0 half (v.scale (-2)))
    else if !neg && big then some (oneLess (expOut (-v.toFx)) 0)
    else if below16 then some (FV.mul ex (oneLess ex 0)) else none
  | 9 => if small then some (quot (v.scale 1) (fxFV (fxSqrt fxPi) 0)) else if absGe v 2 then some (.fin neg 1 0) else none
  | 10 | 11 =>
    if small then some (FV.mul v (FV.add 0 half (quot v (fxFV (fxSqrt (2 * fxPi)) 0))))
    else if !neg && big then some v else if below16 then some (.fin true 0 0) else none
  | 12 =>
    if small then some (FV.mul v (FV.add 0 half (v.scale (-2))))
    else if !neg && big then some (FV.mul v (oneLess (expOut (-v.toFx)) 0))
    else if below16 then some (FV.mul v (FV.mul ex (oneLess ex 0))) else none
  | 13 =>
    if small then some (FV.add 0 (fxFV fxLn2 0) (v.scale (-1)))
    else if !neg && big then some v
    else if below16 then some (FV.mul ex (oneLess ex (-1))) else none
  | 14 => if small then some v else if absGe v 24 then some .nan else none
  | 15 => if small then some oneV else if absGe v 24 then some .nan else none
  | _ => none

/-! Forms and seams (R352, R353). -/

/-- Mode number in the ROM. -/
def modeNo (cm : Bool) : Nat := if cm then 1 else 0

/-- 1/(2π) to 96 bits, as a whole number of 2^−98 (R353). -/
def turnK : Int := fxOne * 2 ^ 98 / (2 * fxPi)

/-- Fraction bits of t: 35 of an input of at least 2^−12, and those of 1/(2π). -/
def turnBits : Nat := 133

/-- t = frac(x ÷ 2π), as a whole number of 2^−133 (form P). -/
def turnOf (v : FV) : Nat :=
  match v with
  | .fin a m e => ((sgn a m * turnK * 2 ^ (e + 35).toNat) % 2 ^ turnBits).toNat
  | _ => 0

/-- Cut to the 48 bits of the product by log₂e or ln 2 (R354). DEDUCED, log entry 4. -/
def cut48 (x : Int) : Int := x / 2 ^ 592 * 2 ^ 592

/-- A segment that an input selects, with its reduced argument within it. -/
structure SegAt where
  seg : Nat
  r : Int
deriving DecidableEq, Repr

/-- Form F: y = n + f; segments of 1/64 or 1/32. -/
def formF (cm : Bool) (y : Int) : Int × SegAt :=
  let n := if cm then 32 else 64
  let j := (y % fxOne) * n / fxOne
  (y / fxOne, ⟨j.toNat, y % fxOne - j * fxOne / n⟩)

/-- Form M: |x| = 2^e m. -/
def formM (cm : Bool) (v : FV) : Int × SegAt :=
  let e := v.lead.getD 0
  let f := (v.abs.scale (-e)).toFx - fxOne
  let n := if cm then 32 else 64
  let j := f * n / fxOne
  (e, ⟨j.toNat, f - j * fxOne / n⟩)

/-- Form Q: x = 4^k m; segments of one width for m below 2 and of twice that from 2. -/
def formQ (cm : Bool) (v : FV) : Int × SegAt :=
  let k := v.lead.getD 0 / 2
  let m := (v.scale (-2 * k)).toFx
  let n := if cm then 32 else 64
  if m < 2 * fxOne then
    let j := (m - fxOne) * n / fxOne
    (k, ⟨j.toNat, m - fxOne - j * fxOne / n⟩)
  else
    let j := (m - 2 * fxOne) * n / (2 * fxOne)
    (k, ⟨(n + j).toNat, m - 2 * fxOne - 2 * j * fxOne / n⟩)

/-- Form B(a, b): |x| = 2^e(1 + j/8 + r), j/4 in compatibility mode; −16 closes the last segment of a side. The second side of a
two-sided function follows the first. -/
def formB (cm : Bool) (b : Int) (two : Bool) (v : FV) : SegAt :=
  let a := formA cm
  let e := min (v.lead.getD 0) (b - 1)
  let n : Int := if cm then 4 else 8
  let f := (v.abs.scale (-e)).toFx - fxOne
  let j := min (f * n / fxOne) (n - 1)
  let side := if two && v.sign then (b - a) * n else 0
  ⟨((e - a) * n + j + side).toNat, f - j * fxOne / n⟩

/-- What the polynomial of a segment gives. -/
def segVal (cm : Bool) (fn : Nat) (x : SegAt) : Int := Config.sfuSegment (modeNo cm) fn x.seg x.r

/-- The EXP2 path of the tail form. -/
def exp2Path (cm : Bool) (y : Int) : FV := let x := formF cm y; fxFV (segVal cm 1 x.2) x.1

/-- Whether an input lies in the tail of a function that has one: negative, at least 4 in magnitude, native (R354; at −4, where
R352 begins the segment, DEDUCED, log entry 4). -/
def inTail (cm : Bool) (v : FV) : Bool := !cm && v.sign && absGe v 2

/-- What the segments of a function give before any rounding (R353, R354), SIN and COS apart. -/
def sfuRaw (cm : Bool) (fn : Nat) (v : FV) : FV :=
  let b := formB cm 4 true v
  let sv := segVal cm fn b
  match fn with
  | 0 => let x := formF cm (cut48 (v.toFx * fxOne / fxLn2)); fxFV (segVal cm 0 x.2) x.1
  | 1 => let x := formF cm v.toFx; fxFV (segVal cm 1 x.2) x.1
  | 2 => let x := formM cm v; fxFV (cut48 (fxMul (x.1 * fxOne + segVal cm 2 x.2) fxLn2)) 0
  | 3 => let x := formM cm v; fxFV (x.1 * fxOne + segVal cm 3 x.2) 0
  | 4 => let x := formM cm v; fxFV (segVal cm 4 x.2) (-x.1)
  | 5 => let x := formQ cm v; fxFV (segVal cm 5 x.2) (-x.1)
  | 6 => let x := formQ cm v; fxFV (segVal cm 6 x.2) x.1
  | 7 => fxFV (segVal cm 7 (formB cm 4 false v)) 0
  | 9 => fxFV (segVal cm 9 (formB cm 2 false v)) 0
  | 8 | 13 => if inTail cm v then exp2Path cm sv else fxFV sv 0
  | 12 =>
    let s8 := segVal cm 8 b
    FV.mul v (if inTail cm v then exp2Path cm s8 else fxFV s8 0)
  | _ => if inTail cm v then (exp2Path cm sv).neg else FV.mul v (fxFV sv 0)

/-- The ROM words that an input of a function reads, as keys of mode, function and segment (R395). -/
def romKey (cm : Bool) (fn seg : Nat) : Nat := (16 * modeNo cm + fn) * 512 + seg

/-- The ROM segments that a finite nonzero input reads. -/
def sfuRom (cm : Bool) (fn : Nat) (v : FV) : List Nat :=
  if (sfuSpecial fn v).isSome || (sfuOutside cm fn v).isSome then []
  else
    let two := formB cm 4 true v
    let tail (f : Nat) : List Nat :=
      romKey cm f two.seg :: (if inTail cm v then [romKey cm 1 (formF cm (segVal cm f two)).2.seg] else [])
    match fn with
    | 0 => [romKey cm 0 (formF cm (cut48 (v.toFx * fxOne / fxLn2))).2.seg]
    | 1 => [romKey cm 1 (formF cm v.toFx).2.seg]
    | 2 | 3 | 4 => [romKey cm fn (formM cm v).2.seg]
    | 5 | 6 => [romKey cm fn (formQ cm v).2.seg]
    | 7 => [romKey cm 7 (formB cm 4 false v).seg]
    | 9 => [romKey cm 9 (formB cm 2 false v).seg]
    | 12 => tail 8
    | 14 | 15 => [romKey cm fn (turnOf v / 2 ^ 125)]
    | _ => tail fn

/-! The bounds of R357. -/

/-- Round to a multiple of the FP32 unit in the last place by RND, without FP32's upper limit. -/
def onGrid (rnd : Nat) (v : FV) : FV :=
  match v with
  | .fin a m e =>
    let q := max (v.lead.getD (-126)) (-126) - 23
    .fin a (roundQuantum rnd a m e q) q
  | _ => v

/-- A value from E ulp below |y| to E ulp above it (R356). The lower end keeps, above a power of two, to what the inputs just below
it are held to (R360 to R363). DEDUCED, log entry 4. -/
def ulpEnds (ulps : Nat) (y : FV) : FV × FV :=
  let e := max (y.lead.getD (-126)) (-126)
  let d (k : Int) : FV := .fin false ulps (k - 23)
  let lo := FV.add 0 y.abs (d e).neg
  (if e ≤ -126 then lo else FV.max lo (FV.add 0 (.fin false 1 e) (d (e - 1)).neg), FV.add 0 y.abs (d e))

/-- The ends about y itself. -/
def aboutUlp (ulps : Nat) (y : FV) : FV × FV :=
  let x := ulpEnds ulps y
  if y.sign then (x.2.neg, x.1.neg) else x

/-- The ends at an absolute distance 2^−k. -/
def aboutAbs (k : Int) (y : FV) : FV × FV := (FV.add 0 y (.fin true 1 (-k)), FV.add 0 y (.fin false 1 (-k)))

/-- The bound of R357 on a result at input v, whose exact value is y: the FP32 numbers within it lie between these. -/
def sfuBounds (cm : Bool) (fn : Nat) (v y : FV) : FV × FV :=
  let below4 := v.sign && FV.cmp v (.fin true 4 0) = some .lt
  let e :=
    if cm then
      match fn with
      | 0 | 1 | 5 | 6 => aboutUlp 2 y
      | 2 | 3 =>
        if absGe (FV.add 0 v oneV.neg) (-5) then aboutUlp 2 y
        else
          let seam (s : Bool) := aboutUlp 2 (builtinExact fn (FV.add 0 oneV (.fin s 1 (-5))))
          let x := aboutAbs 24 y
          (FV.max x.1 (seam true).1, FV.min x.2 (seam false).2)
      | 4 => aboutUlp 1 y
      | 8 => if v.sign then aboutAbs 24 y else aboutUlp 4 y
      | 10 | 11 | 12 => if v.sign then aboutAbs 22 y else aboutUlp 4 y
      | _ => aboutUlp 4 y
    else
      match fn with
      | 0 | 1 | 2 | 3 | 4 | 5 | 6 => aboutUlp 1 y
      | 10 | 11 | 12 => aboutUlp (if below4 then 4 else 3) y
      | _ => aboutUlp 2 y
  (onGrid 3 e.1, onGrid 2 e.2)

/-- Bring a value between two ends. -/
def FV.clamp (lo hi v : FV) : FV := FV.max lo (FV.min hi v)

/-! The order of R360 to R364. -/

/-- A range of inputs of one sign, as FP32 magnitude codes, over which results keep an order (`dir` 1: they do not fall as the
magnitude grows; 2: they do not rise; 0: no order), and the values between which they lie. -/
structure Piece where
  lo : Nat
  hi : Nat
  dir : Nat
  va : FV
  vb : FV
deriving DecidableEq, Repr

/-- The result at the middle of what is left of a piece is brought between the results at its ends; the search goes on in the half
that holds code k. Codes count from 1, so that the ends are open. Whatever the values f, the results keep the order. -/
def search (f : Nat → FV) (up : Bool) (k : Nat) : Nat → Nat → Nat → FV → FV → FV
  | 0, _, _, va, _ => va
  | n + 1, a, b, va, vb =>
    let m := (a + b) / 2
    let v := if up then FV.clamp va vb (f (m - 1)) else FV.clamp vb va (f (m - 1))
    if k = m then v
    else if k < m then search f up k n a m va v
    else search f up k n m b v vb

/-- The result at code k of a piece. -/
def Piece.at_ (x : Piece) (f : Nat → FV) (bits k : Nat) : FV :=
  if x.dir = 0 then FV.clamp x.va x.vb (f k) else search f (x.dir == 1) (k + 1) (bits + 1) x.lo (x.hi + 2) x.va x.vb

/-- The FP32 magnitude code of 2^e (1 + f/32). -/
def keyOf (e : Int) (f : Nat) : Nat := ((e + 127).toNat * 32 + f) * 2 ^ 18

/-- The input of a sign and a magnitude code. -/
def ofKey (neg : Bool) (k : Nat) : FV := ofF32 (k + if neg then 2 ^ 31 else 0)

/-- The pieces of R360 to R362, with the values that the outside rules and the ranges of R364 give at their ends. -/
def pieceOf (cm : Bool) (fn : Nat) (neg : Bool) (k : Nat) : Piece :=
  let out (neg : Bool) (k : Nat) : FV := (sfuOutside cm fn (ofKey neg k)).getD (.fin false 0 0)
  let a := keyOf (formA cm) 0
  let top := keyOf 4 0
  let huge : FV := .fin false 1 400
  let zero : FV := .fin false 0 0
  let edge := 0x7F7FFFFF
  -- the minimum of GELU and SILU: the segment between the limits of R362
  let lim : Nat × Nat := if fn = 12 then (keyOf 0 8, if cm then keyOf 0 16 else keyOf 0 12) else (keyOf (-1) 16, if cm then keyOf (-1) 24 else keyOf (-1) 20)
  match fn with
  | 0 => if neg then ⟨1, keyOf 7 0 - 1, 2, oneV, zero⟩ else ⟨1, keyOf 7 0 - 1, 1, oneV, huge⟩
  | 1 => if neg then ⟨1, keyOf 8 0 - 1, 2, oneV, zero⟩ else ⟨1, keyOf 7 0 - 1, 1, oneV, huge⟩
  | 2 | 3 => ⟨1, edge, 1, huge.neg, huge⟩
  | 4 | 5 => ⟨1, edge, 2, huge, zero⟩
  | 6 => ⟨1, edge, 1, zero, huge⟩
  | 7 => ⟨a, top - 1, 1, out false (a - 1), oneV⟩
  | 9 => ⟨a, keyOf 2 0 - 1, 1, out false (a - 1), oneV⟩
  | 8 | 13 => if neg then ⟨a, top, 2, out true (a - 1), out true (top + 1)⟩ else ⟨a, top - 1, 1, out false (a - 1), out false top⟩
  | _ =>
    if !neg then ⟨a, top - 1, 1, out false (a - 1), out false top⟩
    else if k ≤ lim.1 then ⟨a, lim.1, 2, out true (a - 1), oneV.neg⟩
    else if k < lim.2 then ⟨lim.1 + 1, lim.2 - 1, 0, oneV.neg, zero⟩
    else ⟨lim.2, top, 1, oneV.neg, out true (top + 1)⟩

/-- What the segments give at an input, held to the bound of R357. An underflow of EXP and EXP2 rounds (R354). -/
def sfuHeld (cm : Bool) (fn : Nat) (v : FV) : FV :=
  let y := builtinExact fn v
  if fn ≤ 1 && !absGe y (-150) then .fin false 0 0
  else
    let b := sfuBounds cm fn v y
    FV.clamp b.1 b.2 (sfuRaw cm fn v)

/-- SIN (fn 14) or COS at t × 2^−133: what the segments give, held to the bound of R357, and, near t = 0, to the outside rule at the
inputs below 2^−12 on either side (R363). -/
def turnHeld (fn T : Nat) : FV :=
  let t : Int := (T : Int) * 2 ^ 507
  let y := fxFV (if fn = 14 then (turn t).1 else (turn t).2) 0
  let u := ulpEnds 2 y
  let d := aboutAbs 26 y.abs
  let mag : FV × FV := (FV.min u.1 d.1, FV.max u.2 d.2)
  let e := if y.sign then (mag.2.neg, mag.1.neg) else mag
  let raw := fxFV (segVal false fn ⟨T / 2 ^ 125, t - (T / 2 ^ 125 : Nat) * 2 ^ 632⟩) 0
  let big := ofKey false (keyOf (-12) 0 - 1)
  -- the last t before that of 2^−12, where the segments begin (R352, R353)
  let tOut := turnOf (.fin false 1 (-12)) - 1
  let back := 2 ^ turnBits - T
  -- the angle, and the FP32 inputs beside it
  let x (n : Nat) : FV := quot (FV.ofInt n) (.fin false turnK.toNat 35)
  if fn = 14 then
    let lo := if T ≤ tOut then onGrid 2 (x T)
      else if back ≤ tOut then (onGrid 3 (x back)).neg
      else if T < 2 ^ 131 then FV.max (onGrid 3 e.1) big else onGrid 3 e.1
    let hi := if T ≤ tOut then onGrid 3 (x T)
      else if back ≤ tOut then (onGrid 2 (x back)).neg
      else if 3 * 2 ^ 131 ≤ T then FV.min (onGrid 2 e.2) big.neg else onGrid 2 e.2
    FV.clamp lo hi raw
  else if T ≤ tOut || back ≤ tOut then oneV
  else FV.clamp (onGrid 3 e.1) (onGrid 2 e.2) raw

/-- The quarters and halves of R363, as codes of t; results lie in [−1, 1] (R364). -/
def turnPiece (fn T : Nat) : Piece :=
  let q := 2 ^ 131
  if fn = 14 then
    if T < q then ⟨0, q, 1, oneV.neg, oneV⟩
    else if T < 3 * q then ⟨q, 3 * q, 2, oneV, oneV.neg⟩
    else ⟨3 * q, 4 * q - 1, 1, oneV.neg, oneV⟩
  else if T < 2 * q then ⟨0, 2 * q, 2, oneV, oneV.neg⟩
  else ⟨2 * q, 4 * q - 1, 1, oneV.neg, oneV⟩

/-- The value of a built-in at an input, at the internal precision, before its one rounding (R348, R352 to R364). TANH, ERF and RCP
are odd. Where no more than the bounds and the order of the rules is given, the segments' values are free (DESIGN CHOICE, log
entry 4). -/
def sfuValue (cm : Bool) (fn : Nat) (v : FV) : FV :=
  match sfuSpecial fn v with
  | some r => r
  | none =>
    match sfuOutside cm fn v with
    | some r => r
    | none =>
      if fn = 14 || fn = 15 then
        let T := turnOf v
        (turnPiece fn T).at_ (turnHeld fn) 133 T
      else
        let odd := fn == 4 || fn == 7 || fn == 9
        let neg := v.sign && !odd
        let k := toF32 v.abs
        let r := (pieceOf cm fn neg k).at_ (fun k => sfuHeld cm fn (ofKey neg k)) 32 k
        if v.sign && odd then r.neg else r

/-- A built-in function in native mode on element x of TYPE ty (R348, R349): the result's code in TYPE. -/
def sfuNativeE (fn ty x : Nat) : Nat :=
  let f := ffmtOf ty
  (f.encode 0 false (sfuValue false fn (f.decode x))).1

/-- Flush a subnormal to zero of the same sign (R371). -/
def flushSub (f : FFmt) (x : Nat) : Nat :=
  if x % 2 ^ f.signBit < 2 ^ f.mb then x / 2 ^ f.signBit % 2 * 2 ^ f.signBit else x

/-- A built-in function in compatibility mode (R359, R370, R371): a subnormal input counts as zero, a subnormal result becomes
zero. -/
def sfuCompatE (fn ty x : Nat) : Nat :=
  let f := ffmtOf ty
  flushSub f (f.encode 0 false (sfuValue true fn (f.decode (flushSub f x)))).1

/-- SGLU's activation as a built-in: 0 SILU, 1 GELU_ERF, 2 GELU_TANH (R347). -/
def actFn (act : Nat) : Nat := if act = 0 then 12 else if act = 1 then 10 else 11

/-- A native SGLU element (R365 to R367): the activation at internal precision times the up operand, rounded once. -/
def sgluNativeE (act ty a b : Nat) : Nat :=
  let f := ffmtOf ty
  (f.encode 0 false (FV.mul (sfuValue false (actFn act) (f.decode a)) (f.decode b))).1

/-- A compatibility SGLU element (R368): the built-in's result in TYPE with flushing, then the product in TYPE with flushing. -/
def sgluCompatE (act ty a b : Nat) : Nat :=
  let f := ffmtOf ty
  flushSub f (fMul f 0 (sfuCompatE (actFn act) ty a) (flushSub f b))

end Sys2Proof.Machine
end

