-- ==== Sys2Proof/Machine/Sfu.lean ====
section
/-! DEFINITION. The special-function unit: SFN, SGLU and SMPR (R346 to R348, R369 to R397), over the built-in functions. -/

namespace Sys2Proof.Machine

/-- The elements that an SFU word evaluates: those whose mask bit is set (R305, R348). -/
def evaluated {α : Type} (mask : List Bool) (es : List α) : List α := ((List.zip mask es).filter (·.1)).map (·.2)

/-- Whether an evaluated element reads a ROM segment that carries a parity error (R395). -/
def romBad (x : Tile) (cm : Bool) (fn ty : Nat) (es : List Nat) : Bool :=
  x.badRom != [] && es.any fun e =>
    let f := ffmtOf ty
    (sfuRom cm fn (f.decode (if cm then flushSub f e else e))).any x.badRom.contains

/-- Common checks of an SFU word (R346, R347, R344). -/
def sfuBad (w : Nat) (useB : Bool) : Bool :=
  3 ≤ fTy w || fVc w != 0 || bitsOf w 19 0 != 0 || (!useB && fVb w != 0)

/-- SFN (R346 to R364, R369 to R371, R395). -/
def execSfn (p : Fin 8) (t : Fin 16) (s : State) : Host.Outcome State Fault Refusal :=
  next (issue s p t 0x48 fun x r w =>
    let fn := bitsOf w 24 21
    let cm := bitOf w 20
    match vType (fTy w) with
    | none => illegal s p t r
    | some (wid, n) =>
      if sfuBad w false || (cm && 13 ≤ fn) then illegal s p t r
      else withRegs s p t x r ([fVa w] ++ if fMask w != 0 && !fMz w then [fVd w] else []) [fMask w] []
        (if romBad x cm fn (fTy w) (evaluated (vMask n (x.mreg (fMask w))) (vElems wid n (x.vreg (fVa w)))) then
           killTile s p t r 0x3252 [fn, r.bank]
         else
          let res := (vElems wid n (x.vreg (fVa w))).map fun e =>
            if cm then sfuCompatE fn (fTy w) e else sfuNativeE fn (fTy w) e
          finish s p t (x.setV (fVd w) (vOf wid
            (merge (fMz w) (vMask n (x.mreg (fMask w))) res (vElems wid n (x.vreg (fVd w)))))) r))

/-- SGLU (R365 to R369, R395). -/
def execSglu (p : Fin 8) (t : Fin 16) (s : State) : Host.Outcome State Fault Refusal :=
  next (issue s p t 0x49 fun x r w =>
    let act := bitsOf w 24 21
    let cm := bitOf w 20
    match vType (fTy w) with
    | none => illegal s p t r
    | some (wid, n) =>
      if sfuBad w true || 3 ≤ act then illegal s p t r
      else withRegs s p t x r ([fVa w, fVb w] ++ if fMask w != 0 && !fMz w then [fVd w] else []) [fMask w] []
        (if romBad x cm (actFn act) (fTy w) (evaluated (vMask n (x.mreg (fMask w))) (vElems wid n (x.vreg (fVa w)))) then
           killTile s p t r 0x3252 [actFn act, r.bank]
         else
          let res := List.zipWith (fun a b => if cm then sgluCompatE act (fTy w) a b else sgluNativeE act (fTy w) a b)
            (vElems wid n (x.vreg (fVa w))) (vElems wid n (x.vreg (fVb w)))
          finish s p t (x.setV (fVd w) (vOf wid
            (merge (fMz w) (vMask n (x.mreg (fMask w))) res (vElems wid n (x.vreg (fVd w)))))) r))

/-! Micro-programs (R372 to R379). -/

/-- Descriptor word k of a slot. -/
def SfuSlot.word (x : SfuSlot) (k : Nat) : Nat := wd x.words k
/-- VALID. -/
def SfuSlot.valid (x : SfuSlot) : Bool := bitOf (x.word 0) 4
/-- STEPS. -/
def SfuSlot.steps (x : SfuSlot) : Nat := bitsOf (x.word 0) 12 8
/-- LMODE. -/
def SfuSlot.lmode (x : SfuSlot) : Bool := bitOf (x.word 0) 16
/-- SEGBITS. -/
def SfuSlot.segBits (x : SfuSlot) : Nat := bitsOf (x.word 0) 23 20
/-- NBIN. -/
def SfuSlot.nbin (x : SfuSlot) : Nat := bitsOf (x.word 1) 15 8
/-- EMIN, signed. -/
def SfuSlot.emin (x : SfuSlot) : Int := sInt 8 (x.word 1)
/-- Segment i's coefficients. -/
def SfuSlot.seg (x : SfuSlot) (i : Nat) : List Nat := tabGet [0, 0, 0, 0] x.segs i

/-- Largest whole number at or below a finite value. -/
def FV.floorInt : FV → Int
  | .fin a m e => FV.toInt 2 (.fin a m e)
  | _ => 0

/-- Uniform lookup (R375): segment and local argument r. -/
def lookupUniform (x : SfuSlot) (a : Nat) : Nat × Nat :=
  let A := ofF32 a
  let lo := ofF32 (x.word 2)
  let hi := ofF32 (x.word 3)
  let n := 2 ^ x.segBits
  let span := FV.add 0 hi lo.neg
  match A with
  | .nan => (0, 0x7FC00000)
  | _ =>
    let i : Nat := match A with
      | .inf neg => if neg then 0 else n - 1
      | _ =>
        let d := FV.add 0 A lo.neg
        let e := min d.exp span.exp
        let q := d.over e * n / max 1 (span.over e)
        (max 0 (min ((n : Int) - 1) q)).toNat
    let start := FV.add 0 lo ((FV.mul (FV.ofInt i) span).scale (-(x.segBits : Int)))
    (i, toF32 (FV.add 0 A start.neg))

/-- Binade lookup (R376): segment and local argument r. A NaN's segment is open (DESIGN CHOICE, log entry 4); a zero lies below every
segment and an infinity above. -/
def lookupBinade (x : SfuSlot) (a : Nat) : Nat × Nat :=
  let A := (ofF32 a).abs
  let top : Int := 8 * x.nbin - 1
  let i : Nat := match A with
    | .nan => Config.nanSegment a % (8 * x.nbin)
    | .inf _ => top.toNat
    | .fin _ m e =>
      if m = 0 then 0
      else
        let l : Int := (Nat.log2 m : Int) + e
        let j : Nat := m * 8 / 2 ^ Nat.log2 m % 8
        (max 0 (min top (8 * (l - x.emin) + j))).toNat
  let ei : Int := x.emin + i / 8
  let start : FV := .fin false (8 + i % 8) (-3)
  (i, toF32 (FV.add 0 (A.scale (-ei)) start.neg))

/-- Temporaries T0 to T3 and the coefficient registers C0 to C3 of one element's run, and the 64-bit words of the slot and the ROM
segments that it has read (R395). -/
structure MpRegs where
  t : List Nat := [0, 0, 0, 0]
  c : List Nat := [0, 0, 0, 0]
  words : List Nat := []
  rom : List Nat := []
deriving DecidableEq, Repr

/-- A source code's value (R374). -/
def mpSrc (x : SfuSlot) (in0 in1 : Nat) (m : MpRegs) (k : Nat) : Nat :=
  if k < 4 then wd m.t k
  else if k = 4 then in0
  else if k = 5 then in1
  else if k < 12 then wd m.c (k - 8)
  else x.word (4 + (k - 16))

/-- A × 2^q with q of R377's table; a NaN A gives NaN (R311). -/
def ldexpE (a b : Nat) : Nat :=
  match ofF32 a, ofF32 b with
  | .nan, _ => 0x7FC00000
  | _, .nan => Config.ldexpNan a
  | _, .inf neg => toF32 ((ofF32 a).scale (if neg then -300 else 300))
  | _, v => toF32 ((ofF32 a).scale (max (-300) (min 300 (v.toInt 1))))

/-- FLOOR as a value: a zero keeps its sign. -/
def floorE (a : Nat) : Nat :=
  match ofF32 a with
  | .fin neg m e => if m = 0 then a else
      let k := FV.floorInt (.fin neg m e)
      if k = 0 then 0 else toF32 (FV.ofInt k)
  | v => toF32 v

/-- The 64-bit words of a slot that its constants K_i, its steps and its segments lie in, the 28 payload words first, then two words a
segment. -/
def kWord (src : Nat) : List Nat := if 16 ≤ src then [2 + (src - 16) / 2] else []
/-- The word of step j. -/
def stepWord (j : Nat) : Nat := 6 + j / 2
/-- The words of segment i. -/
def mpSegWords (i : Nat) : List Nat := [14 + 2 * i, 15 + 2 * i]

/-- Key of a 64-bit word of a bank's slot. -/
def bankKey (bank slot word : Nat) : Nat := (16 * bank + slot) * 1024 + word

/-- The segment of A by the slot's lookup, with the local argument. -/
def lookup (x : SfuSlot) (a : Nat) : Nat × Nat := if x.lmode then lookupBinade x a else lookupUniform x a

/-- What a step reads of the slot and of the ROM (R395): its word, the constants among the sources that it uses, its segment. -/
def mpReads (x : SfuSlot) (j w a : Nat) : List Nat × List Nat :=
  let op := bitsOf w 31 27
  let two := (1 ≤ op && op ≤ 5) || op == 7 || op == 0x0B || op == 0x0C
  let three := op == 3 || op == 0x0C
  (stepWord j :: (kWord (bitsOf w 24 20) ++ (if two then kWord (bitsOf w 19 15) else []) ++
    (if three then kWord (bitsOf w 14 10) else []) ++
    if op = 0x08 then 1 :: mpSegWords (lookup x a).1 else []),
   if op = 0x0D then sfuRom false (bitsOf w 9 0 % 16) (ofF32 a) else [])

/-- One step (R374 to R377). -/
def mpStep (x : SfuSlot) (in0 in1 : Nat) (m : MpRegs) (w : Nat) : MpRegs :=
  let op := bitsOf w 31 27
  let d := bitsOf w 26 25
  let a := mpSrc x in0 in1 m (bitsOf w 24 20)
  let b := mpSrc x in0 in1 m (bitsOf w 19 15)
  let c := mpSrc x in0 in1 m (bitsOf w 14 10)
  let aux := bitsOf w 9 0
  let put (v : Nat) : MpRegs := { m with t := m.t.set d v }
  match op with
  | 0x01 => put (fAdd fp32 0 a b)
  | 0x02 => put (fMul fp32 0 a b)
  | 0x03 => put (fFma fp32 0 a b c)
  | 0x04 => put (toF32 (FV.min (ofF32 a) (ofF32 b)))
  | 0x05 => put (toF32 (FV.max (ofF32 a) (ofF32 b)))
  | 0x06 => put (toF32 (ofF32 a).abs)
  | 0x07 => put (match ofF32 a with
      | .nan => 0x7FC00000
      | _ => a % 2 ^ 31 + b / 2 ^ 31 % 2 * 2 ^ 31)
  | 0x08 =>
    let l := lookup x a
    { m with t := m.t.set d l.2, c := x.seg l.1 }
  | 0x09 => put (fFma fp32 0 (fFma fp32 0 (fFma fp32 0 (wd m.c 3) a (wd m.c 2)) a (wd m.c 1)) a (wd m.c 0))
  | 0x0A => put (floorE a)
  | 0x0B => put (ldexpE a b)
  | 0x0C => if predHolds (aux % 8) (FV.cmp (ofF32 a) (ofF32 b)) then put (toF32 (ofF32 c)) else m
  | _ => put (sfuNativeE (aux % 16) 0 a)

/-- Run a slot's program on one element (R377): the registers after its last step, and what it has read of the slot and the ROM. -/
def mpRegs (x : SfuSlot) (in0 in1 : Nat) : MpRegs :=
  (List.range x.steps).foldl (fun m j =>
    let w := x.word (12 + j)
    let rd := mpReads x j w (mpSrc x in0 in1 m (bitsOf w 24 20))
    let y := mpStep x in0 in1 m w
    { y with words := y.words ++ rd.1, rom := y.rom ++ rd.2 }) { words := [0] }

/-- The program's result, T0. -/
def mpRun (x : SfuSlot) (in0 in1 : Nat) : Nat := wd (mpRegs x in0 in1).t 0

/-- Whether an element's run reads a word that carries a parity error (R395). -/
def mpBad (x : Tile) (bank slot : Nat) (sl : SfuSlot) (in0 in1 : Nat) : Bool :=
  (x.badBank != [] || x.badRom != []) &&
  (let m := mpRegs sl in0 in1
   m.words.any (fun k => x.badBank.contains (bankKey bank slot k)) || m.rom.any x.badRom.contains)

/-- SMPR (R369, R379, R382, R385, R395). -/
def execSmpr (p : Fin 8) (t : Fin 16) (s : State) : Host.Outcome State Fault Refusal :=
  next (issue s p t 0x4A fun x r w =>
    let slot := bitsOf w 24 21
    match vType (fTy w) with
    | none => illegal s p t r
    | some (wid, n) =>
      if sfuBad w true || bitOf w 20 then illegal s p t r
      else if !bitOf r.mpMask slot then failTile s p t r 0x3251 [slot, r.bank]
      else withRegs s p t x r ([fVa w, fVb w] ++ if fMask w != 0 && !fMz w then [fVd w] else []) [fMask w] []
        (let cp := s.cp r.ctx p
         let sl : SfuSlot := tabGet {} (if r.bank = 0 then cp.bank0 else cp.bank1).slots slot
         let f := ffmtOf (fTy w)
         let mask := vMask n (x.mreg (fMask w))
         let ins := List.zipWith (fun a b => (toF32 (f.decode a), toF32 (f.decode b)))
           (vElems wid n (x.vreg (fVa w))) (vElems wid n (x.vreg (fVb w)))
         if (evaluated mask ins).any fun e => mpBad x r.bank slot sl e.1 e.2 then killTile s p t r 0x3252 [slot, r.bank]
         else
           let res := ins.map fun e => (f.encode 0 false (ofF32 (mpRun sl e.1 e.2))).1
           finish s p t (x.setV (fVd w) (vOf wid (merge (fMz w) mask res (vElems wid n (x.vreg (fVd w)))))) r))

end Sys2Proof.Machine
end

