-- ==== Sys2Proof/Machine/Cp.lean ====
section
/-! DEFINITION. The command processor, dispatch and kernels: what a node may name and when it may dispatch (R500, R548, R602,
R1117), KERNEL and SVU kernel nodes (R502 to R507, R605, R693), and the checks that other node types share. -/

namespace Sys2Proof.Machine

/-! Whether a node may dispatch. -/

/-- The schedule slot in force lets context c dispatch (R620). -/
def slotAllows (P : Part) (c : Nat) : Bool :=
  match P.sched with
  | none => true
  | some l =>
    match l[P.slot]? with
    | none => true
    | some x => if x.kind = 0 then x.ctx == c else if x.kind = 1 then true else c == 0

/-- Node types that the schedule holds (R602). DEDUCED, log entry 40. -/
def scheduled (ty : Nat) : Bool := ty == 0 || ty == 1 || ty == 7 || ty == 8

/-- The context of a node dispatches on partition p: OPEN, no completion path broken (R546), the partition not held. -/
def ctxDispatches (s : State) (p c : Nat) : Bool :=
  let x := s.ctx c
  x.st == .open && !(x.parts.any fun q => (s.cp c q).broken) && !(s.part p).dispHeld && !(s.part p).frozen && !s.stopped

/-- Copies that run. -/
def copiesRunning (P : Part) : Nat := (P.insts.filter fun e => e.2.ty == 1 && e.2.st == .running).length

/-- The resources of a node are free (R500): its tiles, a copy engine (R510), staging space (R796). -/
def resourcesFree (s : State) (p : Nat) (i : Inst) : Bool :=
  if i.ty = 0 then i.tiles.all fun t => (s.tile p t).run.isNone
  else if i.ty = 1 then copiesRunning (s.part p) < 8
  else if i.ty = 7 then (s.part p).staging + i.length ≤ 4194304
  else true

/-- Slot q of the two expander kinds that a codebook mask names. -/
def maskSlots (x : CtxPart) (mask : Nat) : List CbSlot :=
  (List.range 8).flatMap fun q =>
    (if bitOf mask q then [tabGet {} x.cbW q] else []) ++ (if bitOf mask (q + 8) then [tabGet {} x.cbA q] else [])

/-- A slot that refuses the kernel (R260). -/
def slotEmpty (c : CbSlot) : Bool := c.st == .empty || c.st == .releaseWait

/-- A slot that holds the kernel (R257). -/
def slotHolding (c : CbSlot) : Bool := c.st == .loadWait || c.st == .writing

/-- A kernel held by a codebook load: its mask names no empty slot and one that is being loaded (R257, R260). A re-run is
never held (R259). -/
def cbHeld (s : State) (p : Nat) (i : Inst) : Bool :=
  let m := maskSlots (s.cp i.ctx p) i.cbMask
  i.ty == 0 && !i.refs && !m.any slotEmpty && m.any slotHolding

/-- An EPOCH of the context waits or runs: kernels and copies of the context are held (R521). -/
def epochHeld (s : State) (p : Nat) (i : Inst) : Bool :=
  (i.ty == 0 || i.ty == 1) &&
    (s.part p).insts.any fun e => e.2.ty == 8 && e.2.ctx == i.ctx && (e.2.st == .ready || e.2.st == .running)

/-- The re-run of a node that has consumed poison waits for the repairs of the generations that it holds (R752). -/
def repairHeld (s : State) (i : Inst) : Bool :=
  i.rerun && i.tainted && s.repairs.any fun r => r.ctx == i.ctx && tabFind i.bindings r.binding == some r.gen

/-- Held back although its resources may be free. -/
def heldBack (s : State) (p : Nat) (i : Inst) : Bool :=
  cbHeld s p i || epochHeld s p i || repairHeld s i || (i.ty == 0 && (s.part p).act != 0)

/-- Order of READY nodes: re-runs first, then as they became READY (R500, R632). -/
def goesBefore (a b : Inst) : Bool := (a.rerun && !b.rerun) || (a.rerun == b.rerun && a.readyNo < b.readyNo)

/-- A READY node may dispatch (R500, R602): its context and the schedule let it, nothing holds it back, its resources are free,
and every earlier node that could go is waiting for a resource that this one does not need. DEDUCED, log entry 41.
DEDUCED, log entry 49. -/
def mayDispatch (s : State) (p n : Nat) (i : Inst) : Bool :=
  let P := s.part p
  let lets (j : Inst) : Bool := ctxDispatches s p j.ctx && (!scheduled j.ty || slotAllows P j.ctx)
  i.st == .ready && lets i && !heldBack s p i && resourcesFree s p i &&
    P.insts.all fun e =>
      if e.1 != n && e.2.st == .ready && goesBefore e.2 i && lets e.2 then
        (heldBack s p e.2 || !resourcesFree s p e.2) &&
          !(i.ty == 0 && e.2.ty == 0 && i.tiles.any e.2.tiles.contains) &&
          !(i.ty == 1 && e.2.ty == 1 && !heldBack s p e.2)
      else true

/-! What every dispatch does. -/

/-- A node refused at dispatch: its event, status FAILED, the error flag on its fence (R548). -/
def refuse (s : State) (p n code : Nat) (more : List Nat) : State :=
  match s.inst? p n with
  | none => s
  | some i => failNode s p n code (i.data ++ more)

/-- The header fields that dispatch checks (R494, R522, R544, R548). -/
def headerBad (s : State) (p : Nat) (i : Inst) : Bool :=
  bitsOf (wd i.words 0) 22 12 != 0 || bitsOf (wd i.words 3) 15 12 != 0 || bitOf (wd i.words 5) 31 ||
  (i.fenceVal != 0 && 512 * (s.ctxParts i.ctx).length ≤ i.fenceId) ||
  (i.crec && (s.cp i.ctx p).ring.isNone)

/-- The generations bound on partition p, by binding (R727). -/
def boundNow (s : State) (c p : Nat) : Tab Nat :=
  (s.ctx c).bindings.filterMap fun e => let g := boundGen (s.ctx c) e.1 p; if g = 0 then none else some (e.1, g)

/-- The node goes to RUNNING; its first dispatch latches the mapping version (R659), and that of a KERNEL or COPY the page table,
active bank and bindings too (R504, R727, R747). -/
def startRun (s : State) (p n : Nat) (i : Inst) : State :=
  let now := (s.part p).count
  let x := s.cp i.ctx p
  let j : Inst :=
    if i.firstAt.isSome then { i with st := .running, dispAt := now }
    else
      let k : Inst := { i with st := .running, dispAt := now, firstAt := some now, mapVer := (s.ctx i.ctx).mapVer }
      if i.ty = 0 || i.ty = 1 then { k with pt := x.pt, bank := x.active, bindings := boundNow s i.ctx p } else k
  s.setInst p n j

/-- Take a READY node of type `ty` that passes `fits` to dispatch: the boundary comes first, then the header is checked, then
`go` runs with the node RUNNING and latched. A re-run that damage forbids is abandoned, whatever holds it (R754). A node that may not dispatch now is left alone (DESIGN CHOICE, log entry 2). -/
def dispatchNode (s : State) (p n : Nat) (fits : Inst → Bool) (go : State → Inst → State) : State :=
  match s.inst? p n with
  | none => s
  | some i =>
    if !fits i then s
    else if i.st == .ready && i.rerun && i.noRerun then abandon s p n .failed
    else if !mayDispatch s p n i then s
    else
      let s0 := boundary s p
      if i.firstAt.isNone && headerBad s0 p i then refuse s0 p n 0x3280 []
      else
        let s1 := startRun s0 p n i
        match s1.inst? p n with
        | some j =>
          let s2 := go s1 j
          match s2.inst? p n with
          | some k => if k.st == .running then traceRec s2 0x0280 p i.ctx i.seg i.idx i.iter else s2
          | none => s2
        | none => s1

/-- What the check of a named range finds (R1117, R993). -/
inductive Named where
  | ok
  | invalid
  | inReset (dva part : Nat)
deriving DecidableEq, Repr

/-- Check a device range that a node's body names, at the latched mappings (R1117). -/
def namedRange (s : State) (p : Nat) (i : Inst) (a n : Nat) (write : Bool) : Named :=
  if 2 ^ 48 ≤ a then .invalid
  else
    match checkRange s p i.ctx i.mapVer a n write with
    | none => .ok
    | some (.targetReset d t) => .inReset d t
    | some _ => .invalid

/-- Go on where every range passes; else the node is refused, or ends as R993 gives. -/
def withRanges (s : State) (p n : Nat) (rs : List Named) (k : State → State) : State :=
  match rs.find? (· != .ok) with
  | none => k s
  | some (.inReset a t) => accKill s p n (.targetReset a t)
  | some _ => refuse s p n 0x3280 []

/-- A read of device memory for a node that no regulator counts, a condition's (R608): bytes, or what ended it (R673). -/
def plainRead (s : State) (p n : Nat) (i : Inst) (a len : Nat) (k : State → List Byte → State) : State :=
  match readDva s p i.ctx i.mapVer a len 18 with
  | .error (e, s1) => accKill s1 p n e
  | .ok (bs, s1) =>
    if bs.any (·.2) then failNode s1 p n 0x32A3 (i.dvaData (poisonAt a bs) 0) else k s1 (bs.map (·.1))

/-- A read of named device memory for a node: bytes, or what ended it (R607, R616, R673). -/
def nodeRead (s : State) (p n : Nat) (i : Inst) (a len : Nat) (k : State → List Byte → State) : State :=
  if (closedHbm s p i.ctx i.mapVer a len n).isSome then regDisabled s p n
  else
    match readHbm s p i.ctx i.mapVer a len 18 with
    | .error (e, s1) => accKill s1 p n e
    | .ok (bs, s1) =>
      if bs.any (·.2) then failNode s1 p n 0x32A3 (i.dvaData (poisonAt a bs) 0) else k s1 (bs.map (·.1))

/-! Kernels. -/

/-- The image's 64-bit words. -/
def words64 : Nat → List Byte → List Nat
  | 0, _ => []
  | n + 1, bs => leNat (bs.take 8) :: words64 n (bs.drop 8)

/-- IMAGE_ADDR of a KERNEL. -/
def Inst.imageAddr (i : Inst) : Nat := wd64 i.words 8
/-- IMAGE_WORDS. -/
def Inst.imageWords (i : Inst) : Nat := bitsOf (wd i.words 14) 12 0

/-- A KERNEL body that dispatch refuses for its fields alone (R502, R548). -/
def kernelBad (i : Inst) : Bool :=
  bitsOf (wd i.words 6) 28 16 != 0 || bitsOf (wd i.words 14) 31 13 != 0 || wd i.words 15 != 0 ||
  i.tileMask == 0 || i.imageWords < 5 || i.imageAddr % 8 != 0

/-- Word k of the image with its argument in IMM: ARG0 to ARG3, then the tile number (R502). -/
def patch (image args : List Nat) (t : Nat) : List Nat :=
  (List.range image.length).map fun k =>
    let w := wd image k
    if k < 5 then w - w % 2 ^ 32 + (if k < 4 then wd args k % 2 ^ 32 else t) else w

/-- The words of half h of a tile's instruction memory (R505). -/
def Tile.words (x : Tile) (h : Nat) : List Nat := if h = 0 then x.imem0 else x.imem1

/-- Write an image from word 0 of half h on; the words behind it stay. -/
def Tile.setWords (x : Tile) (h : Nat) (image : List Nat) : Tile :=
  let l := image ++ (x.words h).drop image.length
  if h = 0 then { x with imem0 := l } else { x with imem1 := l }

/-- The image of a first dispatch goes into the free half, which becomes the half in use; a re-run finds its image in the half in
use (R504, R505). Another image that waited in the free half is gone. -/
def Tile.takeImage (x : Tile) (image : List Nat) (again : Bool) : Tile :=
  if again then x.setWords x.half image
  else { x.setWords (1 - x.half) image with half := 1 - x.half, loaded := none }

/-- Put a kernel on one tile: another context's scratchpads and tensors go and its banks are written (R605), the registers are 0
(R292), no line is kernel-written (R203), filler gives way (R628), a re-run finds its banks rewritten (R396). -/
def loadTile (x0 : Tile) (n t now : Nat) (i : Inst) (cb mp : Nat) : Tile :=
  let x := x0.takeImage (patch i.image i.args t) (i.reruns != 0 || i.preempts != 0)
  let y : Tile := if x.lastCtx = some i.ctx then x else
    { x with wm := x.wm.zero, am := x.am.zero, pm := x.pm.zero, live := [], sel := [], gbuf := [], badBank := [] }
  { y with
    wm := { y.wm with kw := [] }, am := { y.am with kw := [] }, pm := { y.pm with kw := [] }
    v := [], m := [], s := [], badV := [], badM := [], badS := [], badImem := []
    badBank := if i.reruns = 0 then y.badBank else []
    wAct := [], wShadow := [], badAct := [], badShadow := []
    mq := [], dq := [], kvq := [], lastCtx := some i.ctx, killedAt := none, filler := false
    run := some { inst := n, ctx := i.ctx, image := patch i.image i.args t, pc := 0, cbMask := cb, mpMask := mp,
                  bank := i.bank, pt := i.pt, mapVer := i.mapVer, progress := now } }

/-- Take the references of R258 and R386, once. -/
def takeRefs (s : State) (p n : Nat) (i : Inst) : State :=
  if i.refs then s
  else
    let x := modRefs (s.cp i.ctx p) i.cbMask fun c => { c with refs := c.refs + 1 }
    (s.setCp i.ctx p (modBank x i.bank (· + 1))).modInst p n fun j => { j with refs := true }

/-- Start a kernel on its tiles. -/
def startTiles (s : State) (p n : Nat) : State :=
  match s.inst? p n with
  | none => s
  | some i =>
    i.tiles.foldl (fun s t => s.setTile p t (loadTile (s.tile p t) n t (s.part p).count i i.cbMask i.mpMask)) s

/-- The first SFU slot that the kernel's mask names and that is not VALID in the bank it latches (R384). -/
def sfuMissing (x : CtxPart) (bank mask : Nat) : Option Nat :=
  let b := if bank = 0 then x.bank0 else x.bank1
  (List.range 16).find? fun q => bitOf mask q && !(tabGet {} b.slots q).valid

/-- The first codebook slot that the kernel's mask names and that refuses it (R260), as bit of the mask: expander kind × 8 + slot,
kind 0 for weights. -/
def cbMissing (x : CtxPart) (mask : Nat) : Option Nat :=
  (List.range 16).find? fun q => bitOf mask q && slotEmpty (if q < 8 then tabGet {} x.cbW q else tabGet {} x.cbA (q - 8))

/-- A kernel refused for a slot: the event's data name the lowest tile of its mask (R287, R397). -/
def refuseSlot (s : State) (p n : Nat) (i : Inst) (code : Nat) (slot : List Nat) : State :=
  failNode s p n code (i.tiles.headD 0 :: slot)

/-- The image that every tile of instance n holds in its free half, where the CP has loaded it ahead (R505). -/
def loadedImage (s : State) (p n : Nat) (i : Inst) : Option (List Nat) :=
  if i.tiles.all fun t => (s.tile p t).loaded == some n then
    i.tiles.head?.map fun t => ((s.tile p t).words (1 - (s.tile p t).half)).take i.imageWords
  else none

/-- On with the image: as loaded ahead of dispatch, else as read now (R505, R506). DEDUCED, log entry 48. -/
def withImage (s : State) (p n : Nat) (i : Inst) (k : State → List Nat → State) : State :=
  match loadedImage s p n i with
  | some image => k s image
  | none => nodeRead s p n i i.imageAddr (8 * i.imageWords) fun s bs => k s (words64 i.imageWords bs)

/-- Latch arguments and image, take the references and start (R502 to R505). A slot that refuses the kernel (R260, R384) is judged
after its body, its ranges and its image (DESIGN CHOICE, log entry 143). -/
def kernelGo (s : State) (p n : Nat) (i : Inst) (args : List Nat) : State :=
  withImage s p n i fun s image =>
    if (image.take 5).any fun w => opcodeOf w != 3 then refuse s p n 0x3280 []
    else
      let x := s.cp i.ctx p
      match cbMissing x i.cbMask, sfuMissing x i.bank i.mpMask with
      | some q, _ => refuseSlot s p n i 0x3234 [q / 8, q % 8]
      | none, some q => refuseSlot s p n i 0x3250 [q, i.bank]
      | none, none =>
        let args := if bitOf (wd i.words 6) 29 then args.take 3 ++ [i.iter % 2 ^ 32] else args
        let s1 := s.modInst p n fun j => { j with image, args }
        startTiles (takeRefs s1 p n i) p n

/-- KERNEL_DISPATCH (R500 to R506, R605, R1117): a first dispatch checks, latches and starts; a re-run starts again on the same
tiles from the latched values. -/
def execKernelDispatch (p : Fin 8) (inst : Nat) (s : State) : Host.Outcome State Fault Refusal :=
  next (gate s <| dispatchNode s p inst (fun i => i.ty == 0 && !bitOf (wd i.words 6) 31) fun s i =>
    if i.refs then startTiles s p inst
    else if kernelBad i then refuse s p inst 0x3280 []
    else
      let ind := bitOf (wd i.words 6) 30
      let rec_ := wd64 i.words 10
      withRanges s p inst
        ([namedRange s p i i.imageAddr (8 * i.imageWords) false] ++
          (if ind then [namedRange s p i rec_ 16 false] else [])) fun s =>
        if ind then nodeRead s p inst i rec_ 16 fun s bs => kernelGo s p inst i (bytesWords 4 bs)
        else kernelGo s p inst i ((List.range 4).map fun k => wd i.words (10 + k)))

/-- KERNEL_IMAGE_LOAD_DONE (R505): the image of a WAITING or READY kernel stands in the free half of its tiles' instruction
memory, and its dispatch latches what stands there (R504, R506). An image that cannot be read is left to the dispatch. A tile that is
frozen loads nothing (R636). DEDUCED, log entry 48. -/
def execKernelImageLoadDone (p : Fin 8) (inst : Nat) (s : State) : Host.Outcome State Fault Refusal :=
  next (match s.inst? p inst with
    | none => s
    | some i =>
      let v := (s.ctx i.ctx).mapVer
      if i.ty != 0 || i.svu || i.refs || !(i.st == .waiting || i.st == .ready) || kernelBad i || (s.part p).frozen ||
          (closedHbm s p i.ctx v i.imageAddr (8 * i.imageWords) inst).isSome then s
      else
        match readHbm s p i.ctx v i.imageAddr (8 * i.imageWords) 18 with
        | .error (_, s1) => s1
        | .ok (bs, s1) =>
          if bs.any (·.2) then s1
          else
            let image := words64 i.imageWords (bs.map (·.1))
            gate s <| i.tiles.foldl (fun s t =>
              let x := s.tile p t
              s.setTile p t { x.setWords (1 - x.half) image with loaded := some inst }) s1)

/-! SVU kernels. -/

/-- The FP32 sum of a layer's totals: every entry whose STEP is the layer's, by ascending CHUNK and then SVU (R480). -/
def layerTotals (s : State) (p : Nat) (i : Inst) (l : List Nat) : Except (AccErr × State) (Option (List Nat) × State) :=
  (List.range (768 * lyChunks l)).foldl (fun acc k =>
    match acc with
    | .error e => .error e
    | .ok (none, s) => .ok (none, s)
    | .ok (some t, s) =>
      match readHbm s p i.ctx i.mapVer (lyStat l + 64 * k) 64 16 with
      | .error e => .error e
      | .ok (bs, s1) =>
        if bs.any (·.2) then .ok (none, s1)
        else
          let w := bytesWords 9 (bs.map (·.1))
          .ok (some (if wd w 8 = lyStep l then (List.range 8).map fun j => fAdd fp32 0 (wd t j) (wd w j) else t), s1))
    (.ok (some (List.replicate 8 0), s))

/-- A descriptor of an SVU kernel that breaks its table (R693, R697). Fields that the mode does not use are not judged, but for PROG
of a LAYER kernel, which is 0; the bits above the 48 that the table names in an address that is used are taken as reserved
(DEDUCED, log entry 124). -/
def svuDescBad (d : List Nat) : Bool :=
  let w0 := wd d 0
  let hi (k : Nat) : Bool := bitsOf (wd d (k + 1)) 31 16 != 0
  let ni := bitsOf w0 23 20
  let no := bitsOf w0 19 16
  bitsOf w0 27 24 != 0 || bitOf w0 31 ||
  (if bitOf w0 30 then hi 4 || bitsOf w0 15 0 != 0
   else
    4 < ni || no < 1 || 2 < no || wd d 1 % 256 != 0 || hi 2 || (List.range ni).any (fun j => hi (4 + 2 * j)) ||
    (List.range no).any fun j => hi (12 + 2 * j))

/-- Bases of a STREAM kernel's streams. -/
def streamBases (d : List Nat) : List Nat :=
  ((List.range (bitsOf (wd d 0) 23 20)).map fun j => addr48 d (4 + 2 * j)) ++
    (List.range (bitsOf (wd d 0) 19 16)).map fun j => addr48 d (12 + 2 * j)

/-- A STREAM kernel breaks R695 or names no loaded program. -/
def streamBad (s : State) (p : Nat) (i : Inst) (d : List Nat) : Bool :=
  let n := wd d 1
  let bs := streamBases d
  let b0 := bs.headD 0
  match tabFind (s.ctx i.ctx).progs (bitsOf (wd d 0) 15 0) with
  | none => true
  | some prog =>
    prog.any svuNamesAcc || bs.any (fun b => b % 2097152 != b0 % 2097152) ||
    (bigPages b0 n).any fun a =>
      let x := bigPlace s i.ctx i.mapVer a
      (match x with | some (q, _) => q != p | none => true) ||
        bs.any fun b => bigPlace s i.ctx i.mapVer (b + (a - b0)) != x

/-- The ranges of a STREAM kernel: inputs and hyper-parameters readable, outputs writable (R697). -/
def streamRanges (s : State) (p : Nat) (i : Inst) (d : List Nat) : List Named :=
  let n := wd d 1
  [namedRange s p i (addr48 d 2) 64 false] ++
    ((List.range (bitsOf (wd d 0) 23 20)).map fun j => namedRange s p i (addr48 d (4 + 2 * j)) n false) ++
    (List.range (bitsOf (wd d 0) 19 16)).map fun j => namedRange s p i (addr48 d (12 + 2 * j)) n true

/-- Put the latched descriptor, layer, hyper-parameters and totals into the instance; a kernel without a group has ended. -/
def svuStart (s : State) (p n : Nat) (d l hp tot : List Nat) : State :=
  s.modInst p n fun i =>
    let j := { i with svuDesc := d, svuLayer := l, svuHp := hp, svuTot := tot, svuDone := [], svuOut := [] }
    { j with ended := svuTotal s p j == 0 }

/-- A LAYER kernel: the layer's own checks, the write permission that FLIP needs (R1109), the totals (R480), the
hyper-parameters. Poison met here is R486's. -/
def layerStart (s : State) (p n : Nat) (i : Inst) (d : List Nat) : State :=
  let la := addr48 d 4
  let data : List Nat := [0, la % 2 ^ 32, la / 2 ^ 32, 0]
  let closed (s : State) (a len : Nat) : Bool := (closedHbm s p i.ctx i.mapVer a len n).isSome
  if closed s la 64 then regDisabled s p n
  else match readHbm s p i.ctx i.mapVer la 64 16 with
  | .error (.targetReset d t, s1) => accKill s1 p n (.targetReset d t)
  | .error (_, s1) => failNode s1 p n 0x3271 data
  | .ok (bs, s1) =>
    if bs.any (·.2) then failNode s1 p n 0x2272 data
    else
      let l := bytesWords 16 (bs.map (·.1))
      let flip := bitOf (wd d 0) 29
      if lyFault s1 p i.ctx i.mapVer l || (flip && (checkRange s1 p i.ctx i.mapVer la 8 true).isSome) then
        failNode s1 p n 0x3271 data
      else if closed s1 (lyStat l) (49152 * lyChunks l) || closed s1 (lyHp l) 64 then regDisabled s1 p n
      else
        match layerTotals s1 p i l with
        | .error (e, s2) => accKill s2 p n e
        | .ok (none, s2) => failNode s2 p n 0x2272 data
        | .ok (some tot, s2) =>
          match readHbm s2 p i.ctx i.mapVer (lyHp l) 64 16 with
          | .error (e, s3) => accKill s3 p n e
          | .ok (hb, s3) =>
            if hb.any (·.2) then failNode s3 p n 0x2272 data
            else svuStart s3 p n d l (bytesWords 16 (hb.map (·.1))) tot

/-- A STREAM kernel: its checks, then the hyper-parameters. -/
def streamStart (s : State) (p n : Nat) (i : Inst) (d : List Nat) : State :=
  match (streamRanges s p i d).find? (· != .ok) with
  | some (.inReset a t) => accKill s p n (.targetReset a t)
  | some _ => failNode s p n 0x32A5 (i.dvaData i.imageAddr 0)
  | none =>
    if streamBad s p i d then failNode s p n 0x32A5 (i.dvaData i.imageAddr 0)
    else if (closedHbm s p i.ctx i.mapVer (addr48 d 2) 64 n).isSome then regDisabled s p n
    else
      match readHbm s p i.ctx i.mapVer (addr48 d 2) 64 16 with
      | .error (e, s1) => accKill s1 p n e
      | .ok (hb, s1) =>
        if hb.any (·.2) then failNode s1 p n 0x22A6 (i.dvaData (poisonAt (addr48 d 2) hb) 0)
        else svuStart s1 p n d [] (bytesWords 16 (hb.map (·.1))) []

/-- SVU_KERNEL_DISPATCH (R507, R693 to R697, R480): TILE_MASK, CB_MASK, MP_MASK and the reserved fields are 0; ARG_IND, ITER_ARG,
the arguments and IMAGE_WORDS have no effect. A re-run starts its groups afresh from the latched descriptor.
DEDUCED, log entry 26. -/
def execSvuKernelDispatch (p : Fin 8) (inst : Nat) (s : State) : Host.Outcome State Fault Refusal :=
  next (gate s <| dispatchNode s p inst (fun i => i.svu) fun s i =>
    if i.svuDesc ≠ [] then svuStart s p inst i.svuDesc i.svuLayer i.svuHp i.svuTot
    else if bitsOf (wd i.words 6) 28 0 != 0 || wd i.words 7 != 0 || bitsOf (wd i.words 14) 31 13 != 0 || wd i.words 15 != 0 then
      refuse s p inst 0x3280 []
    else
      withRanges s p inst [namedRange s p i i.imageAddr 64 false] fun s =>
        nodeRead s p inst i i.imageAddr 64 fun s bs =>
          let d := bytesWords 16 bs
          if svuDescBad d then failNode s p inst 0x32A5 (i.dvaData i.imageAddr 0)
          else if svuIsLayer d then layerStart s p inst i d
          else streamStart s p inst i d)

end Sys2Proof.Machine
end

