-- ==== Sys2Proof/Machine/NodeTypes.lean ====
section
/-! DEFINITION. Node types that run on no tile: WAIT, COND, LOOP, CALL, SIGNAL, SEND and its arm, EPOCH, EVENT and JOIN (R501,
R511 to R521, R796, R804, R1115 to R1117). -/

namespace Sys2Proof.Machine

/-! Host addresses (R865). -/

/-- The 4 KiB pages of host bytes [a, a + n). -/
def hostPages (a n : Nat) : List Nat :=
  if n = 0 then [] else (List.range ((a + n - 1) / 4096 - a / 4096 + 1)).map (a / 4096 + ·)

/-- The pages of [a, a + n) that function k still has to have translated: with ATS enabled, those that its cache does not hold. -/
def missingPages (s : State) (k a n : Nat) : List Nat :=
  if (s.fn k).atsEn then (hostPages a n).filter fun g => !(s.fn k).ats.contains g else []

/-- Issue Translation Requests of function k for pages. -/
def askPages (s : State) (k : Nat) (ps : List Nat) : State :=
  if ps = [] then s else s.setFn k { s.fn k with xlReq := setInsAll (s.fn k).xlReq ps }

/-! Conditions (R511 to R514). -/

/-- KIND of WAIT, COND and LOOP. -/
def Inst.kind (i : Inst) : Bool := bitOf (wd i.words 6) 27
/-- C_SPACE: the word lies in host memory. -/
def Inst.cHost (i : Inst) : Bool := bitOf (wd i.words 6) 31
/-- Width of the condition word in bytes. -/
def Inst.cWidth (i : Inst) : Nat := if bitOf (wd i.words 6) 30 then 8 else 4
/-- C_ADDR. -/
def Inst.cAddr (i : Inst) : Nat := wd64 i.words 8
/-- C_MASK. -/
def Inst.cMask (i : Inst) : Nat := wd64 i.words 10
/-- C_REF. -/
def Inst.cRef (i : Inst) : Nat := wd64 i.words 12
/-- C_IDLE. -/
def Inst.cIdle (i : Inst) : Nat := wd64 i.words 14
/-- POLL_US. -/
def Inst.pollUs (i : Inst) : Nat := bitsOf (wd i.words 6) 23 16
/-- TIMEOUT in counts, none for 0xFFFF_FFFF (R517). -/
def Inst.timeout (i : Inst) : Option Nat :=
  let t := wd i.words 7
  if t = 0xFFFFFFFF then none else some (us (if t = 0 then 50000 else t))

/-- A condition holds (R512). -/
def condHolds (i : Inst) (w : Nat) : Bool :=
  let x := Nat.land w i.cMask
  match bitsOf (wd i.words 6) 29 28 with
  | 0 => x == i.cRef
  | 1 => x != i.cRef
  | 2 => i.cRef ≤ x
  | _ => x < i.cRef

/-- Fields of a memory condition that dispatch refuses: reserved bits, an unaligned address. `poll`: POLL_US and C_IDLE are
used. -/
def condBad (i : Inst) (poll : Bool) (low : Bool) : Bool :=
  let w := wd i.words 6
  bitOf w 26 || bitsOf w 25 24 != 0 || (low && bitsOf w 15 0 != 0) ||
  (if poll then i.pollUs == 0 else i.pollUs != 0 || i.cIdle != 0) || i.cAddr % i.cWidth != 0

/-- The named range of a condition word in device memory. -/
def condRange (s : State) (p : Nat) (i : Inst) : List Named :=
  if i.cHost then [] else [namedRange s p i i.cAddr i.cWidth false]

/-- A failed read of a condition word (R539, R1116): logged, repeated after the node's interval; the third in a row abandons
the node as RERUN_EXHAUSTED (R535). -/
def condIo (s : State) (p n : Nat) (i : Inst) : State :=
  let s1 := nodeEvent s p n 0x3282 i.data
  if 2 ≤ i.reruns then
    let s2 := abandon s1 p n .failed
    raise s2 { code := 0x4287, ctx := i.ctx, part := some p, data := i.data }
  else
    s1.modInst p n fun j =>
      { j with reruns := j.reruns + 1,
               nextPoll := (s.part p).count + us (if i.ty = 4 && i.kind then i.pollUs else 1) }

/-- Read the condition word once and go on with it; a good read clears the count of failed ones (R1116), poison ends the node
(R673). A host word whose page has no translation is asked for, and read by a later poll (R865). -/
def condRead (s : State) (p n : Nat) (i : Inst) (rd : HostRd) (k : State → Nat → State) : State :=
  let good (s : State) (bs : List Byte) : State := k (s.modInst p n fun j => { j with reruns := 0 }) (leNat bs)
  if i.cHost then
    match rd, missingPages s (s.ctx i.ctx).owner i.cAddr i.cWidth with
    | .data bs, [] => good s (bs.take i.cWidth)
    | .error, [] => condIo s p n i
    | .data _, ps | .error, ps => askPages s (s.ctx i.ctx).owner ps
    | .noXlate, _ =>
      failNode s p n 0x32E1 [(s.ctx i.ctx).owner + 65536 * i.ctx, i.cAddr % 2 ^ 32, i.cAddr / 2 ^ 32, i.seg + 65536 * i.idx]
  else plainRead s p n i i.cAddr i.cWidth good

/-- Ask again later. -/
def pollAgain (s : State) (p n uss : Nat) : State :=
  s.modInst p n fun j => { j with nextPoll := (s.part p).count + us uss }

/-- The execution of the node has ended: it may commit. -/
def endExec (s : State) (p n : Nat) : State := s.modInst p n fun j => { j with ended := true }

/-- A node's condition may be read now: it runs, has not ended, its interval has passed, and no save holds the CP (R636). -/
def pollDue (s : State) (p : Nat) (i : Inst) : Bool :=
  i.st == .running && !i.ended && !(s.part p).frozen && i.nextPoll ≤ (s.part p).count

/-! WAIT. -/

/-- A grant lets context c wait on, or signal, fence f of context o, seen from partition p (R519, R581, R583). -/
def granted (s : State) (p c o f : Nat) (signal : Bool) : Bool :=
  (s.ctx o).grants.any fun g =>
    g.grantee == c && g.first ≤ f && f < g.first + g.count && (if signal then g.signal else g.wait) &&
      (match g.revoked with | none => true | some l => l.contains p)

/-- The fence exists and the node may use it (R519, R522). -/
def fenceUsable (s : State) (p c o f : Nat) (signal : Bool) : Bool :=
  (s.ctx o).st == .open && f < 512 * (s.ctx o).parts.length && (o == c || granted s p c o f signal)

/-- A WAIT on a fence that dispatch refuses (R511, R517, R519, R522). -/
def waitFenceBad (s : State) (p : Nat) (i : Inst) : Bool :=
  let w := wd i.words 6
  let cf := waitFenceOf i
  bitOf w 26 || i.pollUs != 0 || i.cIdle != 0 || i.cAddr != 0 || i.cMask != 0 || 2 ^ 63 ≤ i.cRef ||
  wd i.words 7 == 0xFFFFFFFF || !fenceUsable s p i.ctx cf.1 cf.2 false

/-- WAIT_FENCE: the WAIT is dispatched, with its grant latched at the first dispatch (R1115), and is released at once where its fence
word already suffices (R513, R525). -/
def execWaitFence (p : Fin 8) (inst : Nat) (s : State) : Host.Outcome State Fault Refusal :=
  next (dispatchNode s p inst (fun i => i.ty == 2 && !i.kind) fun s i =>
    if !i.rerun && waitFenceBad s p i then refuse s p inst 0x3280 []
    else
      let cf := waitFenceOf i
      let s1 := if i.rerun then s else s.modInst p inst fun j => { j with grant := some (cf.1, (s.ctx cf.1).epoch) }
      s1.modInst p inst (releaseWait cf.1 cf.2 (fenceWord s1 cf.1 cf.2)))

/-- One read of a WAIT on memory (R513). -/
def waitPoll (s : State) (p n : Nat) (i : Inst) (rd : HostRd) : State :=
  condRead s p n i rd fun s w => if condHolds i w then endExec s p n else pollAgain s p n 1

/-- WAIT_MEMORY_POLL: the first one dispatches the node; each one reads the word (R513, R1116, R1117). -/
def execWaitMemoryPoll (p : Fin 8) (inst : Nat) (rd : HostRd) (s : State) : Host.Outcome State Fault Refusal :=
  next (match s.inst? p inst with
    | none => s
    | some i =>
      if i.ty != 2 || !i.kind then s
      else if pollDue s p i then waitPoll s p inst i rd
      else
        dispatchNode s p inst (fun _ => true) fun s i =>
          if condBad i false true then refuse s p inst 0x3280 []
          else withRanges s p inst (condRange s p i) fun s => waitPoll s p inst i rd)

/-- One read of a COND (R514): with POLL it asks again while the word says "not yet". -/
def condPoll (s : State) (p n : Nat) (i : Inst) (rd : HostRd) : State :=
  condRead s p n i rd fun s w =>
    if i.kind && Nat.land w i.cMask = i.cIdle then pollAgain s p n i.pollUs
    else s.modInst p n fun j => { j with choice := some (condHolds i w), ended := true }

/-- COND_POLL (R514, R1116, R1117). -/
def execCondPoll (p : Fin 8) (inst : Nat) (rd : HostRd) (s : State) : Host.Outcome State Fault Refusal :=
  next (match s.inst? p inst with
    | none => s
    | some i =>
      if i.ty != 4 then s
      else if pollDue s p i then condPoll s p inst i rd
      else
        dispatchNode s p inst (fun _ => true) fun s i =>
          if condBad i i.kind true then refuse s p inst 0x3280 []
          else withRanges s p inst (condRange s p i) fun s => condPoll s p inst i rd)

/-- WAIT_TIMEOUT: TIMEOUT has passed since the first dispatch and the node is short of its commit point (R538). -/
def execWaitTimeout (p : Fin 8) (inst : Nat) (s : State) : Host.Outcome State Fault Refusal :=
  next (match s.inst? p inst with
    | none => s
    | some i =>
      match i.firstAt, i.timeout with
      | some at_, some lim =>
        if (i.ty == 2 || i.ty == 4) && i.st == .running && !i.ended && !(s.part p).frozen && at_ + lim ≤ (s.part p).count then
          failNode s p inst 0x3283 i.data
        else s
      | _, _ => s)

/-! CALL and LOOP (R501, R515, R516). -/

/-- Make the instances of a segment, in node order, and settle them (R501, R545). -/
def instantiate (s : State) (p c seg : Nat) (nodes : List (List Nat)) (parent : Option Nat) (iter : Nat) : State :=
  let P := s.part p
  let base := P.nextInst
  let mk (k : Nat) (ws : List Nat) : Nat × Inst :=
    (base + k, { ctx := c, seg, idx := k, words := ws, parent, iter })
  let is := (List.zip (List.range nodes.length) nodes).map fun x => mk x.1 x.2
  let s1 := s.setPart p { P with insts := is.foldl (fun t e => tabSet t e.1 e.2) P.insts, nextInst := base + nodes.length }
  let x := s1.cp c p
  let s2 := s1.setCp c p { x with recs := x.recs ++ (is.filter fun e => e.2.crec).map fun e => (e.1, none) }
  match is.head? with
  | some e => settle nestFuel s2 p e.2
  | none => s2

/-- The nodes of a stored subgraph, none where there is no such subgraph. -/
def subgraphOf (s : State) (c p h : Nat) : Option (List (List Nat)) :=
  match tabFind (s.cp c p).segs h with
  | some g => if g.root then none else some g.nodes
  | none => none

/-- Instances of an iteration or a CALL of instance n stand on partition p. -/
def hasNodes (s : State) (p n : Nat) : Bool := (s.part p).insts.any fun e => e.2.parent == some n

/-- CALL: dispatch instantiates the subgraph (R501). One that runs again finds the nodes that it has made, or none where all have
resolved (DEDUCED, log entry 88). -/
def execCall (p : Fin 8) (inst : Nat) (s : State) : Host.Outcome State Fault Refusal :=
  next (dispatchNode s p inst (fun i => i.ty == 6) fun s i =>
    if i.rerun then (if hasNodes s p inst then s else endExec s p inst)
    else if bitsOf (wd i.words 6) 31 16 != 0 || (i.words.drop 7).any (· != 0) then refuse s p inst 0x3280 []
    else
      match subgraphOf s i.ctx p (bitsOf (wd i.words 6) 15 0) with
      | none => refuse s p inst 0x3280 []
      | some ns => instantiate s p i.ctx (bitsOf (wd i.words 6) 15 0) ns (some inst) i.iter)

/-- Start the next iteration of a LOOP, or end it: COUNT iterations have run, or in while mode the condition fails (R515).
`choice` marks a LOOP that has stopped. -/
def loopStep (s : State) (p n : Nat) (i : Inst) (rd : HostRd) : State :=
  let stop (s : State) : State := s.modInst p n fun j => { j with ended := true, choice := some true }
  let go (s : State) : State :=
    match subgraphOf s i.ctx p (bitsOf (wd i.words 6) 15 0) with
    | none => refuse s p n 0x3280 []
    | some ns =>
      instantiate (s.modInst p n fun j => { j with started := j.started + 1 }) p i.ctx (bitsOf (wd i.words 6) 15 0) ns
        (some n) i.started
  if wd i.words 7 ≤ i.started then stop s
  else if i.kind then condRead s p n i rd fun s w => if condHolds i w then go s else stop s
  else go s

/-- A LOOP that dispatch refuses. -/
def loopBad (i : Inst) : Bool :=
  let w := wd i.words 6
  bitOf w 26 || bitsOf w 25 24 != 0 || i.pollUs != 0 || i.cIdle != 0 || (i.kind && i.cAddr % i.cWidth != 0)

/-- LOOP_ITERATION_START: the first dispatches the LOOP; each starts one iteration once the previous one has ended (R515,
R1116). A LOOP that runs again goes on where it stood (DEDUCED, log entry 88). -/
def execLoopIterationStart (p : Fin 8) (inst : Nat) (rd : HostRd) (s : State) : Host.Outcome State Fault Refusal :=
  next (match s.inst? p inst with
    | none => s
    | some i =>
      if i.ty != 5 then s
      else if pollDue s p i && i.choice.isNone then
        if hasNodes s p inst then s else loopStep s p inst i rd
      else
        dispatchNode s p inst (fun _ => true) fun s i =>
          if i.rerun && i.choice.isSome then endExec s p inst
          else if i.rerun && hasNodes s p inst then s
          else if loopBad i then refuse s p inst 0x3280 []
          else withRanges s p inst (if i.kind then condRange s p i else []) fun s => loopStep s p inst i rd)

/-! SIGNAL, SEND, EPOCH, EVENT, JOIN. -/

/-- The first port of a node that sends to module `dst` is DOWN, disabled or refused on this partition (R803, R818); a transfer
to the module itself uses no port. -/
def routeRefused (s : State) (p dst : Nat) : Bool :=
  if dst = s.moduleId then false
  else
    match s.routePort dst with
    | none => true
    | some k => !s.portUsable k || (s.part p).portOff.contains k

/-- FAB_ROUTE_DISABLED: node n is refused, its packets go to module m (R803, R818, R822). -/
def routeDisabled (s : State) (p n m : Nat) : State :=
  match s.inst? p n with
  | some i => failNode s p n 0x32C6 (fabNode s p i m 4)
  | none => s

/-- The resource that a transfer to module `dst` needs is closed for new nodes (R616): the first port's egress, or for device memory
of the module itself the stacks of other partitions. -/
def egressClosed (s : State) (p n dst ctx space a len : Nat) : Option Nat :=
  if dst = s.moduleId then
    (if space = 0 then closedHbm s p ctx (s.ctx ctx).mapVer a len n else none)
  else
    match s.routePort dst with
    | some k => if closedFor (s.part p) (2 + k) n then some (2 + k) else none
    | none => none

/-- Fields of a SIGNAL that dispatch refuses (R10, R518, R519, R522, R803). -/
def signalBad (s : State) (p : Nat) (i : Inst) : Bool :=
  let w6 := wd i.words 6
  let w7 := wd i.words 7
  let f := bitsOf w6 11 0
  let c := bitsOf w6 21 16
  bitOf w6 26 || bitsOf w6 23 22 != 0 || bitsOf w6 15 12 != 0 || bitsOf w7 18 8 != 0 || (i.words.drop 12).any (· != 0) ||
  (match i.sTarget with
   | 0 => bitsOf w6 29 28 == 3 || bitOf w6 27 || bitsOf w6 25 24 != 0 || w7 != 0 || wd64 i.words 8 != 0 ||
          !fenceUsable s p i.ctx (if c = 0 then i.ctx else c) f true
   | 1 => bitsOf w6 29 28 == 3 || bitOf w6 27 || wd64 i.words 8 != 0 || bitsOf w6 25 24 == 3 || !s.inSlice i.destModule
   | _ => bitsOf w6 29 28 != 0 || bitsOf w6 25 24 != 0 || w7 != 0 || c != 0 || f != 0 || wd64 i.words 8 % i.sBytes != 0)

/-- SIGNAL: the first dispatch checks it and latches its grant; all its work is done in its commit (R518, R1115, R1117). One that
writes to host memory waits for its translation first (R865, R867). -/
def execSignal (p : Fin 8) (inst : Nat) (s : State) : Host.Outcome State Fault Refusal :=
  next (dispatchNode s p inst (fun i => i.ty == 3) fun s i =>
    if !i.rerun && signalBad s p i then refuse s p inst 0x3280 []
    else if i.sTarget = 1 && routeRefused s p i.destModule then routeDisabled s p inst i.destModule
    else
      withRanges s p inst (if i.sTarget = 3 then [namedRange s p i (wd64 i.words 8) i.sBytes true] else []) fun s =>
        let c := bitsOf (wd i.words 6) 21 16
        let k := (s.ctx i.ctx).owner
        let ps := if i.sTarget = 2 then missingPages s k (wd64 i.words 8) i.sBytes else []
        let grant := if i.rerun then i.grant
          else if i.sTarget = 0 && c ≠ 0 && c ≠ i.ctx then some (c, (s.ctx c).epoch) else none
        (askPages s k ps).modInst p inst fun j => { j with ended := ps == [], xlWait := ps, grant })

/-- SRC_SPACE of a SEND. -/
def sdSpace (i : Inst) : Nat := bitsOf (wd i.words 6) 27 26

/-- Fields of a SEND that dispatch refuses (R801 to R804). -/
def sendBad (s : State) (i : Inst) : Bool :=
  let w6 := wd i.words 6
  let w7 := wd i.words 7
  let tc := bitsOf w6 29 28
  let n := i.length
  i.sdOp == 3 || bitsOf w6 12 0 != 0 || bitsOf (wd i.words 13) 31 8 != 0 || 2 ^ 63 ≤ wd64 i.words 14 ||
  n % 64 != 0 || n == 0 || 262144 < n ||
  (i.sdOp == 0 && 2 ^ 48 ≤ wd64 i.words 10) || xor (i.rtag != 0) (tc == 3) || !s.inSlice i.destModule ||
  (sdSpace i == 0 && bitsOf w6 25 22 != 0) ||
  (sdSpace i != 0 && Spc.size (spcOf (sdSpace i)) < wd64 i.words 8 + n) ||
  (bitsOf w6 21 20 == 0 && bitsOf w6 19 16 != 0) || (!bitOf w7 12 && (bitsOf w7 11 0 != 0 || wd64 i.words 14 != 0)) ||
  (!i.isArm s && badPieces (wd64 i.words 10 % 2 ^ 48) n (i.sdOp != 0)) ||
  (i.isArm s && (bitsOf w6 21 13 != 0 || bitsOf w7 18 12 != 0 || bitsOf (wd i.words 13) 7 0 != 0))

/-- Keep the bytes of a SEND in the staging buffer (R796). -/
def stage (s : State) (p n : Nat) (bs : List Byte) : State :=
  let P := s.part p
  (s.setPart p { P with staging := P.staging + bs.length }).modInst p n fun j => { j with staged := some bs, ended := true }

/-- Read the source of a SEND: device memory, or a scratchpad of the partition, where a bad line ends it as poison does; the event
names the source address in the place of the DVA (R673, R702, R796; DESIGN CHOICE, log entry 12). -/
def sendStage (s : State) (p n : Nat) (i : Inst) : State :=
  let a := wd64 i.words 8
  if sdSpace i = 0 then nodeRead s p n i a i.length fun s bs => stage s p n bs
  else
    let d := (s.tile p (bitsOf (wd i.words 6) 25 22)).spad (spcOf (sdSpace i))
    if (d.readErr a i.length).isSome then failNode s p n 0x32A3 (i.dvaData a 0)
    else stage s p n (memRead d.bytes a i.length)

/-- Dispatch of a SEND: its fields, its route (an arm has none), the regulators, its source (R616, R803, R1117). -/
def sendGo (s : State) (p n : Nat) (i : Inst) : State :=
  let arm := i.isArm s
  if i.staged.isSome then endExec s p n
  else if sendBad s i then refuse s p n 0x3280 []
  else if !arm && routeRefused s p i.destModule then routeDisabled s p n i.destModule
  else
    match (if arm then none else
        egressClosed s p n i.destModule (bitsOf (wd i.words 7) 18 13) (bitsOf (wd i.words 6) 21 20) (wd64 i.words 10 % 2 ^ 48)
          i.length) with
    | some _ => regDisabled s p n
    | none =>
      withRanges s p n (if sdSpace i = 0 then [namedRange s p i (wd64 i.words 8) i.length false] else []) fun s =>
        sendStage s p n i

/-- SEND: a SEND that is no arm stages its bytes; its commit releases them (R520, R796). -/
def execSend (p : Fin 8) (inst : Nat) (s : State) : Host.Outcome State Fault Refusal :=
  next (gate s <| dispatchNode s p inst (fun i => i.ty == 7 && !i.isArm s) fun s i => sendGo s p inst i)

/-- SEND_ARM: a SEND to the module itself with an RTAG stages an arm, which its commit makes live (R804, R805). -/
def execSendArm (p : Fin 8) (inst : Nat) (s : State) : Host.Outcome State Fault Refusal :=
  next (gate s <| dispatchNode s p inst (fun i => i.isArm s) fun s i => sendGo s p inst i)

/-- EPOCH: refused where its binding or generation cannot be bound (R744); then it waits for the nodes that hold the old
binding (R521). -/
def execEpoch (p : Fin 8) (inst : Nat) (s : State) : Host.Outcome State Fault Refusal :=
  next (dispatchNode s p inst (fun i => i.ty == 8) fun s i =>
    if bitsOf (wd i.words 6) 31 16 != 0 || (i.words.drop 8).any (· != 0) then refuse s p inst 0x3280 []
    else
      let b := bitsOf (wd i.words 6) 15 0
      let g := wd i.words 7
      let ok : Bool := match tabFind (s.ctx i.ctx).bindings b with
        | none => false
        | some B => match tabFind B.gens g with | some w => w.st == .loaded && !w.damagedOn.contains p.val | none => false
      if ok then endExec s p inst else failNode s p inst 0x32B4 [i.ctx, b, g, 0])

/-- EVENT: its commit raises the vector (R530). -/
def execEvent (p : Fin 8) (inst : Nat) (s : State) : Host.Outcome State Fault Refusal :=
  next (dispatchNode s p inst (fun i => i.ty == 9) fun s i =>
    if bitsOf (wd i.words 6) 31 11 != 0 || (i.words.drop 7).any (· != 0) then refuse s p inst 0x3280 []
    else endExec s p inst)

/-- Half words of a JOIN body past its JN edges are reserved. -/
def joinBad (i : Inst) : Bool :=
  bitsOf (wd i.words 6) 31 5 != 0 ||
  (List.range 18).any fun j => bitsOf (wd i.words 6) 4 0 ≤ j && halfWord i.words 7 j != 0

/-- JOIN: nothing but its edges and its commit (R497). -/
def execJoin (p : Fin 8) (inst : Nat) (s : State) : Host.Outcome State Fault Refusal :=
  next (dispatchNode s p inst (fun i => i.ty == 10) fun s i =>
    if joinBad i then refuse s p inst 0x3280 [] else endExec s p inst)

end Sys2Proof.Machine
end

