-- ==== Sys2Proof/Machine/CommitCmds.lean ====
section
/-! DEFINITION. The commit of a node and what may end or follow it: NODE_COMMIT, completion records (R542 to R547), budgets, I/O
errors, acknowledgement timeouts, and the deadlock check (R537 to R541). -/

namespace Sys2Proof.Machine

/-! Completion rings. -/

/-- The entries of a ring that the records ahead of instance n's claim: those of committing nodes, and ready ones (R544, R545). -/
def claimed (s : State) (p c n : Nat) : Nat :=
  (((s.cp c p).recs.takeWhile fun r => r.1 != n).filter fun r =>
    r.2.isSome || match s.inst? p r.1 with | some i => i.st == .committing | none => false).length

/-- A read of a host word for a context has failed: an error completion, or with ATS enabled a refused translation (R546). -/
def hostReadBad (s : State) (c : Nat) (rd : HostRd) : Bool :=
  match rd with
  | .data _ => false
  | .error => true
  | .noXlate => (s.fn (s.ctx c).owner).atsEn

/-- Segment, node index and iteration that a record names. -/
def recordData (ws : List Nat) : List Nat := [wd ws 0 % 65536, wd ws 1 % 4096, wd ws 3]

/-- The completion path of context c breaks on partition p (R546): dispatch of its nodes stops on every partition, the nodes past
their commit point complete without their records, and what other records stand stays for the next ring (R547, R591). `node` names
the node whose record met it (R548). -/
def breakPath (s : State) (c p : Nat) (node : List Nat) : State :=
  let x := s.cp c p
  if x.broken then s
  else
    let past (n : Nat) : Bool := match s.inst? p n with | some i => i.st == .committing | none => false
    let s1 := s.setCp c p (({ x with broken := true } : CtxPart).loseRecords past)
    let s2 := logEvent s1 { code := 0x2286, ctx := c, part := some p, data := node }
    ((s2.part p).insts.filter fun e => e.2.ctx == c && e.2.held).foldl (fun s e => commitEnd s p e.1) s2

/-- Whether a node with CREC 1 finds a free entry; a failed read of the consumer count breaks the path (R544, R546). A count whose
page has no translation yet is asked for first (R865). -/
def ringRoom (s : State) (p n : Nat) (i : Inst) (cons : HostRd) : Bool × State :=
  if !i.crec then (true, s)
  else
    let x := s.cp i.ctx p
    if x.broken then (true, s)
    else
      match x.ring with
      | none => (true, s)
      | some r =>
        let k := (s.ctx i.ctx).owner
        match cons, missingPages s k r.cons 4 with
        | .data bs, [] =>
          let used := (r.k + 2 ^ 32 - leNat (bs.take 4) % 2 ^ 32) % 2 ^ 32
          (used + claimed s p i.ctx n < 2 ^ r.sizeLog2, s)
        | rd, ps => if hostReadBad s i.ctx rd then (true, breakPath s i.ctx p i.data) else (false, askPages s k ps)

/-- An EPOCH's commit waits while a running node of its partition holds the old binding (R521). -/
def epochWaits (s : State) (p n : Nat) (i : Inst) : Bool :=
  let b := bitsOf (wd i.words 6) 15 0
  let old := boundGen (s.ctx i.ctx) b p
  old != 0 && old != wd i.words 7 && (s.part p).insts.any fun e =>
    e.1 != n && e.2.ctx == i.ctx && e.2.st == .running && tabFind e.2.bindings b == some old

/-- The generation of an EPOCH is still LOADED. -/
def epochLoaded (s : State) (p : Nat) (i : Inst) : Bool :=
  match tabFind (s.ctx i.ctx).bindings (bitsOf (wd i.words 6) 15 0) with
  | none => false
  | some B => match tabFind B.gens (wd i.words 7) with | some w => w.st == .loaded && !w.damagedOn.contains p | none => false

/-- The execution of the node has ended: for a LOOP it has stopped, for a CALL its nodes have resolved. -/
def instEnded (i : Inst) : Bool := i.ended && (i.ty != 5 || i.choice.isSome)

/-- A transfer of the node has units that wait for a regulator: its execution has not ended (R528, R611). -/
def instOwes (s : State) (p : Nat) (i : Inst) : Bool := (i.ty == 0 || i.ty == 1 || i.ty == 7) && owes s p (List.range 11)

/-- NODE_COMMIT: the commit point and the commit phase as far as it goes without an acknowledgement or a record (R528 to R531).
A WAIT that was released with error is abandoned instead (R525). DEDUCED, log entry 37. DEDUCED, log entry 45. -/
def execNodeCommit (p : Fin 8) (inst : Nat) (cons : HostRd) (s : State) : Host.Outcome State Fault Refusal :=
  next (gate s <| match s.inst? p inst with
    | none => s
    | some i =>
      if i.st != .running || !instEnded i || (s.part p).frozen || instOwes s p i then s
      else if i.ty = 2 && i.status = .fenceError then resolveNode s p inst .abandoned .fenceError
      else if i.ty = 8 && !epochLoaded s p i then failNode s p inst 0x32B4 [i.ctx, bitsOf (wd i.words 6) 15 0, wd i.words 7, 0]
      else if i.ty = 8 && epochWaits s p inst i then s
      else
        let r := ringRoom s p inst i cons
        if r.1 then commitNode r.2 p inst else s)

/-- Set PHASE of the first word of a record (R543). -/
def withPhase (ws : List Nat) (ph : Nat) : List Nat :=
  match ws with
  | [] => []
  | w :: l => (w % 2 ^ 31 + 2 ^ 31 * ph) :: l

/-- COMPLETION_RECORD_WRITE: the earliest record of the ring, once it is ready, an entry is free and the pages of the count and of the
entry are translated, goes to host memory (R543 to R545, R865); the commit that waited with it ends (R531). -/
def execCompletionRecordWrite (p : Fin 8) (ctx : Fin 64) (cons : HostRd) (s : State) : Host.Outcome State Fault Refusal :=
  next (
    let x := s.cp ctx p
    match x.recs, x.ring with
    | (n, some ws) :: rest, some r =>
      if x.broken || (s.part p).frozen then s
      else
        let fn := (s.ctx ctx).owner
        let at_ := r.base + 32 * (r.k % 2 ^ r.sizeLog2)
        match cons, missingPages s fn r.cons 4 ++ missingPages s fn at_ 32 with
        | .data bs, [] =>
          let used := (r.k + 2 ^ 32 - leNat (bs.take 4) % 2 ^ 32) % 2 ^ 32
          if 2 ^ r.sizeLog2 ≤ used then s
          else
            let size := 2 ^ r.sizeLog2
            let ph := (r.k / size + 1) % 2
            let s1 := s.setCp ctx p { x with recs := rest, ring := some { r with k := r.k + 1 } }
            let s2 := s1.post ctx at_ (wordsBytes (withPhase ws ph)) false
            match s2.inst? p n with
            | some i => if i.held then commitEnd s2 p n else s2
            | none => s2
        | rd, ps => if hostReadBad s ctx rd then breakPath s ctx p (recordData ws) else askPages s fn ps
    | _, _ => s)

/-! Budgets, I/O errors, timeouts. -/

/-- NODE_BUDGET: a KERNEL, COPY, SEND or EPOCH short of its commit point BUDGET after its dispatch (R537). -/
def execNodeBudget (p : Fin 8) (inst : Nat) (s : State) : Host.Outcome State Fault Refusal :=
  next (match s.inst? p inst with
    | none => s
    | some i =>
      if scheduled i.ty && i.st == .running && !(s.part p).frozen && i.dispAt + i.budget ≤ (s.part p).count then killNode s p inst 0x3281 i.data
      else s)

/-- A running node reads host memory, the weight store or an RDMA peer. -/
def readsOutside (i : Inst) : Bool :=
  let w := wd i.words 6
  (i.ty == 1 && (bitsOf w 27 26 != 0 || (bitsOf w 25 24 == 3 && !bitOf w 23))) ||
  (((i.ty == 2 && i.kind) || i.ty == 4 || (i.ty == 5 && i.kind)) && i.cHost && !i.ended)

/-- NODE_IO: such a read ends in an error completion (R539); a condition's read alone is repeated (R1116). -/
def execNodeIo (p : Fin 8) (inst : Nat) (s : State) : Host.Outcome State Fault Refusal :=
  next (match s.inst? p inst with
    | none => s
    | some i =>
      if i.st != .running || !readsOutside i || (s.part p).frozen then s
      else if i.ty = 1 then killNode s p inst 0x3282 i.data
      else condIo s p inst i)

/-- Forget the outstanding transactions of an instance and what it has not sent; their numbers are free for others. -/
def dropTxns (s : State) (p n : Nat) : State :=
  let s1 := s.modInst p n fun j => { j with unsent := [] }
  let P := s1.part p
  sendUnsent (s1.setPart p { P with txns := P.txns.filter fun e => e.2.inst != n }) p

/-- SEND_ACK_TIMEOUT: step 3 has lasted 2 ms (R532); an arm is removed (R810), a cancelled one at the end of its own 2 ms (R813). -/
def execSendAckTimeout (p : Fin 8) (inst : Nat) (s : State) : Host.Outcome State Fault Refusal :=
  next (match s.inst? p inst with
    | none => s
    | some i =>
      if i.st != .committing || i.held || !i.step3 || (s.part p).frozen || (s.part p).count < i.sentAt + us 2000 then s
      else
        let s1 := nodeEvent (dropTxns s p inst) p inst 0x2285 i.data
        let cancelled (a : Nat) : Bool := match tabFind (s1.part p).arms a with | some x => x.cancelAt.isSome | none => false
        let s2 := match i.arm with | some a => if cancelled a then s1 else dropArm s1 p a | none => s1
        commitRest (s2.modInst p inst fun j => { j with acks := [], arm := none, ackBad := true }) p inst)

/-- FABRIC_COPY_ACK_TIMEOUT: a fabric COPY has waited 2 ms for an ACK (R799). -/
def execFabricCopyAckTimeout (p : Fin 8) (inst : Nat) (s : State) : Host.Outcome State Fault Refusal :=
  next (match s.inst? p inst with
    | none => s
    | some i =>
      if i.ty != 1 || i.st != .running || (i.acks == [] && i.unsent == []) || (s.part p).frozen || (s.part p).count < i.sentAt + us 2000 then s
      else copyFail ((dropTxns s p inst).modInst p inst fun j => { j with acks := [] }) p inst 0)

/-! Deadlock (R540, R541). -/

/-- A WAIT of the instance's context on another context's fence that is not released. -/
def foreignWait (i : Inst) : Bool := i.waitsFence && (waitFenceOf i).1 != i.ctx

/-- A WAIT on another context's fence that is READY, or running and not released (R540). -/
def foreignWaiting (i : Inst) : Bool :=
  foreignWait i || (i.ty == 2 && !i.kind && i.st == .ready && (waitFenceOf i).1 != i.ctx)

/-- A context is blocked (R540). -/
def blockedCtx (s : State) (c : Nat) : Bool :=
  (s.ctx c).st == .open && (s.ctx c).parts.all fun p =>
    let is := (s.part p).insts.filter fun e => e.2.ctx == c
    is.any (fun e => foreignWaiting e.2) &&
      is.all fun e => foreignWaiting e.2 || !(e.2.st == .running || e.2.st == .ready)

/-- The waits of a context on other contexts' fences: partition, instance, owner of the fence, start. -/
def foreignWaits (s : State) (c : Nat) : List (Nat × Nat × Nat × Nat) :=
  (s.ctx c).parts.flatMap fun p =>
    ((s.part p).insts.filter fun e => e.2.ctx == c && foreignWait e.2).map fun e =>
      (p, e.1, (waitFenceOf e.2).1, e.2.dispAt)

/-- The cycles through `start` whose other contexts are numbered above it, as paths from `start`; `path` holds the contexts so far,
newest first. -/
def cyclesVia (edges : Nat → List Nat) (start : Nat) : Nat → List Nat → List (List Nat)
  | 0, _ => []
  | k + 1, path =>
    (edges (path.headD start)).flatMap fun d =>
      if d = start then [path.reverse]
      else if d < start || path.contains d then []
      else cyclesVia edges start k (d :: path)

/-- The cycles of blocked contexts (R540, R541), each from its lowest context on. -/
def findCycles (s : State) : List (List Nat) :=
  let bs := (s.ctxs.map (·.1)).filter (blockedCtx s)
  let edges (c : Nat) : List Nat := (((foreignWaits s c).map fun w => w.2.2.1).filter bs.contains).foldl setIns []
  bs.flatMap fun c => cyclesVia edges c 64 [c]

/-- The waits that make up a cycle: those of each context on a fence of the next one. -/
def cycleWaits (s : State) (cyc : List Nat) : List (Nat × Nat × Nat × Nat) :=
  (List.zip cyc (cyc.drop 1 ++ cyc.take 1)).flatMap fun e => (foreignWaits s e.1).filter fun w => w.2.2.1 == e.2

/-- The wait of a cycle that started last: later start, then higher partition and instance (DEDUCED, log entry 21). -/
def youngest (s : State) (cyc : List Nat) : Option (Nat × Nat) :=
  (cycleWaits s cyc).foldl
    (fun (a : Option (Nat × Nat × Nat)) w =>
      match a with
      | none => some (w.2.2.2, w.1, w.2.1)
      | some (t, _, _) => if t ≤ w.2.2.2 then some (w.2.2.2, w.1, w.2.1) else a) none
    |>.map fun a => a.2

/-- DEADLOCK_CHECK: each cycle that the last check saw too loses its youngest WAIT (R540, R541). -/
def execDeadlockCheck (s : State) : Host.Outcome State Fault Refusal :=
  let cs := findCycles s
  let victims := ((cs.filter s.cycles.contains).filterMap (youngest s)).eraseDups
  let s1 := victims.foldl (fun s x =>
    match s.inst? x.1 x.2 with
    | some i => failNode s x.1 x.2 0x3284 i.data
    | none => s) s
  next { s1 with cycles := cs }

end Sys2Proof.Machine
end

