-- ==== Sys2Proof/Machine/Copy.lean ====
section
/-! DEFINITION. COPY nodes (R508 to R510): linear copies, streams from the weight store (R747 to R750), fabric and RDMA
transfers (R799, R877), KV export and import (R442 to R448). A COPY is dispatched and moves its bytes in one step, unless it waits for translations. -/

namespace Sys2Proof.Machine

/-! Fields. -/

/-- C_MODE. -/
def Inst.cMode (i : Inst) : Nat := bitsOf (wd i.words 6) 31 28
/-- SRC_KIND. -/
def Inst.srcKind (i : Inst) : Nat := bitsOf (wd i.words 6) 27 26
/-- DST_KIND. -/
def Inst.dstKind (i : Inst) : Nat := bitsOf (wd i.words 6) 25 24
/-- TRANSPORT is the fabric. -/
def Inst.overFabric (i : Inst) : Bool := bitOf (wd i.words 6) 23
/-- SRC. -/
def Inst.src (i : Inst) : Nat := wd64 i.words 8
/-- DST. -/
def Inst.dst (i : Inst) : Nat := wd64 i.words 10

/-- Fields of a COPY that dispatch refuses: reserved values, fields that its mode or kind does not use (R548, R10), and a source in
the weight store with a destination outside HBM, since plaintext weights stand nowhere else (R49); DEDUCED, log entry 20. -/
def copyBad (i : Inst) : Bool :=
  let w6 := wd i.words 6
  let w7 := wd i.words 7
  let w15 := wd i.words 15
  let remote := i.dstKind == 3
  3 ≤ i.cMode || bitsOf w6 20 12 != 0 || i.srcKind == 3 || i.dstKind == 2 || bitsOf w15 31 12 != 0 ||
  (i.cMode != 1 && (bitsOf w6 11 0 != 0 || w15 != 0 || wd i.words 13 != 0 || wd i.words 14 != 0)) ||
  (i.cMode == 0 && i.length % 4 != 0) ||
  (i.cMode == 1 && (!remote || i.srcKind != 0 || bitsOf w15 11 0 == 0 || wd i.words 13 % 64 != 0)) ||
  (i.cMode == 2 && (i.dstKind != 0 || i.srcKind == 2)) ||
  (!remote && (bitOf w6 23 || bitsOf w6 22 21 != 0 || w7 != 0)) ||
  (remote && !i.overFabric && bitsOf w6 22 21 != 0) ||
  (remote && i.overFabric &&
    (if i.cMode == 1 then i.dst % 4 != 0 else badPieces (i.dst % 2 ^ 48) i.length false)) ||
  (remote && i.overFabric && (bitsOf w7 4 0 != 0 || bitsOf (wd i.words 11) 22 16 != 0 || bitsOf w6 22 21 == 3)) ||
  (i.dstKind == 0 && i.cMode == 0 && 2 ^ 48 ≤ i.dst) || (i.srcKind == 2 && i.dstKind != 0)

/-! The weight store. -/

/-- The AES-256-XTS key pair of a content key (R712). -/
def xtsKey (k : List Byte) : List Byte := Config.sha256 (k ++ [1]) ++ Config.sha256 (k ++ [2])

/-- The plaintext of stored chunk c: 256 data units of 4,096 bytes, unit j with number 256 c + j (R714). -/
def openChunk (k : List Byte) (c : Nat) (cipher : List Byte) : List Byte :=
  (List.range 256).flatMap fun j => Config.xtsDecrypt (xtsKey k) (256 * c + j) ((cipher.drop (4096 * j)).take 4096)

/-- INTEGRITY of an image header is signed (R707). -/
def hdrSigned (h : List Nat) : Bool := bitsOf (wd h 1) 23 22 == 1

/-- Whether chunk c's plaintext passes the check of the image's mode (R720, R748). -/
def chunkOk (h : List Nat) (hashes : List (List Byte)) (c : Nat) (plain : List Byte) : Bool :=
  !hdrSigned h || Config.sha256 plain == hashes.getD c []

/-- The generation that a node latched for binding b. -/
def latchedGen (s : State) (i : Inst) (b : Nat) : Option WGen :=
  match tabFind i.bindings b with
  | none => none
  | some g => tabFind (tabGet {} (s.ctx i.ctx).bindings b).gens g

/-- The stream that SRC names (R747): image handle, key, region words; none where there is no such stream. -/
def streamOf (s : State) (i : Inst) : Option (Nat × List Byte × List Nat) :=
  match latchedGen s i (i.src / 2 ^ 60) with
  | none => none
  | some w =>
    match w.regions[i.src / 2 ^ 48 % 4096]?, tabFind s.nvws.images w.image with
    | some r, some _ =>
      if w.image != 0 && bitOf (wd r 0) 31 && i.src % 2 ^ 48 + i.length ≤ wd64 r 4 then
        some (w.image, w.key, r)
      else none
    | _, _ => none

/-- The chunks that payload bytes [a, a + n) touch. -/
def chunksOf (a n : Nat) : List Nat :=
  if n = 0 then [] else (List.range ((a + n - 1) / 1048576 - a / 1048576 + 1)).map (a / 1048576 + ·)

/-- Log a weight event of a node. -/
def weightEvent (s : State) (p c code : Nat) (data : List Nat) : State :=
  logEvent s { code, ctx := c, part := some p, data }

/-- A chunk that stays corrupt after two re-reads is marked bad and the COPY abandoned (R735, R750). -/
def chunkBad (s : State) (p n : Nat) (i : Inst) (img c : Nat) : State :=
  let d := [i.ctx, i.src / 2 ^ 60, img, c]
  let s1 := weightEvent (weightEvent s p i.ctx 0x12B0 d) p i.ctx 0x12B0 d
  let im := tabFind s1.nvws.images img
  let s2 := match im with
    | some x => { s1 with nvws := { s1.nvws with images := tabSet s1.nvws.images img { x with bad := setIns x.bad c } } }
    | none => s1
  failNode s2 p n 0x22B3 d

/-- The bytes of a stream's range come from the weight store, or the read ends at a chunk that stays corrupt: `media` tells that the
media failed, on one of the chunks, which is a free choice. Every chunk fetched counts, the bad one three times (R748, R750). -/
def streamRead (s : State) (p : Nat) (chunks : List Nat) (media : Bool) (read : Except Nat (List Byte)) :
    Except Nat (List Byte) × State :=
  let f := s.takeFree
  let r : Except Nat (List Byte) := if media && chunks != [] then .error (wd chunks (f.1 % chunks.length)) else read
  let n := match r with
    | .ok _ => chunks.length
    | .error c => (chunks.takeWhile (· != c)).length + 3
  (r, charge (if media then f.2 else s) p 10 (1048576 * n))

/-- Read payload bytes [a, a + n) of an image, chunk by chunk: the bytes, or the chunk that is bad. -/
def nvRead (im : NvImage) (key : List Byte) (a n : Nat) : Except Nat (List Byte) :=
  (chunksOf a n).foldl (fun acc c =>
    match acc with
    | .error e => .error e
    | .ok bs =>
      let plain := openChunk key c (tabGet [] im.chunks c)
      if im.bad.contains c || !chunkOk im.header im.hashes c plain then .error c
      else
        let lo := max a (1048576 * c)
        let hi := min (a + n) (1048576 * (c + 1))
        .ok (bs ++ (plain.drop (lo - 1048576 * c)).take (hi - lo))) (.ok [])

/-! Moving the bytes. -/

/-- A closed resource refuses a COPY at dispatch (R616): PCIe, Ethernet, the fabric port, NVWS reads, other partitions' stacks. What
an export or import needs of other stacks shows as it reads its pages. -/
def copyClosed (s : State) (p n : Nat) (i : Inst) : Bool :=
  let P := s.part p
  let w7 := wd i.words 7
  let far (a : Nat) : Bool := i.cMode == 0 && (closedHbm s p i.ctx i.mapVer a i.length n).isSome
  ((i.srcKind == 1 || i.dstKind == 1) && closedFor P 8 n) ||
  (i.srcKind == 2 && closedFor P 10 n) ||
  (i.dstKind == 3 && !i.overFabric && closedFor P 9 n) ||
  (i.dstKind == 3 && i.overFabric &&
    (egressClosed s p n (bitsOf w7 31 19) (bitsOf w7 18 13) (i.dst / 2 ^ 59 % 4) (i.dst % 2 ^ 48) i.length).isSome) ||
  (i.srcKind == 0 && far i.src) || (i.dstKind == 0 && far i.dst)

/-- The function that owns the context of an instance. -/
def Inst.fn (s : State) (i : Inst) : Nat := (s.ctx i.ctx).owner

/-- Data of an interface event about a node: function and context, address, segment and node index (R893). -/
def hostData (s : State) (i : Inst) (a : Nat) : List Nat :=
  [i.fn s + 65536 * i.ctx, a % 2 ^ 32, a / 2 ^ 32, i.seg + 65536 * i.idx]

/-- Data of ETH_CONN_ERROR: function and context, connection, segment and node index, iteration (R893). -/
def connData (s : State) (i : Inst) (h : Nat) : List Nat := [i.fn s + 65536 * i.ctx, h, i.seg + 65536 * i.idx, i.iter]

/-- The source bytes of a COPY, and on with them (R509, R539, R673, R748, R867). With ATS enabled a source in host memory is translated
first, and the COPY waits for all its pages (R865). -/
def copySource (s : State) (p n : Nat) (i : Inst) (src : HostRd) (k : State → List Byte → State) : State :=
  if i.srcKind = 0 then nodeRead s p n i i.src i.length k
  else if i.srcKind = 1 then
    let ps := if i.xlAsked then [] else missingPages s (i.fn s) i.src i.length
    let s0 := if i.xlAsked then s.modInst p n fun j => { j with xlAsked := false } else s
    match src, ps with
    | .data bs, [] => k (charge s0 p 8 i.length) (bs.take i.length)
    | .error, [] => killNode s0 p n 0x3282 i.data
    | .data _, _ | .error, _ => (askPages s (i.fn s) ps).modInst p n fun j => { j with xlAsked := true, xlWait := ps }
    | .noXlate, _ => failNode s0 p n 0x32E1 (hostData s i i.src)
  else
    match streamOf s i with
    | none => refuse s p n 0x3280 []
    | some (img, key, r) =>
      let im : NvImage := tabGet { header := [], regions := [], hashes := [] } s.nvws.images img
      let a := wd64 r 2 + i.src % 2 ^ 48
      let r := streamRead s p (chunksOf a i.length) (src == .error) (nvRead im key a i.length)
      match r.1 with
      | .error c => chunkBad r.2 p n i img c
      | .ok bs => k r.2 bs

/-- The RDMA transfer of a COPY: one write, with immediate data where the connection says so; the node waits for its
acknowledgement (R872, R877). DEDUCED, log entry 46. -/
def copyRdma (s : State) (p n : Nat) (i : Inst) (bs : List Byte) : State :=
  let h := wd i.words 7
  match tabFind s.conns h with
  | none => refuse s p n 0x3280 []
  | some c =>
    if c.ctx != i.ctx || c.st == .opening then refuse s p n 0x3280 []
    else if c.st == .error then failNode s p n 0x32E2 (connData s i h)
    else
      let imm := bitOf (wd c.words 0) 28
      let o : EthOut := { conn := h, kind := if imm then 1 else 0, key := wd c.words 10, addr := i.dst, bytes := bs,
                          imm := if imm then bitsOf (wd c.words 11) 11 0 else 0, ctx := i.ctx, epoch := (s.ctx i.ctx).epoch }
      charge { s with ethOut := s.ethOut ++ [o], conns := tabSet s.conns h { c with outst := c.outst ++ [(p, n)], sentAt := if c.outst = [] then s.hub else c.sentAt } }
        p 9 bs.length

/-- The WRITE packets of a fabric COPY (R778, R799). -/
def copyPackets (i : Inst) (bs : List Byte) : List Packet :=
  let w7 := wd i.words 7
  let d := i.dst % 2 ^ 48
  (splitAt4k d bs.length).map fun x =>
    { ptype := 0, tc := bitsOf (wd i.words 6) 22 21, dstDie := i.dst / 2 ^ 61, dstSpace := i.dst / 2 ^ 59 % 4,
      dstTile := i.dst / 2 ^ 55 % 16, destModule := bitsOf w7 31 19, destCtx := bitsOf w7 18 13, status := bitsOf w7 12 5,
      len := x.2 / 4, addrHi := (d + x.1) / 2 ^ 32, addrLo := (d + x.1) % 2 ^ 32, data := (bs.drop x.1).take x.2 }

/-- A fabric COPY's transfer: it ends when every ACK is OK (R799). -/
def copyFabric (s : State) (p n : Nat) (i : Inst) (bs : List Byte) : State :=
  let qs := copyPackets i bs
  let r := sendAll s p n true i qs
  match r.2.2 with
  | st :: _ => copyFail (r.1.modInst p n fun j => { j with acks := [] }) p n st
  | [] => r.1.modInst p n fun j => { j with acks := r.2.1, unsent := unsentOf s p qs, sentAt := (s.part p).count,
                                            ended := r.2.1 == [] && unsentOf s p qs == [] }

/-- Post the data of a COPY to host memory, with Relaxed Ordering where the function enables it (R853). -/
def copyPost (s : State) (p n : Nat) (i : Inst) (bs : List Byte) : State :=
  let s1 := if bs = [] then s else s.post i.ctx i.dst bs (s.fn (i.fn s)).relaxed
  endExec (charge s1 p 8 bs.length) p n

/-- Where the bytes of a COPY go (R853, R877, R799). With ATS enabled a destination in host memory is translated first, and the COPY
waits for all its pages (R509, R865). -/
def copyDest (s : State) (p n : Nat) (i : Inst) (bs : List Byte) : State :=
  if i.dstKind = 0 then
    match writeHbm s p i.ctx i.mapVer i.dst (good bs) with
    | .error e => accKill s p n e
    | .ok s1 => endExec s1 p n
  else if i.dstKind = 1 then
    match missingPages s (i.fn s) i.dst bs.length with
    | [] => copyPost s p n i bs
    | ps => (askPages s (i.fn s) ps).modInst p n fun j => { j with hostWait := some bs, xlWait := ps }
  else if i.overFabric then copyFabric s p n i bs
  else copyRdma s p n i bs

/-- The ranges that a COPY's body names (R1117). -/
def copyRanges (s : State) (p : Nat) (i : Inst) : List Named :=
  match i.cMode with
  | 0 => (if i.srcKind = 0 then [namedRange s p i i.src i.length false] else []) ++
         (if i.dstKind = 0 then [namedRange s p i i.dst i.length true] else [])
  | 1 => [namedRange s p i i.src 64 false]
  | _ => (if i.srcKind = 0 then [namedRange s p i i.src i.length false] else []) ++ [namedRange s p i i.dst 64 true]

/-- Checks of every COPY, then its own work (R508, R548, R616, R803, R818). -/
def copyGo (s : State) (p n : Nat) (i : Inst) (k : State → State) : State :=
  if copyBad i then refuse s p n 0x3280 []
  else if i.dstKind = 3 && i.overFabric && !s.inSlice (bitsOf (wd i.words 7) 31 19) then refuse s p n 0x3280 []
  else if i.dstKind = 3 && i.overFabric && routeRefused s p (bitsOf (wd i.words 7) 31 19) then routeDisabled s p n (bitsOf (wd i.words 7) 31 19)
  else
    if copyClosed s p n i then regDisabled s p n else withRanges s p n (copyRanges s p i) k

/-- A COPY that this command runs, of a mode and a test on its kinds: its dispatch, or the step in which one that has waited for the
translations of its source goes on (R865). -/
def copyNode (s : State) (p n mode : Nat) (fits : Inst → Bool) (k : State → Inst → State) : State :=
  let mine (i : Inst) : Bool := i.ty == 1 && (i.cMode == mode || (mode == 0 && 3 ≤ i.cMode)) && fits i
  gate s <| match s.inst? p n with
    | none => s
    | some i =>
      if mine i && i.st == .running && i.xlAsked then (if i.xlWait == [] && !(s.part p).frozen then k s i else s)
      else dispatchNode s p n mine fun s i => copyGo s p n i fun s => k s i

/-- COPY_LINEAR: device and host kinds (R508 to R510). -/
def execCopyLinear (p : Fin 8) (inst : Nat) (src : HostRd) (s : State) : Host.Outcome State Fault Refusal :=
  next (copyNode s p inst 0 (fun i => i.srcKind != 2 && i.dstKind != 3) fun s i =>
    copySource s p inst i src fun s bs => copyDest s p inst i bs)

/-- COPY_NVWS_STREAM: a source in the weight store (R747 to R750). `src` is `error` where a chunk stays unreadable. -/
def execCopyNvwsStream (p : Fin 8) (inst : Nat) (src : HostRd) (s : State) : Host.Outcome State Fault Refusal :=
  next (copyNode s p inst 0 (fun i => i.srcKind == 2) fun s i =>
    copySource s p inst i src fun s bs => copyDest s p inst i bs)

/-- COPY_FABRIC (R799). -/
def execCopyFabric (p : Fin 8) (inst : Nat) (src : HostRd) (s : State) : Host.Outcome State Fault Refusal :=
  next (copyNode s p inst 0 (fun i => i.srcKind != 2 && i.dstKind == 3 && i.overFabric) fun s i =>
    copySource s p inst i src fun s bs => copyFabric s p inst i bs)

/-- COPY_RDMA (R877). -/
def execCopyRdma (p : Fin 8) (inst : Nat) (src : HostRd) (s : State) : Host.Outcome State Fault Refusal :=
  next (copyNode s p inst 0 (fun i => i.srcKind != 2 && i.dstKind == 3 && !i.overFabric) fun s i =>
    copySource s p inst i src fun s bs => copyRdma s p inst i bs)

/-! What came for the nodes of a partition that a save held (R636). -/

/-- A COPY over RoCE v2. -/
def Inst.overRdma (i : Inst) : Bool := i.ty == 1 && i.dstKind == 3 && !i.overFabric

/-- An answer from outside comes to node n (R539, R867, R877, R878). -/
def takeAnswer (s : State) (p n : Nat) (a : NodeAnswer) : State :=
  match s.inst? p n with
  | none => s
  | some i =>
    match a with
    | .acknowledged => if i.overRdma && i.st == .running then s.setInst p n { i with ended := true } else s
    | .nak => if i.overRdma && i.st == .running then killNode s p n 0x3282 i.data else s
    | .connError => if i.overRdma && i.st.short then failNode s p n 0x32E2 (connData s i (wd i.words 7)) else s
    | .refused x => if i.st == .running && !i.ended then failNode s p n 0x32E1 (hostData s i x) else s

/-- The same, kept for later while a save holds the partition (R636). -/
def answered (s : State) (p n : Nat) (a : NodeAnswer) : State :=
  if (s.part p).frozen then s.setPart p { s.part p with answersHeld := (s.part p).answersHeld ++ [(n, a)] } else takeAnswer s p n a

/-- A node that waits for no translation any more goes on: a COPY to host memory posts its bytes, a SIGNAL may commit (R509, R865). -/
def translated (s : State) (p n : Nat) : State :=
  match s.inst? p n with
  | none => s
  | some i =>
    if i.st != .running || i.ended || i.xlWait != [] || (s.part p).frozen then s
    else
      match i.hostWait with
      | some bs => copyPost (s.modInst p n fun j => { j with hostWait := none }) p n i bs
      | none => if i.ty = 3 && i.sTarget = 2 then endExec s p n else s

/-- Partition p, no longer held by a save, goes on with what came for it meanwhile (R636). -/
def thaw (s : State) (p : Nat) : State :=
  let P := s.part p
  let s1 := s.setPart p { P with acksHeld := [], answersHeld := [] }
  let s2 := P.acksHeld.foldl (fun s q => takeAck s p q) s1
  let s3 := P.answersHeld.foldl (fun s x => takeAnswer s p x.1 x.2) s2
  resumeCommits (((s3.part p).insts.map (·.1)).foldl (fun s n => translated s p n) s3) p

/-! KV export and import. -/

/-- CB_CRC of a slot (R443): its BASE and WIDTH words in the layout of CODEBOOK_LOAD. -/
def cbCrc (c : CbSlot) : Nat := crc32c (c.entries.flatMap fun e => natLe 4 e.1 ++ natLe 4 e.2)

/-- A KV failure of a copy node: the event of R449 without a tile, poison as R673 gives for a COPY. -/
def kvNodeStop (s : State) (p n : Nat) (i : Inst) (e : KvErr) (seq g tok : Nat) : State :=
  match e with
  | .invalid => failNode s p n 0x3260 (kvData 0 seq g tok)
  | .fault => failNode s p n 0x3261 (kvData 0 seq g tok)
  | .poison a => failNode s p n 0x32A3 (i.dvaData a 0)
  | .closed => regDisabled s p n
  | .other x => accKill s p n x

/-- The 64-byte header of a KV record (R442). -/
def kvHeader (q : List Nat) (pg : KvPage) (c : CbSlot) (g rows first tag : Nat) (page : List Byte) : List Byte :=
  wordsBytes [ 0x4B560100,
    seqFmt q * 2 ^ 28 + pg.rate * 2 ^ 25 + pg.slot * 2 ^ 22 + bitsOf (wd q 4) 27 24 * 2 ^ 18 + g,
    (if pg.rate = 0 then 0 else c.gen) * 2 ^ 16 + rows * 2 ^ 8,
    page.length, first, (if pg.rate = 0 then 0 else cbCrc c), crc32c page, tag, 0, 0, 0, 0, 0, 0, 0, 0 ]

/-- What building the records met. -/
inductive KvOut where
  | ok (s : State) (bytes : List Byte)
  | stop (s : State)
deriving DecidableEq, Repr

/-- One record of an export: the page of group g that starts at token 64 l. -/
def exportPage (s : State) (p n : Nat) (i : Inst) (q : List Nat) (g l : Nat) : KvOut :=
  let seq := i.src
  match kvPage s p n i.ctx i.mapVer 0 i.pt (s.cp i.ctx p).cbW 255 false q l g with
  | .error (e, s1) => .stop (kvNodeStop s1 p n i e seq g (64 * l))
  | .ok (pg, s1) =>
    match kvRead s1 p n i.ctx i.mapVer pg.addr (pageBytes q pg.rate) 18 with
    | .error (e, s2) => .stop (kvNodeStop s2 p n i e seq g (64 * l))
    | .ok (page, s2) =>
        let rows := min 64 (seqLen q - 64 * l)
        let c := tabGet ({} : CbSlot) (s2.cp i.ctx p).cbW pg.slot
        .ok s2 (kvHeader q pg c g rows (64 * l) (wd i.words 14) page ++ page)

/-- The records of an export: for each group, each page from the start token up to LEN (R444). -/
def exportAll (s : State) (p n : Nat) (i : Inst) (q : List Nat) : KvOut :=
  let first := wd i.words 13 / 64
  let last := (seqLen q + 63) / 64
  let gs := (List.range (bitsOf (wd i.words 15) 11 0)).map (bitsOf (wd i.words 6) 11 0 + ·)
  (gs.flatMap fun g => (List.range (last - first)).map fun l => (g, first + l)).foldl (fun acc x =>
    match acc with
    | .stop s => .stop s
    | .ok s bs =>
      match exportPage s p n i q x.1 x.2 with
      | .stop s1 => .stop s1
      | .ok s1 b => .ok s1 (bs ++ b)) (.ok s [])

/-- KV_EXPORT (R442 to R444, R508): nothing is sent where the records exceed LENGTH. -/
def execKvExport (p : Fin 8) (inst : Nat) (s : State) : Host.Outcome State Fault Refusal :=
  next (copyNode s p inst 1 (fun _ => true) fun s i =>
    match kvRead s p inst i.ctx i.mapVer i.src 64 0 with
    | .error (e, s1) => kvNodeStop s1 p inst i e i.src 0 0
    | .ok (qb, s1) =>
      let q := bytesWords 16 qb
      let g := bitsOf (wd i.words 6) 11 0 + bitsOf (wd i.words 15) 11 0 - 1
      if seqBad q g then refuse s1 p inst 0x3280 []
      else
        match exportAll s1 p inst i q with
        | .stop s2 => s2
        | .ok s2 bs =>
          if i.length < bs.length then refuse s2 p inst 0x3280 [] else copyDest s2 p inst i bs)

/-- A record of an import passes the checks of R445 that the receiving page has no part in. -/
def recordOk (slots : Tab CbSlot) (q w : List Nat) (page : List Byte) : Bool :=
  let rate := bitsOf (wd w 1) 27 25
  let c := tabGet ({} : CbSlot) slots (bitsOf (wd w 1) 24 22)
  wd w 0 == 0x4B560100 && bitsOf (wd w 1) 17 12 == 0 && bitsOf (wd w 2) 7 0 == 0 && (w.drop 8).all (· == 0) &&
  crc32c page == wd w 6 && bitsOf (wd w 1) 31 28 == seqFmt q && bitsOf (wd w 1) 21 18 == bitsOf (wd q 4) 27 24 &&
  (if rate = 0 then true else c.st == .valid && c.gen == bitsOf (wd w 2) 31 16 && cbCrc c == wd w 5)

/-- A record of an import matches the receiving page and its table entry (R445, R446). -/
def recordFits (q w : List Nat) (pg : KvPage) : Bool :=
  wd w 3 == pageBytes q pg.rate && bitsOf (wd w 1) 27 25 == pg.rate && bitsOf (wd w 1) 24 22 == pg.slot

/-- Write one record's page (R446): the remaining bytes and the token after its committed rows, or the end of the node. -/
def importPage (s : State) (p n : Nat) (i : Inst) (q : List Nat) (bs : List Byte) : KvOut × Nat :=
  let w := bytesWords 16 (bs.take 64)
  let g := bitsOf (wd w 1) 11 0
  let tok := wd w 4
  let size := wd w 3
  let page := (bs.drop 64).take size
  let bad (s : State) : State := failNode s p n 0x3264 (kvData 0 i.dst g tok)
  if bs.length < 64 || page.length < size || tok % 64 != 0 || seqMax q ≤ tok || seqGroups q ≤ g ||
      bitsOf (wd w 2) 15 8 == 0 || 64 < bitsOf (wd w 2) 15 8 || !recordOk (s.cp i.ctx p).cbW q w page then (.stop (bad s), 0)
  else
    match kvPage s p n i.ctx i.mapVer 0 i.pt (s.cp i.ctx p).cbW 255 false q (tok / 64) g with
    | .error (.invalid, s1) => (.stop (bad s1), 0)
    | .error (e, s1) => (.stop (kvNodeStop s1 p n i e i.dst g tok), 0)
    | .ok (pg, s1) =>
      if !recordFits q w pg then (.stop (bad s1), 0)
      else if (closedHbm s1 p i.ctx i.mapVer pg.addr size n).isSome then (.stop (regDisabled s1 p n), 0)
      else
        match writeHbm s1 p i.ctx i.mapVer pg.addr (good page) with
        | .error (.targetReset d t) => (.stop (accKill s1 p n (.targetReset d t)), 0)
        | .error _ => (.stop (kvNodeStop s1 p n i .fault i.dst g tok), 0)
        | .ok s2 => (.ok s2 (bs.drop (64 + size)), tok + bitsOf (wd w 2) 15 8)

/-- Write the records one after another; the largest token to publish (R445 to R448). -/
def importAll (s : State) (p n : Nat) (i : Inst) (q : List Nat) : Nat → List Byte → Nat → KvOut × Nat
  | 0, _, top => (.ok s [], top)
  | k + 1, bs, top =>
    if bs = [] then (.ok s [], top)
    else
      match importPage s p n i q bs with
      | (.stop s1, _) => (.stop s1, top)
      | (.ok s1 rest, t) => importAll s1 p n i q k rest (max top t)

/-- KV_IMPORT (R445 to R448): its commit publishes LEN (R447). -/
def execKvImport (p : Fin 8) (inst : Nat) (src : HostRd) (s : State) : Host.Outcome State Fault Refusal :=
  next (copyNode s p inst 2 (fun _ => true) fun s i =>
    copySource s p inst i src fun s bs =>
      match kvRead s p inst i.ctx i.mapVer i.dst 64 0 with
      | .error (e, s1) => kvNodeStop s1 p inst i e i.dst 0 0
      | .ok (qb, s1) =>
        let q := bytesWords 16 qb
        if seqBad q 0 then refuse s1 p inst 0x3280 []
        else
          match importAll s1 p inst i q (bs.length / 64 + 1) bs 0 with
          | (.stop s2, _) => s2
          | (.ok s2 _, top) =>
            s2.modInst p inst fun j =>
              { j with ended := true,
                       writes := if bs = [] then [] else [⟨i.ctx, i.mapVer, i.dst, 4, top⟩] })

end Sys2Proof.Machine
end

