-- ==== Sys2Proof/Machine/Measure.lean ====
section
/-! DEFINITION. Measurements and firmware banks (R1041 to R1049): extension of MR0 to MR7 and of a context's CMR, the fields of
a bundle's manifest and the check of R1042. -/

namespace Sys2Proof.Machine

/-- Extend measurement register i with digest d (R1048). -/
def extendMr (s : State) (i : Nat) (d : List Byte) : State :=
  let old := s.sec.mr.getD i []
  { s with sec := { s.sec with mr := s.sec.mr.set i (Config.sha256 (old ++ d)) } }

/-- Extend the CMR of context c with SHA-256 of an opcode and bytes (R1049). -/
def extendCmr (s : State) (c opcode : Nat) (bs : List Byte) : State :=
  let x := s.ctx c
  s.setCtx c { x with cmr := Config.sha256 (x.cmr ++ Config.sha256 (natLe 2 opcode ++ bs)) }

/-! Firmware bundles (R1041). -/

/-- Word at byte o of a bundle. -/
def bunW (b : List Byte) (o : Nat) : Nat := leNat ((b.drop o).take 4)

/-- FW_VERSION. -/
def bunVersion (b : List Byte) : Nat := bunW b 8

/-- Security version of group g: 0 security core, 1 hub, 2 compute. -/
def bunSvn (b : List Byte) (g : Nat) : Nat := bunW b 0xC / 2 ^ (24 - 8 * g) % 256

/-- KEY_INDEX. -/
def bunKey (b : List Byte) : Nat := bitsOf (bunW b 4) 23 22

/-- ADVANCE. -/
def bunAdvance (b : List Byte) : Bool := bitOf (bunW b 4) 21

/-- REVOKE, as key indices. -/
def bunRevoke (b : List Byte) : List Nat := [0, 1, 2, 3].filter fun k => bitOf (bunW b 4) (8 + k)

/-- The manifest's signed bytes, and the manifest with its signature. -/
def bunSigned (b : List Byte) : List Byte := b.take (0x40 + 48 * 15)

/-- The manifest with its signature of 7,856 bytes. -/
def bunManifest (b : List Byte) : List Byte := b.take (0x40 + 48 * 15 + 7856)

/-- The image entry of core kind k: offset, length, digest. -/
def bunImage (b : List Byte) (k : Nat) : Option (Nat × Nat × List Byte) :=
  match (List.range 15).find? fun i => bunW b (0x40 + 48 * i) / 2 ^ 24 == k with
  | some i => some (bunW b (0x44 + 48 * i), bunW b (0x48 + 48 * i), (b.drop (0x50 + 48 * i)).take 32)
  | none => none

/-- Bytes of the image of core kind k. -/
def bunBytes (b : List Byte) (k : Nat) : List Byte :=
  match bunImage b k with
  | some (o, n, _) => (b.drop o).take n
  | none => []

/-- The manifest meets its table (R1041, R1042). -/
def bunFormOk (b : List Byte) : Bool :=
  let w := bunW b
  w 0 == 0x4C464231 && w 4 / 2 ^ 24 == 1 && bitsOf (w 4) 20 12 == 0 && bitsOf (w 4) 7 0 == 15 &&
  [0, 1, 2].all (fun g => bunSvn b g ≤ 63) && bitsOf (w 0xC) 7 0 == 0 && w 0x10 == b.length &&
  w 0x14 == 0 && w 0x18 == 0 && w 0x1C == 0 &&
  (List.range 15).all (fun i => bitsOf (w (0x40 + 48 * i)) 23 0 == 0 && w (0x4C + 48 * i) == 0 &&
    w (0x44 + 48 * i) + w (0x48 + 48 * i) ≤ b.length) &&
  (List.range 15).all fun k => (bunImage b (k + 1)).isSome

/-- The security core accepts a bundle (R1042). -/
def bundleOk (c : Sec) (b : List Byte) : Bool :=
  let pk := (b.drop 0x20).take 32
  bunFormOk b && Config.sha256 pk == c.keyDigests.getD (bunKey b) [] && !c.revoked.contains (bunKey b) &&
  Config.slhVerify pk (bunSigned b) ((b.drop (0x40 + 48 * 15)).take 7856) &&
  [0, 1, 2].all (fun g => c.counters.getD g 0 ≤ bunSvn b g) &&
  (List.range 15).all fun k =>
    match bunImage b (k + 1) with
    | some (o, n, d) => Config.sha256 ((b.drop o).take n) == d
    | none => false

/-- The bundle that runs: what the booted bank held at Sunrise, whatever has been written there since (R568, R1052). -/
def Sec.running (c : Sec) : List Byte := c.run

/-- Whether bytes have the DIGEST that a bundle gives for core kind k (R1044). -/
def bunDigestOk (b : List Byte) (k : Nat) (bytes : List Byte) : Bool :=
  match bunImage b k with
  | some (_, _, d) => Config.sha256 bytes == d
  | none => false

/-- The three counters and the revoke fuses, a byte each, as MR2 takes them (R1048). -/
def Sec.fuseBytes (c : Sec) : List Byte :=
  c.counters.map (BitVec.ofNat 8) ++ [0, 1, 2, 3].map fun k => BitVec.ofNat 8 (b2n (c.revoked.contains k))

end Sys2Proof.Machine
end

