-- ==== Sys2Proof/Machine/Mailbox.lean ====
section
/-! DEFINITION. The mailboxes of the Colost Message Interface (R549 to R567, R1103, R1107, R1111): setting GO, taking a request
with its mailbox checks and checks 1 to 6, replies and events, and the frame in which every message runs. -/

namespace Sys2Proof.Machine

/-! Functions. -/

/-- A function that exists for the host: the PF, or a VF that is enabled (R597). -/
def State.fnLive (s : State) (k : Nat) : Bool := k == 0 || (s.pcie.vfEn && k ≤ s.pcie.numVfs)

/-- The VF that partition p is mapped to, 0 for the PF (R597). A disabled VF keeps its partitions until the teardown of its
contexts has ended (R598). -/
def State.ownerOf (s : State) (p : Nat) : Nat :=
  match [1, 2, 3, 4, 5, 6, 7, 8].find? fun k =>
    bitOf (s.pcie.mask.getD (k - 1) 0) p &&
      (s.fnLive k || s.ctxs.any fun e => e.2.st != .free && e.2.owner == k) with
  | some k => k
  | none => 0

/-- PART_MASK of function k: the partitions mapped to it. -/
def State.fnMask (s : State) (k : Nat) : Nat := allParts.foldl (fun a p => if s.ownerOf p = k then a + 2 ^ p else a) 0

/-- The partitions that a mask names. -/
def maskParts (m : Nat) : List Nat := allParts.filter (bitOf m)

/-! Message table (R567, R568 and the table after it, R1103). -/

/-- Who may send a message. -/
inductive Sender where
  | pf | owner | any
deriving DecidableEq, Repr

/-- Sender of an opcode, none for an opcode that is no message a function may know. -/
def msgSender (op : Nat) : Option Sender :=
  if op = 0x0001 || op = 0x0101 || op = 0x0601 || op = 0x0604 || op = 0x0704 || op = 0x0801 || op = 0x0903 then some .any
  else if [0x0102, 0x0103, 0x0110, 0x0111, 0x0120, 0x0121, 0x0201, 0x0202, 0x0203, 0x0204, 0x0210, 0x0220, 0x0230].contains op ||
      [0x0301, 0x0302, 0x0303, 0x0304, 0x0305, 0x0501, 0x0502, 0x0503, 0x0504, 0x0510, 0x0511, 0x0512].contains op ||
      [0x0520, 0x0521, 0x0522, 0x0523, 0x0524, 0x0805].contains op then some .owner
  else if [0x0602, 0x0603, 0x0701, 0x0702, 0x0703, 0x0802, 0x0803, 0x0804, 0x0901, 0x0902, 0x0904, 0x0905].contains op ||
      [0x0A01, 0x0A02, 0x0A03, 0x0A04].contains op then some .pf
  else none

/-- The payload length that a message defines, from its payload words (R1103). -/
def msgLength (op : Nat) (w : List Nat) : Nat :=
  if op = 0x0301 then (if bitOf (wd w 0) 30 then 16 + 64 * bitsOf (wd w 0) 12 0 else 16)
  else if op = 0x0220 then 8 + 4 * bitsOf (wd w 0) 6 0
  else if op = 0x0510 then (if bitOf (wd w 0) 6 then 272 else 144)
  else if op = 0x0521 then 16 + 16 * bitsOf (wd w 0) 23 16
  else if op = 0x0701 then 8 + 4 * bitsOf (wd w 0) 8 0
  else if op = 0x0702 then 4 + 4 * bitsOf (wd w 0) 3 0
  else if [0x0001, 0x0103, 0x0504, 0x0512, 0x0523, 0x0524, 0x0604].contains op then 0
  else if [0x0101, 0x0102, 0x0121, 0x0202, 0x0302, 0x0305, 0x0511, 0x0601, 0x0602, 0x0603, 0x0704].contains op ||
      [0x0803, 0x0804, 0x0901, 0x0904, 0x0A01, 0x0A02].contains op then 4
  else if [0x0110, 0x0111, 0x0201, 0x0503, 0x0522, 0x0703, 0x0802, 0x0805, 0x0A03, 0x0A04].contains op then 8
  else if [0x0303, 0x0801].contains op then 12
  else if [0x0204, 0x0230, 0x0902].contains op then 16
  else if [0x0203, 0x0304, 0x0905].contains op then 24
  else if op = 0x0210 then 32
  else if op = 0x0903 then 56
  else if op = 0x0120 then 64
  else if op = 0x0502 then 72
  else if op = 0x0520 then 112
  else 1624

/-- Messages answered between MCP_READY and readiness (R919). -/
def earlyMsg (op : Nat) : Bool := [0x0001, 0x0604, 0x0801, 0x0A04, 0x0905].contains op

/-! Replies. -/

/-- Reply OK, with a payload. -/
def okReply (s : State) (k : Nat) (r : Req) (payload : List Nat) : State := reply s k r.no r.seq r.opcode r.ctx 0 0 payload

/-- Refuse a request with a status and the offset of the offending field (R566). -/
def refuseMsg (s : State) (k : Nat) (r : Req) (status detail : Nat) : State := reply s k r.no r.seq r.opcode r.ctx status detail []

/-- DETAIL of the payload's word i (R566; the offset column of the message's table, counted from the header).
DEDUCED, log entry 61. -/
def atWord (i : Nat) : Nat := 0x10 + 4 * i

/-- The first payload word that has a bit of its reserved mask set. -/
def reservedAt : List Nat → List Nat → Nat → Option Nat
  | [], _, _ => none
  | m :: ms, w, i => if Nat.land m (wd w i) ≠ 0 then some i else reservedAt ms w (i + 1)

/-- A check of reserved bits as an entry of a check list. -/
def reservedCheck (masks w : List Nat) (status : Nat) : Bool × Nat × Nat :=
  match reservedAt masks w 0 with
  | some i => (true, status, atWord i)
  | none => (false, 0, 0)

/-- The first check that fails: its status and detail. -/
def firstBad : List (Bool × Nat × Nat) → Option (Nat × Nat)
  | [] => none
  | (b, st, d) :: l => if b then some (st, d) else firstBad l

/-- Refuse at the first check that fails, else go on. -/
def checked (s : State) (k : Nat) (r : Req) (l : List (Bool × Nat × Nat)) (go : State) : State :=
  match firstBad l with
  | some (st, d) => refuseMsg s k r st d
  | none => go

/-- The checks of R1107 for a message that acts for the context in CTX and names partition p in payload word i. -/
def partChecks (s : State) (k : Nat) (r : Req) (p i own : Nat) : List (Bool × Nat × Nat) :=
  [ (s.ownerOf p != k, 0x12, atWord i), (!(s.ctx r.ctx).parts.contains p, own, atWord i) ]

/-! Taking a request. -/

/-- The function that the MCP serves next: round robin from the one after the last (R555). -/
def nextFn (s : State) : Option Nat :=
  [1, 2, 3, 4, 5, 6, 7, 8, 9].findSome? fun d =>
    let k := (s.rrLast + d) % 9
    if (s.fn k).go then some k else none

/-- The header words of a request buffer, and the request. -/
def reqOf (b : Mem) : List Nat × Req :=
  let h := memWords b 0 4
  let n := min (bitsOf (wd h 1) 11 0) 4080
  (h, { seq := wd h 0 / 65536, opcode := wd h 0 % 65536, ctx := wd h 2 % 64, payload := memWords b 16 (n / 4) })

/-- Check 4 of R567: CTX is 0, or a context that function k created. -/
def ctxOk (s : State) (k : Nat) (snd : Sender) (r : Req) : Bool :=
  let own := r.ctx != 0 && (s.ctx r.ctx).st != .free && (s.ctx r.ctx).owner == k
  match snd with
  | .owner => own
  | _ => r.ctx == 0 || (r.opcode == 0x0903 && own)

/-- Checks 1 to 6 of R567: status and detail of the first that fails. -/
def headerChecks (s : State) (k : Nat) (h : List Nat) (r : Req) : Option (Nat × Nat) :=
  let len := bitsOf (wd h 1) 11 0
  let bad1 : Bool := len % 4 != 0 || 4080 < len || bitsOf (wd h 1) 31 12 != 0
  let bad2 : Bool := bitsOf (wd h 2) 31 6 != 0
  if bad1 then some (0x10, 4)
  else if bad2 then some (0x10, 8)
  else if wd h 3 ≠ 0 then some (0x10, 12)
  else if r.opcode = 0x0002 then some (if s.ready then 0x12 else 0x1B, noField)
  else
    match msgSender r.opcode with
    | none => some (0x11, 0)
    | some snd =>
      if !s.ready && !earlyMsg r.opcode then some (0x1B, noField)
      else if snd == .pf && k != 0 then some (0x12, noField)
      else if !ctxOk s k snd r then some (0x13, 8)
      else if r.ctx != 0 && r.opcode != 0x0103 && (s.ctx r.ctx).st != .open then some (0x14, noField)
      else if len ≠ msgLength r.opcode r.payload then some (0x15, 4)
      else none

/-- Queue the refusal of a request that the MCP has just taken: behind the replies to the simple requests of function k that it
has taken and not answered (R560). -/
def refuseTaken (s : State) (k : Nat) (r : Req) (status detail : Nat) : State :=
  let f := s.fn k
  let earlier := ((s.taken.filter fun x => x.1 == k && !longMsg x.2.opcode).map (·.2.no)) ++ repliesAhead s k
  s.setFn k { f with replies := f.replies ++
    [{ seq := r.seq, opcode := r.opcode, ctx := r.ctx, status, detail, payload := [], req := r.no
       after := if longMsg r.opcode then [] else earlier }] }

/-- The request buffer as the MCP copies it: each word that the host has written while GO was 1 as it was before or after that, which
is a free choice (R1111). -/
def copiedBuf (s : State) (k : Nat) : Mem × State :=
  (s.fn k).rewritten.foldl (fun a e =>
    let x := a.2.takeFree
    (if x.1 % 2 = 0 then memWrite a.1 e.1 (natLe 4 e.2) else a.1, x.2)) ((s.fn k).reqBuf, s)

/-- Take the request of function k (R552, R554, R555, R567): GO clears, a request that fails the mailbox checks or checks 1 to 6
is refused, any other waits for its message's own turn. -/
def takeRequest (s : State) (k : Nat) : State :=
  let f := s.fn k
  let b := copiedBuf s k
  let hr := reqOf b.1
  let r := { hr.2 with no := f.reqNo }
  let s1 := { b.2.setFn k { f with go := false, rewritten := [], reqNo := f.reqNo + 1 } with rrLast := k }
  if 16 ≤ f.outst.length then refuseTaken s1 k r 0x18 noField
  else
    let s2 := s1.setFn k { s1.fn k with outst := f.outst ++ [(r.no, r.seq)] }
    if f.outst.any (·.2 == r.seq) then refuseTaken s2 k r 0x19 0
    else
      match headerChecks s2 k hr.1 r with
      | some (st, d) => refuseTaken s2 k r st d
      | none => { s2 with taken := s2.taken ++ [(k, r)] }

/-- Write 1 to GO (R550). -/
def setGo (s : State) (k : Nat) : State := if s.fnLive k then s.setFn k { s.fn k with go := true } else s

/-- MCP_TAKE_REQUEST: the MCP is ready and function fn is next in turn (R552, R555). -/
def execMcpTakeRequest (fn : Fin 9) (s : State) : Host.Outcome State Fault Refusal :=
  next (if s.mcpReady && !s.stopped && nextFn s == some fn.val then takeRequest s fn else s)

/-- Write 1 to RSP_VALID (R557). -/
def clearRsp (s : State) (k : Nat) : State := if s.fnLive k then s.setFn k { s.fn k with rspValid := false } else s

/-- The words of a reply (R559, R566). -/
def replyWords (r : Reply) : List Nat :=
  [ 65536 * (r.seq % 65536) + r.opcode % 65536, 2 ^ 31 + 4 * r.payload.length % 4096, 65536 * r.status + r.ctx % 64,
    r.detail % 2 ^ 32 ] ++ r.payload

/-- The words of an EVENT_NOTIFY (R570). -/
def eventWords (m : EvMsg) : List Nat :=
  [ 0x0002, 2 ^ 30 + 32, m.ctx % 64, 0,
    m.code + (match m.part with | some p => 2 ^ 19 + 65536 * p | none => 0), m.rep % 2 ^ 32,
    m.time % 2 ^ 32, m.time / 2 ^ 32 % 2 ^ 32 ] ++ (List.range 4).map (fun i => wd m.data i % 2 ^ 32)

/-- Put a message in the response buffer and tell the host (R556). -/
def putMessage (s : State) (k : Nat) (ws : List Nat) (seq : Nat) : State :=
  let f := s.fn k
  let s1 := s.setFn k { f with rspBuf := memWrite f.rspBuf 0 (wordsBytes ws), rspValid := true, rspSeq := seq }
  if f.irqEn then raiseVector s1 k f.irqVec else s1

/-- A reply may go: no simple request of the function that was taken before its own still counts as outstanding (R560). -/
def replyMayGo (outst : List (Nat × Nat)) (r : Reply) : Bool := r.after.all fun q => !outst.any (·.1 == q)

/-- CMI_RESPONSE_DELIVERY: the next reply that may go, or with none the next event, goes to the response buffer while RSP_VALID is 0 (R556,
R562). A module that has stopped delivers nothing (R1007). -/
def execCmiResponseDelivery (fn : Fin 9) (s : State) : Host.Outcome State Fault Refusal :=
  let f := s.fn fn
  next (if f.rspValid || s.stopped then s
    else
      match f.replies.find? (replyMayGo f.outst), f.events with
      | some r, _ =>
        let outst := f.outst.filter (·.1 != r.req)
        putMessage (s.setFn fn { f with replies := f.replies.erase r, outst }) fn (replyWords r) r.seq
      | none, m :: rest => putMessage (s.setFn fn { f with events := rest }) fn (eventWords m) 0
      | none, [] => s)

/-! The frame of a message. -/

/-- A message that needs a partition (R954): it acts on contexts' nodes, memory, codebooks, banks, schedules or resets.
DEDUCED, log entry 63. -/
def needsPart (op : Nat) : Bool :=
  ([1, 2, 3, 5].contains (op / 256) && !([0x0103, 0x0501, 0x0504, 0x0512, 0x0524].contains op)) ||
    [0x0701, 0x0702, 0x0703, 0x0803, 0x0804, 0x0904, 0x0905, 0x0A01, 0x0A02, 0x0A03].contains op

/-- Run the message at the head of the taken requests, where it is function k's with opcode `op` and passes `fits`. In A4 a
message that needs a partition begins the exit; a simple one is refused with PWR_WAKING, a long one waits for the exit (R952,
R954). A context that is gone since the request was taken answers CTX_INVALID, one in its
teardown CTX_STATE (R567, the table of context states). -/
def runMsg (s : State) (k op : Nat) (fits : Req → Bool) (body : State → Req → State) : State :=
  match s.taken with
  | [] => s
  | (j, r) :: rest =>
    if j != k || r.opcode != op || !fits r || !s.mcpReady || s.stopped then s
    else
      let s1 := { s with taken := rest }
      if s.power.a4 && needsPart op then
        let s2 := { s with power := { s.power with a4Waking := true } }
        if longMsg op then s2 else refuseMsg { s2 with taken := rest } k r 0x0611 noField
      else if r.ctx != 0 && ((s.ctx r.ctx).st == .free || (s.ctx r.ctx).owner != k) then refuseMsg s1 k r 0x13 8
      else if r.ctx != 0 && op != 0x0103 && (s.ctx r.ctx).st != .open then refuseMsg s1 k r 0x14 noField
      else body s1 r

/-- Run a message of an opcode that one row stands for. -/
def runOp (s : State) (k op : Nat) (body : State → Req → State) : State := runMsg s k op (fun _ => true) body

/-- Begin a long operation: its reply comes when it ends (R560). The state and the operation's number. -/
def beginOp (s : State) (k : Nat) (r : Req) (todo : List Nat) (a b : Nat) : State × Nat :=
  let o : LongOp := { fn := k, req := r.no, seq := r.seq, opcode := r.opcode, ctx := r.ctx, payload := r.payload, todo, a, b }
  ({ s with ops := tabSet s.ops s.nextOp o, nextOp := s.nextOp + 1 }, s.nextOp)

/-- A number of lo to lo + n − 1 that is not in use, where `cnt` are: which one is not given (DESIGN CHOICE, log entry 3). -/
def freshId (s : State) (used : Nat → Bool) (lo n cnt : Nat) : Option (Nat × State) :=
  let f := s.takeFree
  let at_ (i : Nat) : Nat := lo + (f.1 + i) % n
  ((List.range (min n (cnt + 1))).find? fun i => !used (at_ i)).map fun i => (at_ i, f.2)

end Sys2Proof.Machine
end

