-- ==== Sys2Proof/Machine/CtxMsgs.lean ====
section
/-! DEFINITION. IDENTITY_QUERY, contexts, grants, teardown and page tables (R402 to R404, R568, R573 to R583). -/

namespace Sys2Proof.Machine

/-- IDENTITY_QUERY (R568). -/
def execIdentityQuery (fn : Fin 9) (s : State) : Host.Outcome State Fault Refusal :=
  next (runOp s fn 0x0001 fun s r =>
    okReply s fn r [0x01001100 + fn.val, s.fnMask fn, s.sec.serial % 2 ^ 32, s.sec.serial / 2 ^ 32 % 2 ^ 32, s.moduleId % 2 ^ 13,
                    bunVersion s.sec.running])

/-! Contexts. -/

/-- User contexts that are not FREE. -/
def liveCtxs (s : State) : List Nat := (s.ctxs.filter fun e => e.2.st != .free && e.1 != 0).map (·.1)

/-- A new context: everything at its start, the epoch one higher (R575, R576). -/
def newCtx (s : State) (c k : Nat) (parts : List Nat) : State :=
  s.setCtx c { st := .open, epoch := ((s.ctx c).epoch + 1) % 256, owner := k, parts, cmr := List.replicate 32 0 }

/-- CTX_CREATE (R573 to R576, R1058). Which free number the context gets is not given. DEDUCED, log entry 58. -/
def execCtxCreate (fn : Fin 9) (s : State) : Host.Outcome State Fault Refusal :=
  next (runOp s fn 0x0101 fun s r =>
    let w := wd r.payload 0
    let ps := maskParts (w % 256)
    checked s fn r
      [ (ps.any fun p => s.ownerOf p != fn.val, 0x12, atWord 0),
        reservedCheck [0xFFFFFF00] r.payload 0x16,
        (ps == [], 0x16, atWord 0),
        (63 ≤ (liveCtxs s).length, 0x17, noField),
        (ps.any fun p => !(s.part p).inService, 0x1B, atWord 0),
        (s.dbgLevel == 2, 0x0922, noField) ]
      (match freshId s (fun c => (s.ctx c).st != .free) 1 63 s.ctxs.length with
        | none => refuseMsg s fn r 0x17 noField
        | some (c, s1) =>
          let s2 := newCtx s1 c fn ps
          reply s2 fn r.no r.seq r.opcode c 0 0 [c + 256 * (s2.ctx c).epoch]))

/-- CTX_QUERY (R580). -/
def execCtxQuery (fn : Fin 9) (s : State) : Host.Outcome State Fault Refusal :=
  next (runOp s fn 0x0103 fun s r =>
    let x := s.ctx r.ctx
    let st := match x.st with | .draining => 1 | .zeroing => 2 | _ => 0
    okReply s fn r [st + 256 * x.parts.foldl (fun a p => a + 2 ^ p) 0 + 65536 * x.epoch])

/-- CTX_DESTROY: steps 1 and 2 of the teardown (R577). -/
def execCtxDestroy (fn : Fin 9) (s : State) : Host.Outcome State Fault Refusal :=
  next (runOp s fn 0x0102 fun s r =>
    checked s fn r [ (1000000 < wd r.payload 0, 0x16, atWord 0) ]
      (let b := beginOp s fn r [] 0 0
       beginTeardown b.1 r.ctx (wd r.payload 0) (some b.2)))

/-- The commit phases of context c have ended on every partition, and none of its partitions is in a reset (R577, R997). -/
def commitsDone (s : State) (c : Nat) : Bool :=
  (s.ctx c).parts.all fun p =>
    (s.part p).reset.isNone && !(s.part p).insts.any fun e => e.2.ctx == c && e.2.st == .committing

/-- The model itself holds transactions of context c. -/
def hasTxns (s : State) (c : Nat) : Bool :=
  allParts.any (fun p => (s.part p).txns.any fun e => e.2.ctx == c) ||
    s.conns.any fun e => e.2.ctx == c && e.2.outst != []

/-- The slots of a schedule that name context c become KIND 2 slots (R625). -/
def dropSlots (c : Nat) (l : List Slot) : List Slot :=
  l.map fun x => if x.kind = 0 && x.ctx = c then { x with kind := 2 } else x

/-- What leaves partition p with context c at step 6 of its teardown (R275, R394, R466, R577, R625). A cancelled arm stays for what is
left of its 2 ms (R813). -/
def clearPart (s : State) (c p : Nat) : State :=
  let P := s.part p
  let s1 := sendUnsent (s.setPart p { P with
    insts := P.insts.filter fun e => e.2.ctx != c
    txns := P.txns.filter fun e => e.2.ctx != c
    arms := P.arms.filter fun e => e.2.ctx != c || e.2.cancelAt.isSome
    sched := P.sched.map (dropSlots c)
    schedNext := P.schedNext.map (dropSlots c) }) p
  allTiles.foldl (fun s t => s.setTile p t { s.tile p t with live := [], sel := [], gbuf := [] }) s1

/-- The frames of a context's weight generations on partition p. -/
def weightFrames (x : Ctx) (p : Nat) : List Nat := x.bindings.flatMap fun b => b.2.gens.flatMap fun g => tabGet [] g.2.units p

/-- 64 KiB frames of partition p that context c has still to give back: its allocations and the frames of the bindings that step 6
of its teardown removed. -/
def framesOf (s : State) (c p : Nat) : List Nat :=
  let x := s.ctx c
  (x.allocs.filter fun e => e.2.part == p).flatMap (fun e =>
    if e.2.big then e.2.pages.flatMap fun u => (List.range 32).map (u + ·) else e.2.pages) ++ tabGet [] x.toZero p

/-- Step 6 of the teardown. -/
def teardownClear (s : State) (c : Nat) (fenced : Bool) : State :=
  let x := s.ctx c
  let s1 := x.parts.foldl (fun s p => clearPart s c p) s
  let ctxs := tabMap s1.ctxs fun _ y => { y with grants := y.grants.filter fun g => g.grantee != c }
  let fns := tabMap s1.fns fun _ f => { f with bar2 := f.bar2.filter fun e => e.2.ctx != c }
  let s2 := { s1 with ctxs, fns, conns := s1.conns.filter fun e => e.2.ctx != c,
                      loads := s1.loads.filter fun e => e.2.ctx != c,
                      repairs := s1.repairs.filter fun r => r.ctx != c }
  let y := s2.ctx c
  bumpMaps (s2.setCtx c { y with
    st := .zeroing, fenced, grants := [], maps := [], mapVer := y.mapVer + 1, bindings := []
    toZero := allParts.foldl (fun t p => if weightFrames y p = [] then t else tabSet t p (weightFrames y p)) []
    cpart := tabMap y.cpart fun _ z => { fences := z.fences, recordsLost := z.recordsLost } }) c

/-- A record of context c that its ring has yet to take: a write to host memory that is outstanding (R545, R577 step 4). -/
def recordWaits (s : State) (c : Nat) : Bool :=
  (s.ctx c).parts.any fun p =>
    let x := s.cp c p
    !x.broken && x.ring.isSome && x.recs != []

/-- CTX_DRAIN_END: steps 3 to 6 of the teardown, once commit phases have finished and no transaction is outstanding, or at the
drain limit, which fences the context off (R577). -/
def execCtxDrainEnd (ctx : Fin 64) (clean : Bool) (s : State) : Host.Outcome State Fault Refusal :=
  let x := s.ctx ctx
  let quiet := clean && commitsDone s ctx && !hasTxns s ctx && !recordWaits s ctx
  let waits := x.parts.any fun p => (s.part p).reset.isSome
  next (if x.st != .draining || waits || !(quiet || x.drainBy ≤ s.hub) then s else teardownClear s ctx (!quiet))

/-- Zero every scratchpad of partition p (R577 step 7). A tile that context c ran on last counts as switched (R605). DEDUCED, log entry 59. -/
def zeroTiles (s : State) (c p : Nat) : State :=
  allTiles.foldl (fun s t =>
    let x := s.tile p t
    s.setTile p t { x with wm := x.wm.zero, am := x.am.zero, pm := x.pm.zero
                           lastCtx := if x.lastCtx = some c then none else x.lastCtx }) s

/-- 32-bit words of SVU programs that context c has in the store (R687). -/
def progWords (x : Ctx) : Nat := x.progs.foldl (fun a e => a + e.2.length) 0

/-- Steps 7 and 8 of the teardown. -/
def teardownEnd (s : State) (c : Nat) : State :=
  let x := s.ctx c
  let s1 := x.parts.foldl (fun s p =>
    let s1 := zeroTiles (zeroUnits s p (framesOf s c p)) c p
    s1.setPart p { s1.part p with svuWords := (s1.part p).svuWords - progWords x }) s
  let s2 := s1.setCtx c { epoch := x.epoch }
  match x.destroyOp with
  | some o => endOp s2 o 0 [b2n x.fenced, x.abandoned % 2 ^ 32]
  | none => s2

/-- CTX_ZEROING_END. -/
def execCtxZeroingEnd (ctx : Fin 64) (s : State) : Host.Outcome State Fault Refusal :=
  next (if (s.ctx ctx).st == .zeroing then teardownEnd s ctx else s)

/-! Grants (R581 to R583). -/

/-- The grant that a FENCE_GRANT or FENCE_REVOKE payload spells. -/
def grantOf (w : List Nat) : Grant :=
  { grantee := bitsOf (wd w 0) 5 0, first := bitsOf (wd w 1) 11 0, count := bitsOf (wd w 1) 28 16,
    wait := bitOf (wd w 0) 8, signal := bitOf (wd w 0) 9 }

/-- Checks that FENCE_GRANT and FENCE_REVOKE share. -/
def grantChecks (s : State) (r : Req) : List (Bool × Nat × Nat) :=
  let g := grantOf r.payload
  [ reservedCheck [0xFFFFFCC0, 0xE000F000] r.payload 0x16,
    (g.count == 0 || 4096 < g.count, 0x16, atWord 1),
    (512 * (s.ctx r.ctx).parts.length < g.first + g.count, 0x0101, atWord 1) ]

/-- FENCE_GRANT. -/
def execFenceGrant (fn : Fin 9) (s : State) : Host.Outcome State Fault Refusal :=
  next (runOp s fn 0x0110 fun s r =>
    let g := grantOf r.payload
    let x := s.ctx r.ctx
    checked s fn r (grantChecks s r ++
      [ (g.grantee == 0 || (s.ctx g.grantee).st != .open, 0x0101, atWord 0), (64 ≤ x.grants.length, 0x17, noField) ])
      (okReply (s.setCtx r.ctx { x with grants := x.grants ++ [g] }) fn r []))

/-- Mark the first grant equal to g and not revoked as revoked until the partitions have passed a boundary.
DEDUCED, log entry 60. -/
def revokeIn : List Grant → Grant → List Nat → List Grant
  | [], _, _ => []
  | h :: l, g, ps => if h = g then { h with revoked := some ps } :: l else h :: revokeIn l g ps

/-- FENCE_REVOKE: the grant ends at the next command boundary of each partition of the grantee (R583). -/
def execFenceRevoke (fn : Fin 9) (s : State) : Host.Outcome State Fault Refusal :=
  next (runOp s fn 0x0111 fun s r =>
    let g := grantOf r.payload
    let x := s.ctx r.ctx
    checked s fn r (grantChecks s r ++ [ (!x.grants.contains g, 0x0101, atWord 0) ])
      (let ps := (s.ctx g.grantee).parts
       let s1 := s.setCtx r.ctx { x with grants := revokeIn x.grants g ps }
       let s2 := ps.foldl boundaryIfIdle s1
       let y := s2.ctx r.ctx
       okReply (s2.setCtx r.ctx { y with grants := y.grants.filter fun g => g.revoked != some [] }) fn r []))

/-! Page tables. -/

/-- KV_TABLE_SET: the new table takes effect at the partition's next command boundary (R402 to R404). -/
def execKvTableSet (fn : Fin 9) (s : State) : Host.Outcome State Fault Refusal :=
  next (runOp s fn 0x0230 fun s r =>
    let p := bitsOf (wd r.payload 0) 23 21
    let n := bitsOf (wd r.payload 0) 20 0
    let base := wd64 r.payload 2
    checked s fn r (partChecks s fn r p 0 0x0201 ++
      [ reservedCheck [0xFF000000, 0xFFFFFFFF, 0, 0xFFFF0000] r.payload 0x0201,
        (n == 0 || 1048576 < n, 0x0201, atWord 0), (base % 4096 != 0, 0x0201, atWord 2) ])
      (let x := s.cp r.ctx p
       okReply (boundaryIfIdle (s.setCp r.ctx p { x with ptNext := some ⟨base, n⟩ }) p) fn r []))

end Sys2Proof.Machine
end

