-- ==== Sys2Proof/Machine/MemMsgs.lean ====
section
/-! DEFINITION. Memory messages (R656 to R664), windows of BAR2 (R854 to R856, R862), SVU programs (R686 to R691) and HBM repair
(R680 to R685). -/

namespace Sys2Proof.Machine

/-! Allocation (R651, R654, R661). -/

/-- Frames that user contexts may hold, starting at a place that is not given (DESIGN CHOICE, log entry 3). -/
def userFrames (k : Nat) : List Nat := (List.range 33820).map fun i => (i + k) % 33820

/-- 64 KiB units of frame f that are free. -/
def freeUnits (used : List Nat) (f : Nat) : List Nat := ((List.range 32).map (32 * f + ·)).filter fun u => !used.contains u

/-- The first units of the pages that an allocation takes: for 2 MiB pages whole free frames, for 64 KiB pages the free parts of
partly used frames first (R661). -/
def pickPages (used : List Nat) (k : Nat) (big : Bool) (colour n : Nat) : List Nat :=
  let fs := (userFrames k).filter fun f => colour == 3 || f % 3 == colour
  let whole := fs.filter fun f => (freeUnits used f).length == 32
  if big then (whole.take n).map (32 * ·)
  else
    let part := fs.filter fun f => let l := (freeUnits used f).length; 0 < l && l < 32
    ((part ++ whole.take n).flatMap (freeUnits used)).take n

/-- The 64 KiB units of a page. -/
def pageUnits (big : Bool) (u : Nat) : List Nat := if big then (List.range 32).map (u + ·) else [u]

/-- MEM_ALLOC. -/
def execMemAlloc (fn : Fin 9) (s : State) : Host.Outcome State Fault Refusal :=
  next (runOp s fn 0x0201 fun s r =>
    let w0 := wd r.payload 0
    let p := bitsOf w0 18 16
    let n := bitsOf (wd r.payload 1) 20 0
    let big := bitOf w0 8
    checked s fn r (partChecks s fn r p 0 0x16 ++
      [ reservedCheck [0xFFF8FECF, 0xFFE00000] r.payload 0x16, (n == 0 || 1048576 < n, 0x16, atWord 1) ])
      (let f := s.takeFree
       let P := f.2.part p
       let pages := pickPages P.hbm.used f.1 big (bitsOf w0 5 4) n
       let x := f.2.ctx r.ctx
       if pages.length < n then refuseMsg s fn r 0x0210 noField
       else
         match freshId f.2 (fun h => (tabFind x.allocs h).isSome) 1 4294967295 x.allocs.length with
         | none => refuseMsg s fn r 0x0210 noField
         | some (h, s1) =>
           let s2 := s1.setPart p { P with hbm := { P.hbm with used := setInsAll P.hbm.used (pages.flatMap (pageUnits big)) } }
           okReply (s2.setCtx r.ctx { x with allocs := tabSet x.allocs h { part := p, big, pages } }) fn r [h]))

/-! Mapping (R657, R659, R662, R663). -/

/-- An allocation is being freed: its MEM_FREE has not ended. -/
def beingFreed (s : State) (a : Alloc) : Bool :=
  match a.freeing with
  | some o => (tabFind s.ops o).isSome
  | none => false

/-- Mappings in force now. -/
def liveMaps (x : Ctx) : List Mapping := x.maps.filter fun m => m.died.isNone

/-- Whether [a, a + n) meets a part of a binding's window, which counts as a live mapping (R722). -/
def meetsWindow (x : Ctx) (a n : Nat) : Bool :=
  x.bindings.any fun e => x.parts.any fun p => overlap a n (e.2.window + p * e.2.span) e.2.span

/-- Whether [a, a + n) meets a live mapping. -/
def meetsMap (x : Ctx) (a n : Nat) : Bool :=
  meetsWindow x a n || (liveMaps x).any fun m => overlap a n m.dva (65536 * m.units.length)

/-- Change the mappings of context c in one step (R659). -/
def remap (s : State) (c : Nat) (f : Nat → List Mapping → List Mapping) : State :=
  let x := s.ctx c
  let v := x.mapVer + 1
  bumpMaps (s.setCtx c { x with mapVer := v, maps := f v x.maps }) c

/-- MEM_MAP. -/
def execMemMap (fn : Fin 9) (s : State) : Host.Outcome State Fault Refusal :=
  next (runOp s fn 0x0203 fun s r =>
    let w := r.payload
    let x := s.ctx r.ctx
    let first := bitsOf (wd w 1) 20 0
    let n := bitsOf (wd w 2) 20 0
    let dva := wd64 w 4 % 2 ^ 48
    let a := tabFind x.allocs (wd w 0)
    let size := match a with | some b => if b.big then 2097152 else 65536 | none => 65536
    checked s fn r
      [ reservedCheck [0, 0x7FE00000, 0xFFE00000, 0xFFFFFFFF, 0, 0xFFFF0000] w 0x16,
        ((match a with | some b => beingFreed s b | none => true), 0x0211, atWord 0),
        (n == 0, 0x0211, atWord 2), (dva % size != 0, 0x0211, atWord 4),
        (2 ^ 48 < dva + n * size || meetsMap x dva (n * size), 0x0211, atWord 4),
        ((match a with | some b => b.pages.length < first + n | none => true), 0x0211, atWord 1) ]
      (match a with
        | none => s
        | some b =>
          let units := ((b.pages.drop first).take n).flatMap (pageUnits b.big)
          okReply (remap s r.ctx fun v l => l ++
            [{ dva, units, big := b.big, writable := bitOf (wd w 1) 31, part := b.part, handle := wd w 0, born := v }]) fn r []))

/-- The part of a mapping that starts at unit i and has n units. -/
def mapSlice (m : Mapping) (i n v : Nat) : List Mapping :=
  if n = 0 then [] else [{ m with dva := m.dva + 65536 * i, units := (m.units.drop i).take n, born := v }]

/-- Take [a, a + n) out of a live mapping from version v on: what lies before and after it stays mapped. -/
def cutMap (a n v : Nat) (m : Mapping) : List Mapping :=
  let len := 65536 * m.units.length
  if m.died.isSome || !overlap a n m.dva len then [m]
  else
    let lo := (max a m.dva - m.dva) / 65536
    let hi := (min (a + n) (m.dva + len) - m.dva) / 65536
    [{ m with died := some v }] ++ mapSlice m 0 lo v ++ mapSlice m hi (m.units.length - hi) v

/-- MEM_UNMAP. -/
def execMemUnmap (fn : Fin 9) (s : State) : Host.Outcome State Fault Refusal :=
  next (runOp s fn 0x0204 fun s r =>
    let w := r.payload
    let x := s.ctx r.ctx
    let n := 65536 * bitsOf (wd w 0) 20 0
    let dva := wd64 w 2 % 2 ^ 48
    let lives := (liveMaps x).filter fun m => m.handle != 0
    let unitMapped (i : Nat) : Bool := lives.any fun m => m.covers x.mapVer (dva + 65536 * i)
    checked s fn r
      [ reservedCheck [0xFFE00000, 0xFFFFFFFF, 0, 0xFFFF0000] w 0x16,
        (dva % 65536 != 0, 0x0211, atWord 2), (n == 0, 0x0211, atWord 0), (2 ^ 48 < dva + n, 0x0211, atWord 2),
        (!(List.range (n / 65536)).all unitMapped, 0x0211, atWord 2),
        (lives.any fun m => m.big && overlap dva n m.dva (65536 * m.units.length) &&
          ((m.dva < dva && dva % 2097152 != 0) || (dva + n < m.dva + 65536 * m.units.length && (dva + n) % 2097152 != 0)),
          0x0211, atWord 2) ]
      (okReply (remap s r.ctx fun v l => l.flatMap (cutMap dva n v)) fn r []))

/-- A node of context c that has not resolved latched, on any partition, a mapping version at which a mapping of the kind f was
live (R660). -/
def latchedMap (s : State) (c : Nat) (f : Mapping → Bool) : Bool :=
  let ms := (s.ctx c).maps.filter f
  allParts.any fun p => (s.part p).insts.any fun e =>
    e.2.ctx == c && !e.2.st.resolved && e.2.firstAt.isSome && ms.any fun m =>
      m.born ≤ e.2.mapVer && (match m.died with | none => true | some d => e.2.mapVer < d)

/-- The frames of allocation h are still held (R660). -/
def stillHeld (s : State) (c h : Nat) : Bool := latchedMap s c fun m => m.handle == h

/-- MEM_FREE begins (R664). -/
def execMemFree (fn : Fin 9) (s : State) : Host.Outcome State Fault Refusal :=
  next (runOp s fn 0x0202 fun s r =>
    let h := wd r.payload 0
    let x := s.ctx r.ctx
    let a := tabFind x.allocs h
    checked s fn r
      [ ((match a with | some b => beingFreed s b | none => true), 0x0211, atWord 0),
        ((liveMaps x).any fun m => m.handle == h, 0x0212, atWord 0) ]
      (match a with
        | none => s
        | some b =>
          let o := beginOp s fn r [b.part] 0 0
          let y := o.1.ctx r.ctx
          o.1.setCtx r.ctx { y with allocs := tabSet y.allocs h { b with freeing := some o.2 } }))

/-- MEM_FREE_ZERO_DONE: once nothing holds the frames they are zeroed, returned, and MEM_FREE replies (R664). -/
def execMemFreeZeroDone (ctx : Fin 64) (handle : Nat) (s : State) : Host.Outcome State Fault Refusal :=
  let x := s.ctx ctx
  next (match tabFind x.allocs handle with
    | none => s
    | some a =>
      match a.freeing with
      | none => s
      | some o =>
        if !beingFreed s a || stillHeld s ctx handle || (s.part a.part).reset.isSome then s
        else
          let s1 := zeroUnits s a.part (a.pages.flatMap (pageUnits a.big))
          let y := s1.ctx ctx
          endOp (s1.setCtx ctx { y with allocs := tabDel y.allocs handle }) o 0 [])

/-! BAR2 windows. -/

/-- Bytes of a function's BAR2 (64 GiB at reset, R862). -/
def bar2Bytes (f : Fn) : Nat := 2 ^ 36 * 2 ^ f.bar2Log2

/-- Bytes that a window entry maps. -/
def Window.bytes (w : Window) : Nat := 2097152 * w.units

/-- BAR2_WINDOW_SET. Windows are keyed by entry; the place in the BAR stands with each. -/
def execBar2WindowSet (fn : Fin 9) (s : State) : Host.Outcome State Fault Refusal :=
  next (runOp s fn 0x0210 fun s r =>
    let w := r.payload
    let f := s.fn fn
    let e := bitsOf (wd w 0) 3 0
    let off := wd64 w 2
    let dva := wd64 w 4
    let len := wd64 w 6
    let old := tabFind f.bar2 e
    let foreign := match old with | some x => x.ctx != r.ctx | none => false
    if bitOf (wd w 0) 30 then
      checked s fn r
        [ reservedCheck [0x3FFFFFF0, 0xFFFFFFFF] w 0x16, (foreign, 0x12, atWord 0),
          (off % 2097152 != 0, 0x16, atWord 2), (dva % 2097152 != 0, 0x16, atWord 4),
          (len % 2097152 != 0 || len == 0, 0x16, atWord 6),
          (bar2Bytes f < off + len, 0x0240, atWord 2),
          (f.bar2.any fun x => x.1 != e && overlap off len x.2.off x.2.bytes, 0x0240, atWord 2),
          (2 ^ 48 < dva + len, 0x0240, atWord 4) ]
        (let win : Window := { ctx := r.ctx, dva, units := len / 2097152, writable := bitOf (wd w 0) 31, off }
         okReply (s.setFn fn { f with bar2 := tabSet f.bar2 e win }) fn r [])
    else
      checked s fn r
        [ reservedCheck [0x3FFFFFF0, 0xFFFFFFFF] w 0x16, (foreign, 0x12, atWord 0), (old.isNone, 0x0240, atWord 0) ]
        (okReply (s.setFn fn { f with bar2 := tabDel f.bar2 e }) fn r []))

/-! SVU programs. -/

/-- SVU_PROG_LOAD (R686, R687, R691). -/
def execSvuProgLoad (fn : Fin 9) (s : State) : Host.Outcome State Fault Refusal :=
  next (runOp s fn 0x0220 fun s r =>
    let n := bitsOf (wd r.payload 0) 6 0
    let prog := (r.payload.drop 2).take n
    let x := s.ctx r.ctx
    checked s fn r
      [ (n == 0 || 64 < n, 0x16, atWord 0), reservedCheck [0xFFFFFF80, 0xFFFFFFFF] r.payload 0x0220,
        ((prog.any svuWordBad), 0x0220, atWord (2 + (prog.findIdx? svuWordBad).getD 0)),
        (x.parts.any fun p => 2048 < (s.part p).svuWords + n, 0x17, noField) ]
      (match freshId s (fun h => (tabFind x.progs h).isSome) 1 65535 x.progs.length with
        | none => refuseMsg s fn r 0x17 noField
        | some (h, s1) =>
          let y := s1.ctx r.ctx
          let s2 := s1.setCtx r.ctx { y with progs := tabSet y.progs h prog }
          let s3 := y.parts.foldl (fun s p => s.setPart p { s.part p with svuWords := (s.part p).svuWords + n }) s2
          okReply (extendCmr s3 r.ctx 0x0220 (wordsBytes r.payload)) fn r [h]))

/-! HBM repair (R569, R680 to R685, R927). -/

/-- METHOD of a HBM_REPAIR payload. -/
def repMethod (w : List Nat) : Nat := bitsOf (wd w 0) 31 28
/-- Stack, pseudo-channel of the stack, bank group. -/
def repStack (w : List Nat) : Nat := bitsOf (wd w 0) 20 16
/-- Pseudo-channel 0–95 of the stack's partition. -/
def repPc (w : List Nat) : Nat := 32 * (repStack w % 3) + 2 * bitsOf (wd w 0) 15 12 + bitsOf (wd w 0) 8 8
/-- Key of a bank group of a pseudo-channel: stack-ID and bank group. -/
def repKey (w : List Nat) : Nat := 16 * repPc w + 4 * bitsOf (wd w 1) 25 24 + bitsOf (wd w 1) 23 22

/-- The counts left, as the reply's word gives them (R680). -/
def repLeft (h : Hbm) (w : List Nat) : Nat :=
  let k := repKey w
  let hd := Config.hardPpr - tabGet 0 h.hard k
  let sf := Config.softPpr - tabGet 0 h.soft k
  65536 * (hd % 256) + 256 * (sf % 256) + (4 - tabGet 0 h.spare (repPc w))

/-- Whether no resource of a method is left (R685). -/
def noSpare (h : Hbm) (w : List Nat) : Bool :=
  if repMethod w = 1 then Config.softPpr ≤ tabGet 0 h.soft (repKey w)
  else if repMethod w = 2 then Config.hardPpr ≤ tabGet 0 h.hard (repKey w)
  else if repMethod w = 3 then 4 ≤ tabGet 0 h.spare (repPc w)
  else false

/-- The checks of HBM_REPAIR. -/
def repChecks (s : State) (r : Req) : List (Bool × Nat × Nat) :=
  let w := r.payload
  [ (!allParts.any (fun p => (s.part p).inTest), 0x1A, noField),
    reservedCheck [0x07E00EFF, 0xFC0C0000] w 0x16,
    (4 ≤ repMethod w || (repMethod w != 1 && bitOf (wd w 0) 27) || 24 ≤ repStack w, 0x16, atWord 0),
    (bitsOf (wd w 1) 25 24 == 3, 0x16, atWord 1),
    (!(s.part (repStack w / 3)).inTest, 0x12, atWord 0),
    (noSpare (s.part (repStack w / 3)).hbm w, 0x0A10, noField) ]

/-- A repair begins; one at a time. -/
def beginRepair (s : State) (k : Nat) (r : Req) (kind : Nat) : State :=
  checked s k r (repChecks s r)
    (let b := beginOp s k r [repStack r.payload / 3] 0 0
     { b.1 with hbmOp := some ⟨b.2, kind, r.payload⟩ })

/-- Run a HBM_REPAIR of a method once no other repair runs. -/
def repairMsg (s : State) (k : Nat) (fits : Nat → Bool) (body : State → Req → State) : State :=
  runMsg s k 0x0A03 (fun r => fits (repMethod r.payload) && s.hbmOp.isNone) body

/-- HBM_REPAIR QUERY. -/
def execHbmRepairQuery (fn : Fin 9) (s : State) : Host.Outcome State Fault Refusal :=
  next (repairMsg s fn (fun m => m == 0 || 4 ≤ m) fun s r =>
    checked s fn r (repChecks s r) (okReply s fn r [repLeft (s.part (repStack r.payload / 3)).hbm r.payload]))

/-- HBM_REPAIR SOFT_PPR. -/
def execSoftPpr (fn : Fin 9) (s : State) : Host.Outcome State Fault Refusal :=
  next (repairMsg s fn (· == 1) fun s r => beginRepair s fn r 1)

/-- HBM_REPAIR HARD_PPR. -/
def execHardPpr (fn : Fin 9) (s : State) : Host.Outcome State Fault Refusal :=
  next (repairMsg s fn (· == 2) fun s r => beginRepair s fn r 2)

/-- HBM_REPAIR SPARE_ROW. -/
def execSpareRow (fn : Fin 9) (s : State) : Host.Outcome State Fault Refusal :=
  next (repairMsg s fn (· == 3) fun s r => beginRepair s fn r 3)

/-- Use up the resource of a repair; a spare row that took redirects the row (R682). -/
def useRepair (h : Hbm) (kind : Nat) (w : List Nat) (took : Bool) : Hbm :=
  let h1 := { h with touched := setIns h.touched (repStack w) }
  if kind = 1 then
    { h1 with soft := tabMod 0 h1.soft (repKey w) (· + 1),
              softKeep := if bitOf (wd w 0) 27 && took then tabMod 0 h1.softKeep (repKey w) (· + 1) else h1.softKeep }
  else if kind = 2 then { h1 with hard := tabMod 0 h1.hard (repKey w) (· + 1) }
  else
    { h1 with spare := tabMod 0 h1.spare (repPc w) (· + 1),
              redirect := if took then h1.redirect ++ [(repPc w, wd w 1)] else h1.redirect }

/-- The row that a repair names reads as zero, without error or poison (R681). -/
def zeroRow (h : Hbm) (p : Nat) (w : List Nat) : Hbm :=
  let key := repPc w * 2 ^ 32 + wd w 1 % 2 ^ 26
  let mine (line : Nat) : Bool := rowKey p line == key
  { h with
    mem := h.mem.filter fun c => !mine (c.1 / 64)
    poison := h.poison.filter fun l => !mine l
    ue := h.ue.filter fun l => !mine l
    ce := h.ce.filter fun l => !mine l }

/-- HBM_REPAIR_DONE (R680 to R685): the resource is used up, the repaired row reads as zero (R681), and the reply tells what is left
or that the repair failed. DEDUCED, log entry 65. -/
def execHbmRepairDone (took : Bool) (s : State) : Host.Outcome State Fault Refusal :=
  next (match s.hbmOp with
    | none => s
    | some o =>
      let p := repStack o.words / 3
      let P := s.part p
      let used := useRepair P.hbm o.kind o.words took
      let h := if took then zeroRow used p o.words else used
      let saved := if o.kind = 2 then tabDel s.saved (repStack o.words) else s.saved
      endOp { s.setPart p { P with hbm := h } with hbmOp := none, saved } o.op (if took then 0 else 0x0A11) [repLeft h o.words])

end Sys2Proof.Machine
end

