-- ==== Sys2Proof/Machine/SchedMsgs.lean ====
section
/-! DEFINITION. Messages of the schedule, the regulators and grace windows (R613 to R616, R619 to R622, R635, R646), of power
(R948, R965, R975, R976) and JOB_PATIENCE_SET (R1018). -/

namespace Sys2Proof.Machine

/-- A slot entry of SCHED_TABLE_SET. -/
def slotOf (w : Nat) : Slot := ⟨bitsOf w 31 30, bitsOf w 25 20, bitsOf w 19 0⟩

/-- Whether a slot entry breaks R621 for partition p: a reserved bit, KIND 3, a CTX that KIND 0 does not allow or another KIND
does not have, a duration out of range. -/
def slotBad (s : State) (p w : Nat) : Bool :=
  let x := slotOf w
  bitsOf w 29 26 != 0 || x.kind == 3 || x.us == 0 || 1000000 < x.us ||
    (if x.kind = 0 then !(s.ctxsOn p).contains x.ctx || x.ctx == 0 else x.ctx != 0)

/-- Sum of the durations of a table, in microseconds. -/
def frameUs (l : List Slot) : Nat := l.foldl (fun a x => a + x.us) 0

/-- SCHED_TABLE_SET (R619 to R622). DEDUCED, log entry 71. -/
def execSchedTableSet (fn : Fin 9) (s : State) : Host.Outcome State Fault Refusal :=
  next (runOp s fn 0x0701 fun s r =>
    let p := bitsOf (wd r.payload 0) 18 16
    let n := bitsOf (wd r.payload 0) 8 0
    let ws := (r.payload.drop 2).take n
    checked s fn r
      [ reservedCheck [0xFFF8FE00, 0xFFFFFFFF] r.payload 0x0701, (256 < n, 0x0701, atWord 0),
        (ws.any (slotBad s p), 0x0701, atWord (2 + (ws.findIdx? (slotBad s p)).getD 0)),
        (1000000 < frameUs (ws.map slotOf), 0x0701, noField) ]
      (okReply (s.setPart p { s.part p with schedNext := some (ws.map slotOf) }) fn r []))

/-- Resource, RATE and BURST of a REGULATOR_SET entry. -/
def regEntry (w : Nat) : Nat × Nat × Nat := (bitsOf w 31 24, bitsOf w 16 8, bitsOf w 6 0)

/-- Whether an entry breaks R614. -/
def regBad (w : Nat) : Bool :=
  let e := regEntry w
  11 ≤ e.1 || 256 < e.2.1 || e.2.2 == 0 || 64 < e.2.2 || (e.1 == 1 && e.2.1 == 0)

/-- REGULATOR_SET (R613 to R616): the settings wait for the next command boundary. -/
def execRegulatorSet (fn : Fin 9) (s : State) : Host.Outcome State Fault Refusal :=
  next (runOp s fn 0x0702 fun s r =>
    let p := bitsOf (wd r.payload 0) 18 16
    let n := bitsOf (wd r.payload 0) 3 0
    let ws := (r.payload.drop 1).take n
    checked s fn r
      [ reservedCheck (0xFFF8FFF0 :: ws.map fun _ => 0x00FE0080) r.payload 0x16,
        (n == 0 || 11 < n, 0x0702, atWord 0),
        (ws.any regBad, 0x0702, atWord (1 + (ws.findIdx? regBad).getD 0)),
        (decide ¬(ws.map fun w => (regEntry w).1).Nodup, 0x0702, noField) ]
      (let set (s : State) (w : Nat) : State :=
         let e := regEntry w
         s.setReg p e.1 { (s.part p).reg e.1 with next := some e.2 }
       okReply (boundaryIfIdle (ws.foldl set s) p) fn r []))

/-- PREEMPT_GRACE_SET (R635). -/
def execPreemptGraceSet (fn : Fin 9) (s : State) : Host.Outcome State Fault Refusal :=
  next (runOp s fn 0x0703 fun s r =>
    let p := bitsOf (wd r.payload 0) 18 16
    let g := wd r.payload 1
    checked s fn r [ reservedCheck [0xFFF8FFFF] r.payload 0x16, (10000 < g, 0x0701, atWord 1) ]
      (okReply (s.setPart p { s.part p with graceNext := some g }) fn r []))

/-- SCHED_QUERY (R646). -/
def execSchedQuery (fn : Fin 9) (s : State) : Host.Outcome State Fault Refusal :=
  next (runOp s fn 0x0704 fun s r =>
    let p := bitsOf (wd r.payload 0) 18 16
    let P := s.part p
    let l := P.sched.getD []
    checked s fn r [ (s.ownerOf p != fn.val, 0x12, atWord 0), reservedCheck [0xFFF8FFFF] r.payload 0x16 ]
      (okReply s fn r [l.length + 65536 * P.slot, P.graceUs, frameUs l, 0, P.frames % 2 ^ 32, P.frames / 2 ^ 32 % 2 ^ 32]))

/-! Power. -/

/-- The functions that exist (R597). -/
def liveFns (s : State) : List Nat := [0, 1, 2, 3, 4, 5, 6, 7, 8].filter s.fnLive

/-- MIN_LAT_US: the smallest tolerance of all functions (R975). DEDUCED, log entry 72. -/
def minLat (s : State) : Nat := (liveFns s).foldl (fun a k => min a (s.fn k).latUs) 0xFFFFFF

/-- PWR_STATUS. -/
def pwrStatus (s : State) : Nat :=
  allParts.foldl (fun a p => min a (s.part p).act) 4 * 2 ^ 29 + b2n (allParts.any fun p => (s.part p).duty < 16) * 2 ^ 28 +
    b2n s.power.capActive * 2 ^ 27 + b2n s.power.hold * 2 ^ 26 + allParts.foldl (fun a p => a + (s.part p).act * 2 ^ (3 * p)) 0

/-- PWR_LIMITS. -/
def pwrLimits (s : State) : Nat := s.power.capSteps * 2 ^ 24 + s.power.floorPct * 65536 + s.power.avgMw / 1000 % 65536

/-- PWR_MEASURE, 64 bits. -/
def pwrMeasure (s : State) : Nat :=
  let w := s.power
  w.inputMv % 65536 * 2 ^ 48 + w.input10ma % 65536 * 2 ^ 32 + w.powerW % 65536 * 65536 + w.e / 1000 % 65536

/-- PWR_THERMAL. -/
def pwrThermal (s : State) : Nat :=
  let w := s.power
  w.maxDieC % 256 * 2 ^ 24 + w.maxHbmC % 256 * 65536 + w.outletC % 256 * 256 + w.inletC % 256

/-- PWR_TOLERANCE. -/
def pwrTolerance (s : State) : Nat := b2n (s.fn 0).allowA4 * 2 ^ 31 + minLat s

/-- POWER_LATENCY_SET (R948): a lowered tolerance begins an A4 exit (R952). -/
def execPowerLatencySet (fn : Fin 9) (s : State) : Host.Outcome State Fault Refusal :=
  next (runOp s fn 0x0601 fun s r =>
    let w := wd r.payload 0
    let f := s.fn fn
    let l := bitsOf w 23 0
    checked s fn r [ reservedCheck [0x7F000000] r.payload 0x16, (bitOf w 31 && fn != 0, 0x12, atWord 0) ]
      (let s1 := s.setFn fn { f with latUs := l, allowA4 := bitOf w 31 }
       let s2 := if s.power.a4 && l < f.latUs then { s1 with power := { s1.power with a4Waking := true } } else s1
       okReply s2 fn r []))

/-- POWER_CAP_SET (R965). -/
def execPowerCapSet (fn : Fin 9) (s : State) : Host.Outcome State Fault Refusal :=
  next (runOp s fn 0x0602 fun s r =>
    let c := bitsOf (wd r.payload 0) 7 0
    checked s fn r
      [ reservedCheck [0xFFFFFF00] r.payload 0x0610, (c != 0 && (c < 40 || 160 < c), 0x0610, atWord 0) ]
      (okReply { s with power := { s.power with capSteps := if c = 0 then 160 else c } } fn r []))

/-- SLEW_FLOOR_SET (R965). -/
def execSlewFloorSet (fn : Fin 9) (s : State) : Host.Outcome State Fault Refusal :=
  next (runOp s fn 0x0603 fun s r =>
    let c := bitsOf (wd r.payload 0) 6 0
    checked s fn r [ reservedCheck [0xFFFFFF80] r.payload 0x0610, (70 < c, 0x0610, atWord 0) ]
      (okReply { s with power := { s.power with floorPct := c } } fn r []))

/-- POWER_QUERY (R976). -/
def execPowerQuery (fn : Fin 9) (s : State) : Host.Outcome State Fault Refusal :=
  next (runOp s fn 0x0604 fun s r =>
    okReply s fn r [pwrStatus s, pwrLimits s, pwrMeasure s % 2 ^ 32, pwrMeasure s / 2 ^ 32, pwrThermal s, pwrTolerance s,
                    (s.fn fn).latUs])

/-- JOB_PATIENCE_SET (R1018): the context becomes a member of the job. -/
def execJobPatienceSet (fn : Fin 9) (s : State) : Host.Outcome State Fault Refusal :=
  next (runOp s fn 0x0805 fun s r =>
    let ms := wd r.payload 1
    checked s fn r [ (600000 < ms, 0x16, atWord 1) ]
      (okReply (s.setCtx r.ctx { s.ctx r.ctx with job := wd r.payload 0, patienceMs := ms }) fn r []))

end Sys2Proof.Machine
end

