-- ==== Sys2Proof/Machine/Weights.lean ====
section
/-! DEFINITION. Weight images, loads, installs, drops and repairs of resident weights (R703 to R756). -/

namespace Sys2Proof.Machine

/-! Images (R707 to R714). -/

/-- Bytes of a payload chunk. -/
def chunkBytes : Nat := 1048576

/-- REGIONS. -/
def hdrRegions (h : List Nat) : Nat := bitsOf (wd h 1) 11 0

/-- PAYLOAD_BYTES. -/
def hdrPayload (h : List Nat) : Nat := wd64 h 4

/-- Chunks of the payload. -/
def hdrChunks (h : List Nat) : Nat := hdrPayload h / chunkBytes

/-- The size of the manifest that the header's fields give (R708). -/
def manifestSize (h : List Nat) : Nat := 48 * hdrRegions h + if hdrSigned h then 32 * hdrChunks h + 7856 else 0

/-- The image that header and manifest bytes spell. -/
def parseImage (bs : List Byte) : NvImage :=
  let h := bytesWords 16 bs
  let n := hdrRegions h
  let rest := bs.drop (64 + 48 * n)
  { header := h
    regions := (List.range n).map fun i => bytesWords 12 (bs.drop (64 + 48 * i))
    hashes := if hdrSigned h then (List.range (hdrChunks h)).map fun c => (rest.drop (32 * c)).take 32 else []
    sig := if hdrSigned h then (rest.drop (32 * hdrChunks h)).take 7856 else [] }

/-- The bytes that the signature covers (R709). -/
def imageSigned (m : NvImage) : List Byte := wordsBytes m.header ++ m.regions.flatMap wordsBytes ++ m.hashes.flatten

/-- Header and manifest as bytes. -/
def imageHead (m : NvImage) : List Byte := imageSigned m ++ m.sig

/-- A region is resident. -/
def regResident (r : List Nat) : Bool := !bitOf (wd r 0) 31
/-- PARTITION of a region. -/
def regPart (r : List Nat) : Nat := bitsOf (wd r 0) 2 0
/-- SRC_OFFSET. -/
def regSrc (r : List Nat) : Nat := wd64 r 2
/-- LENGTH. -/
def regLen (r : List Nat) : Nat := wd64 r 4
/-- DST_OFFSET. -/
def regDst (r : List Nat) : Nat := wd64 r 6

/-- A header that breaks its table (R707). -/
def hdrBad (h : List Nat) : Bool :=
  wd h 0 != 0x4C574731 || bitsOf (wd h 1) 31 24 != 1 || 2 ≤ bitsOf (wd h 1) 23 22 || bitsOf (wd h 1) 21 12 != 0 ||
  hdrRegions h == 0 || hdrPayload h % chunkBytes != 0 || 2 ^ 41 < hdrPayload h || wd h 10 != manifestSize h ||
  (h.drop 11).any (· != 0)

/-- A region entry that breaks its table or leaves the payload (R710, R730). -/
def regBadEntry (h r : List Nat) : Bool :=
  bitsOf (wd r 0) 29 3 != 0 || regSrc r % chunkBytes != 0 || regLen r == 0 || hdrPayload h < regSrc r + regLen r ||
  (if regResident r then regDst r % 65536 != 0 else regDst r != 0)

/-- Two resident regions of one partition overlap in the window. -/
def regsOverlap : List (List Nat) → Bool
  | [] => false
  | r :: l =>
    (regResident r && l.any fun q => regResident q && regPart q == regPart r && overlap (regDst r) (regLen r) (regDst q) (regLen q)) ||
      regsOverlap l

/-- The image itself is not acceptable (R730). -/
def imageBad (m : NvImage) : Bool :=
  hdrBad m.header || m.regions.any (regBadEntry m.header) || regsOverlap m.regions

/-- KEY_CHECK differs from the check value of key k (R707, R730). -/
def keyMismatch (m : NvImage) (k : List Byte) : Bool := leNat ((Config.sha256 (k ++ [4])).take 8) != wd64 m.header 8

/-- Plaintext of a transit shard (R712, R713). -/
def openShard (m : NvImage) (k : List Byte) (c : Nat) (shard : List Byte) : Option (List Byte) :=
  if shard.length ≠ shardBytes then none
  else Config.gcmOpen (Config.sha256 (k ++ [3])) (natLe 8 (wd64 m.header 6) ++ natLe 4 c) [] shard

/-- Ciphertext of a chunk as the weight store holds it (R714). -/
def sealChunk (k : List Byte) (c : Nat) (plain : List Byte) : List Byte :=
  (List.range 256).flatMap fun j => Config.xtsEncrypt (xtsKey k) (256 * c + j) ((plain.drop (4096 * j)).take 4096)

/-- 2 MiB frames that a generation needs on partition p (R724). -/
def framesFor (m : NvImage) (p : Nat) : Nat :=
  m.regions.foldl (fun a r => if regResident r && regPart r = p then max a ((regDst r + regLen r + 2097151) / 2097152) else a) 0

/-- Chunks that a LOAD from the weight store reads: those of resident regions (R732). -/
def residentChunks (m : NvImage) : List Nat :=
  (List.range (hdrChunks m.header)).filter fun c =>
    m.regions.any fun r => regResident r && overlap (regSrc r) (regLen r) (chunkBytes * c) chunkBytes

/-- Write the bytes of chunk c that lie in region r to the frames `units` of partition p (R711). -/
def writeRegion (s : State) (p : Nat) (units : List Nat) (r : List Nat) (c : Nat) (plain : List Byte) : State :=
  let a := max (regSrc r) (chunkBytes * c)
  let b := min (regSrc r + regLen r) (chunkBytes * (c + 1))
  let o := regDst r + (a - regSrc r)
  let bs := (plain.drop (a - chunkBytes * c)).take (b - a)
  (pieces o (b - a)).foldl (fun s x => writeLine s p (genDpa units x.1) (good ((bs.drop (x.1 - o)).take x.2))) s

/-- Write chunk c to every resident region that holds a part of it. -/
def writeChunk (s : State) (m : NvImage) (units : Tab (List Nat)) (c : Nat) (plain : List Byte) : State :=
  m.regions.foldl (fun s r =>
    if regResident r && overlap (regSrc r) (regLen r) (chunkBytes * c) chunkBytes then
      writeRegion s (regPart r) (tabGet [] units (regPart r)) r c plain
    else s) s

/-! Keys (R715 to R717). -/

/-- The content key that a payload of WEIGHT_KEY_IMPORT wraps: 1,568 bytes of ML-KEM ciphertext, then the wrapped key and its tag,
which AES-256-GCM opens under the shared secret with a zero nonce and the module serial number as associated data (R715, R716). -/
def unwrapKey (serial : Nat) (w : List Nat) : Option (List Byte) :=
  let bs := wordsBytes (w.drop 2)
  Config.gcmOpen (Config.kemDecap (bs.take 1568)) (List.replicate 12 0) (natLe 8 serial) ((bs.drop 1568).take 48)

/-- WEIGHT_KEY_IMPORT. -/
def execWeightKeyImport (fn : Fin 9) (s : State) : Host.Outcome State Fault Refusal :=
  next (runOp s fn 0x0501 fun s r =>
    let h := bitsOf (wd r.payload 0) 3 0
    let key := unwrapKey s.sec.serial r.payload
    checked s fn r [ reservedCheck [0xFFFFFFF0, 0xFFFFFFFF] r.payload 0x16, (key.isNone, 0x0541, noField) ]
      (let x := s.ctx r.ctx
       okReply (settleKeys (s.setCtx r.ctx { x with keysNext := tabSet x.keysNext h (key.getD []) }) r.ctx) fn r []))

/-! Loads. -/

/-- SOURCE. -/
def wSource (w : List Nat) : Nat := bitsOf (wd w 0) 30 29
/-- BINDING. -/
def wBinding (w : List Nat) : Nat := bitsOf (wd w 0) 19 16
/-- SHARD_TIMEOUT in counts; 0 means 2,000 ms. -/
def wTimeout (w : List Nat) : Nat :=
  let t := bitsOf (wd w 5) 31 16
  us (1000 * if t = 0 then 2000 else t)

/-- The image that a load names: from the weight store, or as the source returned header and manifest. -/
def namedImage (s : State) (w : List Nat) (image : HostRd) : Option NvImage :=
  if wSource w = 0 then tabFind s.nvws.images (wd w 2 % 65536)
  else
    match image with
    | .data bs => if bs.length < 64 || bs.length < 64 + wd (bytesWords 16 bs) 10 then none else some (parseImage bs)
    | _ => none

/-- A reserved field or an unused field of the request (R728). -/
def wFields (s : State) (c : Nat) (w : List Nat) : List (Bool × Nat × Nat) :=
  let src := wSource w
  let conn := tabFind s.conns (wd w 4)
  [ reservedCheck [0x0FF00F00, 0, 0, 0, 0, 0x0000FFFF] w 0x0540,
    (src == 3, 0x0540, atWord 0), (src == 0 && (wd w 2 / 65536 != 0 || wd w 3 != 0), 0x0540, atWord 2),
    (if src = 2 then (match conn with | some k => k.ctx != c || k.st != .ready | none => true) else wd w 4 != 0, 0x0540, atWord 4) ]

/-- The checks of the image that LOAD and INSTALL share, with the signature (R720, R721, R730). -/
def imageChecks (m : NvImage) (key : Option (List Byte)) (w : List Nat) : List (Bool × Nat × Nat) :=
  let pk := wordsBytes ((w.drop 10).take 8)
  [ (imageBad m, 0x0540, noField),
    (match key with | some k => keyMismatch m k | none => true, 0x0540, atWord 0),
    (!hdrSigned m.header && pk.any (· != 0), 0x0540, atWord 10),
    (hdrSigned m.header && !Config.slhVerify pk (imageSigned m) m.sig, 0x0543, noField) ]

/-- The engine reads header and manifest before it judges them (R730): of an image at an Ethernet peer by READ requests, the second one
for the bytes that the first has told (R733). -/
def askHead (s : State) (c : Nat) (w : List Nat) (before : List (Bool × Nat × Nat)) (image : HostRd) : State :=
  if wSource w != 2 || before.any (·.1) then s
  else
    let s1 := askPeer s c (wd w 4) (wd64 w 2) 64
    match image with
    | .data bs => if bs.length < 64 then s1 else askPeer s1 c (wd w 4) (wd64 w 2 + 64) (wd (bytesWords 16 bs) 10)
    | _ => s1

/-- What a LOAD adds to the checks (R722, R723, R730, R732). DEDUCED, log entry 67. -/
def loadChecks (s : State) (c : Nat) (m : NvImage) (w : List Nat) : List (Bool × Nat × Nat) :=
  let x := s.ctx c
  let B := tabFind x.bindings (wBinding w)
  let win := wd64 w 6
  let span := wd64 w 8
  let gen := wd w 1
  let old := match B with | some b => b.gens | none => []
  let fresh := B.isNone && x.parts.any fun p => meetsMap x (win + p * span) span
  [ (m.regions.any fun r => !x.parts.contains (regPart r) || !bitOf (wd w 0) (regPart r), 0x0540, noField),
    (m.regions.any fun r => regResident r && span < regDst r + regLen r, 0x0540, atWord 8),
    (win % 2097152 != 0, 0x0540, atWord 6), (span % 2097152 != 0, 0x0540, atWord 8),
    (match B with | some b => b.window != win | none => fresh, 0x0540, atWord 6),
    (match B with | some b => b.span != span | none => false, 0x0540, atWord 8),
    (gen == 0 || (tabFind old gen).isSome || 4 ≤ old.length, 0x0540, atWord 1),
    (wSource w != 0 && m.regions.any fun r => !regResident r, 0x0540, noField) ]

/-- Free 2 MiB frames of partition p. -/
def freeFrames (s : State) (p : Nat) : Nat :=
  ((List.range 33820).filter fun f => (freeUnits (s.part p).hbm.used f).length == 32).length

/-- Loads that run on the module (R731). -/
def loadsRun (s : State) : Nat := s.loads.length

/-- Take the frames of a generation on each partition (R724). -/
def takeFrames (s : State) (m : NvImage) (ps : List Nat) : Tab (List Nat) × State :=
  ps.foldl (fun a p =>
    let n := framesFor m p
    if n = 0 then a
    else
      let f := a.2.takeFree
      let P := f.2.part p
      let units := (pickPages P.hbm.used f.1 true 3 n).flatMap (pageUnits true)
      (tabSet a.1 p units, f.2.setPart p { P with hbm := { P.hbm with used := setInsAll P.hbm.used units } })) ([], s)

/-- Enter a running load (R728, R732); of an Ethernet peer all its shards are asked for (R733; DEDUCED, log entry 68). -/
def enterLoad (s : State) (k : Nat) (r : Req) (m : NvImage) (key : List Byte) (handle : Nat) (todo parts : List Nat) : State :=
  let b := beginOp s k r parts 0 0
  let l : Load := { op := b.2, ctx := r.ctx, words := r.payload, key, image := m, todo, reqAt := s.hub, handle }
  let s1 := { b.1 with loads := tabSet b.1.loads b.1.nextLoad l, nextLoad := b.1.nextLoad + 1 }
  if wSource l.words != 2 then s1
  else todo.foldl (fun s c => askShard s l.ctx (wd l.words 4) (wd64 l.words 2) m.header c) s1

/-- A LOAD that has passed its checks begins: the generation is LOADING with its frames. -/
def beginLoad (s : State) (k : Nat) (r : Req) (m : NvImage) (key : List Byte) : State :=
  let w := r.payload
  let x := s.ctx r.ctx
  let B := tabGet { window := wd64 w 6, span := wd64 w 8 } x.bindings (wBinding w)
  let f := takeFrames s m x.parts
  let g : WGen := { st := .loading, header := m.header, regions := m.regions, hashes := m.hashes,
                    image := if wSource w = 0 then wd w 2 % 65536 else 0, key, srcKind := wSource w, srcAddr := wd64 w 2,
                    conn := wd w 4, units := f.1 }
  let s1 := f.2.setCtx r.ctx { x with bindings := tabSet x.bindings (wBinding w) { B with gens := tabSet B.gens (wd w 1) g } }
  enterLoad s1 k r { m with chunks := [], bad := [] } key 0
    (if wSource w = 0 then residentChunks m else List.range (hdrChunks m.header)) (f.1.map (·.1))

/-- The partitions that PART_MASK names (R600, R1107). -/
def wParts (s : State) (k c : Nat) (w : List Nat) : List (Bool × Nat × Nat) :=
  let ps := maskParts (wd w 0 % 256)
  [ (ps.any fun p => s.ownerOf p != k, 0x12, atWord 0), (ps.any fun p => !(s.ctx c).parts.contains p, 0x0540, atWord 0) ]

/-- WEIGHT_LOAD with OP 0 (R728 to R733). DEDUCED, log entry 66. -/
def execWeightLoad (fn : Fin 9) (image : HostRd) (s : State) : Host.Outcome State Fault Refusal :=
  next (runMsg s fn 0x0502 (fun r => !bitOf (wd r.payload 0) 31) fun s r =>
    let w := r.payload
    let x := s.ctx r.ctx
    let key := tabFind x.keys (bitsOf (wd w 0) 15 12)
    let first := wParts s fn r.ctx w ++ wFields s r.ctx w
    let s := askHead s r.ctx w first image
    match namedImage s w image with
    | none => checked s fn r first (refuseMsg s fn r 0x0540 (atWord 2))
    | some m =>
      let old := match tabFind x.bindings (wBinding w) with | some b => b.gens | none => []
      checked s fn r (first ++ loadChecks s r.ctx m w ++ imageChecks m key w ++
        [ (x.parts.any fun p => freeFrames s p < framesFor m p, 0x0542, noField),
          (old.any (fun e => e.2.st == .loading) || 4 ≤ loadsRun s, 0x0546, noField) ])
        (beginLoad s fn r m (key.getD [])))

/-- Chunks that an image with chunk 0 on stack s0 puts on stack k (R703). -/
def stackChunks (n s0 k : Nat) : Nat := ((List.range n).filter fun c => (c + s0) % 4 == k).length

/-- The stack of chunk 0 of a new image: one from which the chunks fit, the spec does not say which (DESIGN CHOICE, log entry 3). -/
def pickStack (v : Nvws) (n k : Nat) : Option Nat :=
  ([0, 1, 2, 3].map fun i => (k + i) % 4).find? fun s0 => [0, 1, 2, 3].all fun j => tabGet 0 v.used j + stackChunks n s0 j ≤ 1900000

/-- INSTALL: WEIGHT_LOAD with OP 1 (R729, R731, R739). -/
def execInstall (fn : Fin 9) (image : HostRd) (s : State) : Host.Outcome State Fault Refusal :=
  next (runMsg s fn 0x0502 (fun r => bitOf (wd r.payload 0) 31) fun s r =>
    let w := r.payload
    let key := tabFind (s.ctx r.ctx).keys (bitsOf (wd w 0) 15 12)
    let perm : List (Bool × Nat × Nat) := [ (fn != 0 || (wSource w != 1 && wSource w != 2), 0x12, atWord 0) ]
    let first := wParts s fn r.ctx w ++ perm ++ wFields s r.ctx w
    let s := askHead s r.ctx w first image
    match namedImage s w image with
    | none => checked s fn r first (refuseMsg s fn r 0x0540 (atWord 2))
    | some m =>
      let f := s.takeFree
      let n := hdrChunks m.header
      let inst := s.loads.filter fun e => bitOf (wd e.2.words 0) 31
      checked s fn r (first ++ [ (wd w 1 != 0, 0x0540, atWord 1) ] ++ imageChecks m key w ++
        [ (256 ≤ s.nvws.images.length + inst.length || (pickStack s.nvws n f.1).isNone, 0x0548, noField),
          (4 ≤ loadsRun s, 0x0546, noField) ])
        (let s0 := (pickStack s.nvws n f.1).getD 0
         let taken (h : Nat) : Bool := (tabFind s.nvws.images h).isSome || inst.any fun e => e.2.handle == h
         match freshId f.2 taken 1 65535 (s.nvws.images.length + inst.length) with
         | none => refuseMsg s fn r 0x0548 noField
         | some (h, s1) =>
           let used := [0, 1, 2, 3].foldl (fun t j => tabMod 0 t j (· + stackChunks n s0 j)) s1.nvws.used
           enterLoad { s1 with nvws := { s1.nvws with used } } fn r { m with s0 } (key.getD []) h (List.range n) []))

/-- What a failing reply holds: the chunk index at 0x0C; its other words are not given (R736, log entry 3). -/
def failPayload (s : State) (l : Load) (chunk : Nat) : List Nat × State :=
  let a := s.takeFree
  let b := a.2.takeFree
  ([a.1 % 2 ^ 32, l.rereads, b.1 % 2 ^ 32, chunk], b.2)

/-- A load fails (R736, R737). -/
def failLoad (s : State) (n : Nat) (l : Load) (status chunk : Nat) : State :=
  let f := failPayload s l chunk
  settleKeys (endOp (cancelLoad f.2 n) l.op status f.1) l.ctx

/-- Generation, or image handle of an install, for event data (R758). -/
def loadName (l : Load) : Nat := if bitOf (wd l.words 0) 31 then l.handle else wd l.words 1

/-- The bytes of chunk c that belong to partition p. -/
def chunkShare (m : NvImage) (p c : Nat) : Nat :=
  m.regions.foldl (fun a r =>
    if regResident r && regPart r = p then
      a + (min (regSrc r + regLen r) (chunkBytes * (c + 1)) - max (regSrc r) (chunkBytes * c))
    else a) 0

/-- Count a chunk that has come, whether good or corrupt, on the regulators of the partitions that take part of it (R607, R733). Of an
install no partition takes part. -/
def chargeLoad (s : State) (l : Load) (c : Nat) : State :=
  let k := if wSource l.words = 0 then 10 else if wSource l.words = 1 then 8 else 9
  if bitOf (wd l.words 0) 31 then s
  else
  (s.ctx l.ctx).parts.foldl (fun s p => charge s p k (chunkShare l.image p c)) s

/-- Wear of a stack in per mille of its endurance: 2,000 full writes of 2 TB (R706, R743).
DESIGN CHOICE, log entry 70. -/
def wearOf (v : Nvws) (k : Nat) : Nat := tabGet 0 v.writes k * chunkBytes * 1000 / (2000 * 2000000000000)

/-- Store a chunk of an install (R706, R739). -/
def installChunk (s : State) (n : Nat) (l : Load) (c : Nat) (plain : List Byte) : State :=
  let k := (c + l.image.s0) % 4
  let v := { s.nvws with writes := tabMod 0 s.nvws.writes k (· + 1) }
  let worn := 800 ≤ wearOf v k && !v.worn.contains k
  let m := { l.image with chunks := tabSet l.image.chunks c (sealChunk l.key c plain) }
  let s1 := { s with nvws := if worn then { v with worn := setIns v.worn k } else v,
                     loads := tabSet s.loads n { l with image := m, todo := setDel l.todo c } }
  if worn then logEvent s1 { code := 0x12B5, data := [l.ctx, wBinding l.words, l.handle, c] } else s1

/-- The frames of the generation that load l fills. -/
def loadUnits (s : State) (l : Load) : Tab (List Nat) :=
  match tabFind (tabGet {} (s.ctx l.ctx).bindings (wBinding l.words)).gens (wd l.words 1) with
  | some g => g.units
  | none => []

/-- What arrived for chunk c of load l, decrypted and checked; none where the shard is corrupt (R719, R720, R735). -/
def shardPlain (s : State) (l : Load) (c : Nat) (shard : Option (List Byte)) : Option (List Byte) :=
  let got : Option (List Byte) :=
    match shard with
    | none => none
    | some bs =>
      if wSource l.words = 0 then
        match tabFind s.nvws.images (wd l.words 2 % 65536) with
        | some m => some (openChunk l.key c (tabGet [] m.chunks c))
        | none => none
      else openShard l.image l.key c bs
  match got with
  | some plain => if chunkOk l.image.header l.image.hashes c plain then some plain else none
  | none => none

/-- A read response of load l's connection has come: its count of retransmissions starts again (R878). -/
def shardAnswered (s : State) (l : Load) : State :=
  if wSource l.words != 2 then s
  else
    match tabFind s.conns (wd l.words 4) with
    | some c => { s with conns := tabSet s.conns (wd l.words 4) { c with retries := 0, sentAt := s.hub } }
    | none => s

/-- A corrupt shard is read again, up to two more times; then the load fails (R735, R736). -/
def rereadShard (s : State) (n : Nat) (l : Load) (c : Nat) : State :=
  let t := tabGet 0 l.tries c
  if 2 ≤ t then failLoad s n l 0x0544 c
  else
    let l1 := { l with tries := tabSet l.tries c (t + 1), rereads := l.rereads + 1, reReq := tabSet l.reReq c s.hub }
    let s1 := { s with loads := tabSet s.loads n l1 }
    let s2 := if wSource l.words = 2 then askShard s1 l.ctx (wd l.words 4) (wd64 l.words 2) l.image.header c else s1
    logEvent s2 { code := 0x12B0, ctx := l.ctx, data := [l.ctx, wBinding l.words, loadName l, c] }

/-- WEIGHT_SHARD_ARRIVAL (R719, R720, R732 to R736, R739). Of a load from the weight store the chunk stands in the state, and
`shard` only tells whether the media read passed (R705). -/
def execWeightShardArrival (load chunk : Nat) (shard : Option (List Byte)) (s0 : State) : Host.Outcome State Fault Refusal :=
  next (match tabFind s0.loads load with
    | none => s0
    | some l =>
      if !l.todo.contains chunk then s0
      else
        let s := chargeLoad (shardAnswered s0 l) l chunk
        gate s0 (match shardPlain s l chunk shard with
          | none => rereadShard s load l chunk
          | some plain =>
            if bitOf (wd l.words 0) 31 then installChunk s load l chunk plain
            else
              let s1 := writeChunk s l.image (loadUnits s l) chunk plain
              { s1 with loads := tabSet s1.loads load { l with todo := setDel l.todo chunk } }))

/-- WEIGHT_SHARD_TIMEOUT (R736). DEDUCED, log entry 68. -/
def execWeightShardTimeout (load chunk : Nat) (s : State) : Host.Outcome State Fault Refusal :=
  next (match tabFind s.loads load with
    | none => s
    | some l =>
      if l.todo.contains chunk && tabGet l.reqAt l.reReq chunk + wTimeout l.words ≤ s.hub then failLoad s load l 0x0545 chunk else s)

/-- The generation of load l becomes LOADED, and is bound where BIND_IF_EMPTY asks for it (R738). -/
def finishGen (s : State) (l : Load) : State :=
  let b := wBinding l.words
  let g := wd l.words 1
  let x := s.ctx l.ctx
  let B := tabGet {} x.bindings b
  let B1 := { B with gens := tabMap B.gens fun k w => if k = g then { w with st := .loaded } else w }
  let s1 := s.setCtx l.ctx { x with bindings := tabSet x.bindings b B1 }
  if bitOf (wd l.words 0) 28 then
    bindWindows s1 l.ctx b g (x.parts.filter fun p => boundGen x b p == 0)
  else s1

/-- WEIGHT_LOAD_COMPLETE (R717, R738, R739, R1049). The state word of an install and the handle word of a load are not given: free
values (log entry 3). -/
def execWeightLoadComplete (load : Nat) (s : State) : Host.Outcome State Fault Refusal :=
  next (match tabFind s.loads load with
    | none => s
    | some l =>
      if l.todo != [] then s
      else
        let inst := bitOf (wd l.words 0) 31
        let s1 := { s with loads := tabDel s.loads load }
        let nv := { s1.nvws with images := tabSet s1.nvws.images l.handle l.image }
        let s2 := if inst then { s1 with nvws := nv } else finishGen s1 l
        let s3 := extendCmr s2 l.ctx 0x0502 (wordsBytes l.words ++ imageHead l.image)
        let f := s3.takeFree
        let other := f.1 % 2 ^ 32
        let pay := if inst then [other, l.rereads, l.handle, 0xFFFFFFFF] else [Config.genStateWord 1, l.rereads, other, 0xFFFFFFFF]
        settleKeys (endOp f.2 l.op 0 pay) l.ctx)

/-! Drops. -/

/-- Change generation g of binding b. -/
def modGen (s : State) (c b g : Nat) (f : WGen → WGen) : State :=
  let x := s.ctx c
  let B := tabGet {} x.bindings b
  s.setCtx c { x with bindings := tabSet x.bindings b { B with gens := tabMap B.gens fun k w => if k = g then f w else w } }

/-- Generation g of binding b of context c. -/
def genOf (s : State) (c b g : Nat) : Option WGen :=
  match tabFind (s.ctx c).bindings b with
  | some B => tabFind B.gens g
  | none => none

/-- The running load that fills generation g of binding b. -/
def loadFor (s : State) (c b g : Nat) : Option (Nat × Load) :=
  s.loads.find? fun e => e.2.ctx == c && !bitOf (wd e.2.words 0) 31 && wBinding e.2.words == b && wd e.2.words 1 == g

/-- Reserved bits of WEIGHT_DROP. -/
def dropReserved (r : Req) : Bool × Nat × Nat := reservedCheck [0x7FF0FFFF] r.payload 0x0540

/-- WEIGHT_DROP of a generation (R740, R741): a LOADING one is cancelled, another goes to DROPPING.
DEDUCED, log entry 69. -/
def execWeightDrop (fn : Fin 9) (s : State) : Host.Outcome State Fault Refusal :=
  next (runMsg s fn 0x0503 (fun r => !bitOf (wd r.payload 0) 31) fun s r =>
    let b := bitsOf (wd r.payload 0) 19 16
    let g := wd r.payload 1
    let w := genOf s r.ctx b g
    checked s fn r
      [ dropReserved r, (match w with | some w => w.st == .dropping | none => true, 0x0540, atWord 1) ]
      (match loadFor s r.ctx b g with
        | some (n, l) =>
          okReply (settleKeys (endOp (cancelLoad s n) l.op 0x0547 []) r.ctx) fn r []
        | none =>
          let bound := match w with | some w => w.bound | none => []
          let on := match w with | some w => setInsAll (w.units.map (·.1)) w.bound | none => []
          let s1 := (beginOp s fn r on 0 0).1
          let s2 := modGen s1 r.ctx b g fun w => { w with st := .dropping, unbinding := w.bound }
          bound.foldl boundaryIfIdle s2))

/-- A node that has not resolved holds generation g of binding b: it latched the generation (R727), or a mapping version at which
the window mapped the generation's frames (R660). -/
def genHeld (s : State) (c b g : Nat) (units : Tab (List Nat)) : Bool :=
  (allParts.any fun p => (s.part p).insts.any fun e =>
    e.2.ctx == c && !e.2.st.resolved && tabFind e.2.bindings b == some g) ||
  latchedMap s c fun m => m.handle == 0 && m.units != [] && tabGet [] units m.part == m.units

/-- WEIGHT_DROP_COMPLETE of a drop that has not been stopped (R572): once the generation is unbound and nothing holds it, its frames are zeroed and freed (R741). -/
def execWeightDropComplete (ctx : Fin 64) (binding : Fin 16) (generation : Nat) (s : State) : Host.Outcome State Fault Refusal :=
  next (match genOf s ctx binding generation with
    | none => s
    | some w =>
      let mine (e : Nat × LongOp) : Bool := e.2.opcode == 0x0503 && e.2.ctx == ctx.val && !bitOf (wd e.2.payload 0) 31 &&
        bitsOf (wd e.2.payload 0) 19 16 == binding.val && wd e.2.payload 1 == generation
      match s.ops.find? mine with
      | none => s
      | some e =>
      if w.st != .dropping || w.bound != [] || genHeld s ctx binding generation w.units then s
      else
        let s1 := w.units.foldl (fun s e => zeroUnits s e.1 e.2) s
        let x := s1.ctx ctx
        let B := tabGet {} x.bindings binding
        let s2 := s1.setCtx ctx { x with bindings := tabSet x.bindings binding { B with gens := tabDel B.gens generation } }
        let s3 := { s2 with repairs := s2.repairs.filter fun r =>
                      !(r.ctx == ctx.val && r.binding == binding.val && r.gen == generation) }
        endOp s3 e.1 0 [])

/-- A streamed COPY of image h that has been dispatched and has not committed (R742). -/
def streamsImage (s : State) (h : Nat) : Bool :=
  allParts.any fun p => (s.part p).insts.any fun e =>
    e.2.ty == 1 && e.2.srcKind == 2 && (e.2.st == .running || (e.2.st == .ready && e.2.rerun)) &&
      (match streamOf s e.2 with | some x => x.1 == h | none => false)

/-- A load, a stream or a repair reads image h (R742). -/
def imageBusy (s : State) (h : Nat) : Bool :=
  streamsImage s h ||
  s.loads.any (fun e => !bitOf (wd e.2.words 0) 31 && wSource e.2.words == 0 && wd e.2.words 2 % 65536 == h) ||
    s.repairs.any fun r => match genOf s r.ctx r.binding r.gen with | some w => w.image == h | none => false

/-- NVWS_IMAGE_ERASE: WEIGHT_DROP with TARGET 1 (R729, R740, R742). -/
def execNvwsImageErase (fn : Fin 9) (s : State) : Host.Outcome State Fault Refusal :=
  next (runMsg s fn 0x0503 (fun r => bitOf (wd r.payload 0) 31) fun s r =>
    let h := wd r.payload 1
    let m := tabFind s.nvws.images h
    checked s fn r
      [ (fn != 0, 0x12, noField), dropReserved r, (m.isNone, 0x0540, atWord 1), (imageBusy s h, 0x0546, atWord 1) ]
      (match m with
        | none => s
        | some m =>
          let n := hdrChunks m.header
          let used := [0, 1, 2, 3].foldl (fun t j => tabMod 0 t j (· - stackChunks n m.s0 j)) s.nvws.used
          let ctxs := tabMap s.ctxs fun _ x => { x with bindings := tabMap x.bindings fun _ B =>
            { B with gens := tabMap B.gens fun _ w => if w.image = h then { w with image := 0 } else w } }
          okReply { s with ctxs, nvws := { s.nvws with images := tabDel s.nvws.images h, used } } fn r []))

/-- Place of a generation state in the table of R725. -/
def genCode : GenSt → Nat
  | .loading => 0 | .loaded => 1 | .dropping => 2 | .damaged => 3

/-- What WEIGHT_QUERY tells: for each binding its window and generations, for each stack its free chunks and wear (R743). -/
def weightInfo (s : State) (c : Nat) : List Nat :=
  ((s.ctx c).bindings.flatMap fun b =>
    [b.1, b.2.window, b.2.span, b.2.gens.length] ++
      b.2.gens.flatMap fun g => [g.1, Config.genStateWord (genCode g.2.st), g.2.bound.foldl (fun a p => a + 2 ^ p) 0]) ++
  [0, 1, 2, 3].flatMap fun k => [1900000 - tabGet 0 s.nvws.used k, wearOf s.nvws k]

/-- WEIGHT_QUERY (R743): the layout of the reply is not given. -/
def execWeightQuery (fn : Fin 9) (s : State) : Host.Outcome State Fault Refusal :=
  next (runOp s fn 0x0504 fun s r => okReply s fn r (Config.weightQueryWords (weightInfo s r.ctx)))

/-! Repair of resident weights (R752 to R754), reload (R755). -/

/-- The bytes of payload range [a, a + n), from plaintext chunks. -/
def fromChunks (chunk : Nat → Option (List Byte)) (a n : Nat) : Option (List Byte) :=
  (chunksOf a n).foldl (fun acc c =>
    match acc, chunk c with
    | some bs, some plain =>
      let lo := max a (chunkBytes * c)
      let hi := min (a + n) (chunkBytes * (c + 1))
      some (bs ++ (plain.drop (lo - chunkBytes * c)).take (hi - lo))
    | _, _ => none) (some [])

/-- A chunk of generation w from the weight store, checked by the image's mode. -/
def storedChunk (s : State) (w : WGen) (c : Nat) : Option (List Byte) :=
  match tabFind s.nvws.images w.image with
  | none => none
  | some m =>
    let plain := openChunk w.key c (tabGet [] m.chunks c)
    if chunkOk w.header w.hashes c plain then some plain else none

/-- A chunk of generation w from the shards that its source sent again: those of the chunks `cs`, in order. -/
def sentChunk (w : WGen) (cs : List Nat) (bs : List Byte) (c : Nat) : Option (List Byte) :=
  let i := (cs.findIdx? (· == c)).getD 0
  match openShard { header := w.header, regions := w.regions, hashes := w.hashes } w.key c ((bs.drop (shardBytes * i)).take shardBytes) with
  | some plain => if chunkOk w.header w.hashes c plain then some plain else none
  | none => none

/-- The clean bytes of the lines [lo, hi) of the window part, from the region that covers offset `off`: a byte beyond the
region is 0 (R724). -/
def repairBytes (w : WGen) (p off lo hi : Nat) (chunk : Nat → Option (List Byte)) : Option (List Byte) :=
  match w.regions.find? fun r => regResident r && regPart r == p && regDst r ≤ off && off < regDst r + regLen r with
  | none => some (List.replicate (hi - lo) 0)
  | some r =>
    let top := min hi (regDst r + regLen r)
    (fromChunks chunk (regSrc r + (lo - regDst r)) (top - lo)).map fun bs => bs ++ List.replicate (hi - top) 0

/-- Abandon the re-runs that a damaged generation left (R754). -/
def abandonDamaged (s : State) : State :=
  allParts.foldl (fun s p =>
    ((s.part p).insts.filter fun e => e.2.st == .ready && e.2.rerun && e.2.noRerun).foldl (fun s e => abandon s p e.1 .failed) s) s

/-- WEIGHT_REPAIR_COMPLETE: the oldest pending repair of the generation ends (R753, R754). `src` is `error` where the source, or
the weight store's media, failed; for a host or peer source it holds the shards of the touched chunks, in order. -/
def execWeightRepairComplete (ctx : Fin 64) (binding : Fin 16) (generation : Nat) (src : HostRd) (s : State) :
    Host.Outcome State Fault Refusal :=
  next (match s.repairs.find? fun r => r.ctx == ctx.val && r.binding == binding.val && r.gen == generation with
    | none => s
    | some r =>
      match genOf s ctx binding generation with
      | none => s
      | some w =>
        let lo := r.off / 64 * 64
        let hi := (r.off + r.len + 63) / 64 * 64
        let c := chunkAt w r.part r.off
        let chunk (k : Nat) : Option (List Byte) :=
          match src with
          | .data bs => if w.srcKind = 0 then storedChunk s w k else sentChunk w ((List.range 2).map (c + ·)) bs k
          | _ => none
        match repairBytes w r.part r.off lo hi chunk with
        | none => abandonDamaged (damageGen s ctx binding generation c)
        | some bs =>
          let units := tabGet [] w.units r.part
          let s1 := (pieces lo (hi - lo)).foldl (fun s x =>
            writeLine s r.part (genDpa units x.1) (good ((bs.drop (x.1 - lo)).take x.2))) s
          logEvent { s1 with repairs := s1.repairs.erase r }
            { code := 0x12B1, ctx := ctx, part := some r.part, data := [ctx, binding, generation, c] })

/-- Reload the resident regions of generation g on partition p from its image (R755, R952), or the first chunk that fails. -/
def reloadGen (s : State) (w : WGen) (p : Nat) : Except Nat State :=
  let m : NvImage := { header := w.header, regions := w.regions.filter fun r => regPart r == p, hashes := w.hashes }
  (residentChunks m).foldl (fun acc c =>
    match acc with
    | .error e => .error e
    | .ok s =>
      match storedChunk s w c with
      | none => .error c
      | some plain => .ok (writeChunk s m w.units c plain)) (.ok s)

/-- Reload generation g of binding b of context c on partition p; one that cannot be read from its image is DAMAGED there (R755, R758,
R952). -/
def reloadOn (s : State) (c b g p : Nat) (w : WGen) : State :=
  match reloadGen s w p with
  | .ok s1 => s1
  | .error k =>
    logEvent (modGen s c b g fun w => { w with damagedOn := setIns w.damagedOn p })
      { code := 0x22B2, ctx := c, part := some p, data := [c, b, g, k] }

end Sys2Proof.Machine
end

