-- ==== Sys2Proof/Machine/TableMsgs.lean ====
section
/-! DEFINITION. Messages of the codebook slots (R264 to R273, R1112) and of the SFU banks (R372 to R392). -/

namespace Sys2Proof.Machine

/-! Codebooks. -/

/-- The (BASE, WIDTH) entries of a CODEBOOK_LOAD payload. -/
def cbEntries (w : List Nat) : List (Nat × Nat) :=
  (List.range (if bitOf (wd w 0) 6 then 32 else 16)).map fun j => (wd w (4 + 2 * j), wd w (5 + 2 * j))

/-- A ≤ B of two finite numbers. -/
def fvLe (a b : FV) : Bool := predHolds 3 (FV.cmp a b)

/-- Whether a value is finite. -/
def FV.isFin : FV → Bool
  | .fin _ _ _ => true
  | _ => false

/-- Entries keep the rule from one to the next: BASE + WIDTH at most the next BASE, bases strictly ascending (R249). -/
def cbAscends : List (Nat × Nat) → Bool
  | [] => true
  | [_] => true
  | a :: b :: l =>
    fvLe (FV.add 0 (ofF32 a.1) (ofF32 a.2)) (ofF32 b.1) && predHolds 2 (FV.cmp (ofF32 a.1) (ofF32 b.1)) && cbAscends (b :: l)

/-- The entries break R249. -/
def cbBad (l : List (Nat × Nat)) : Bool :=
  let two : FV := FV.ofInt 2
  l.any (fun e => !(ofF32 e.1).isFin || !(ofF32 e.2).isFin || !fvLe (FV.ofInt 0) (ofF32 e.2) ||
    !fvLe (FV.add 0 (ofF32 e.1) (ofF32 e.2)) two) ||
  !fvLe two.neg (ofF32 (l.headD (0, 0)).1) || !cbAscends l

/-- The target slots of a message on every partition of context c. -/
def allTargets (s : State) (c w : Nat) : List CbSlot := (s.ctx c).parts.flatMap fun p => targetSlots w (s.cp c p)

/-- A slot that a load or release holds (R265). -/
def cbBusy (q : CbSlot) : Bool := q.st == .loadWait || q.st == .writing || q.st == .releaseWait

/-- Change the target slots of a message on partition p. -/
def modTargets (s : State) (c p w : Nat) (f : CbSlot → CbSlot) : State :=
  let x := s.cp c p
  let x1 := if bitOf w 8 then { x with cbW := tabMod {} x.cbW (w % 8) f } else x
  s.setCp c p (if bitOf w 9 then { x1 with cbA := tabMod {} x1.cbA (w % 8) f } else x1)

/-- WAIT_LIMIT as a hub count (R264, R388). -/
def waitUntil (s : State) (limit : Nat) : Nat := s.hub + us (if limit = 0 then 1000000 else limit)

/-- CODEBOOK_LOAD (R264 to R268). -/
def execCodebookLoad (fn : Fin 9) (s : State) : Host.Outcome State Fault Refusal :=
  next (runOp s fn 0x0510 fun s r =>
    let w := r.payload
    let w0 := wd w 0
    let gen := w0 / 65536
    let es := cbEntries w
    let ts := allTargets s r.ctx w0
    checked s fn r
      [ reservedCheck [0x0000FC38, 0, 0xFFFFFFFF, 0xFFFFFFFF] w 0x0501,
        (cbBad es, 0x0501, atWord 4), (bitsOf w0 9 8 == 0, 0x0501, atWord 0), (gen == 0, 0x0501, atWord 0),
        (ts.any (fun q => q.gen == gen), 0x0502, atWord 0), (ts.any cbBusy, 0x0503, atWord 0),
        (bitOf w0 7 && ts.any (fun q => q.refs != 0), 0x0503, atWord 0) ]
      (let b := beginOp s fn r (s.ctx r.ctx).parts 0 0
       let limit := waitUntil s (wd w 1)
       let s1 := { b.1 with ops := tabMap b.1.ops fun k o => if k = b.2 then { o with deadline := some limit } else o }
       let nx : Option (Bool × Nat × List (Nat × Nat) × Nat) := some (bitOf w0 6, gen, es, b.2)
       (s1.ctx r.ctx).parts.foldl (fun s p =>
         modTargets s r.ctx p w0 fun q => drainSlot { q with st := .loadWait, next := nx }) s1))

/-- The load n still has a slot to write on partition p of context c. -/
def cbLeft (s : State) (c p n : Nat) : Bool :=
  let x := s.cp c p
  let mine (q : CbSlot) : Bool := match q.next with | some y => y.2.2.2 == n | none => false
  x.cbW.any (fun e => mine e.2) || x.cbA.any fun e => mine e.2

/-- A slot in WRITING is written: VALID with its new contents (R268). -/
def CbSlot.written (q : CbSlot) : CbSlot :=
  match q.next with
  | some (size32, gen, entries, _) => { st := .valid, size32, gen, entries, refs := q.refs }
  | none => q

/-- Load n of context c answers once none of its slots is left to write (R270, R1049). -/
def settleLoad (s : State) (c n : Nat) : State :=
  match tabFind s.ops n with
  | none => s
  | some o =>
    let left := o.todo.filter fun p => cbLeft s c p n
    let s1 := { s with ops := tabSet s.ops n { o with todo := left } }
    if left = [] then endOp (extendCmr s1 c 0x0510 (wordsBytes o.payload)) n 0 [] else s1

/-- CODEBOOK_SLOT_WRITE_DONE: the slot is VALID with its new contents; the last one answers the load (R268, R270, R1049). -/
def execCodebookSlotWriteDone (p : Fin 8) (ctx : Fin 64) (kindA : Bool) (slot : Fin 8) (s : State) :
    Host.Outcome State Fault Refusal :=
  next (
    let x := s.cp ctx p
    let q : CbSlot := tabGet {} (if kindA then x.cbA else x.cbW) slot
    match q.st, q.next with
    | .writing, some (_, _, _, n) =>
      let x1 := if kindA then { x with cbA := tabSet x.cbA slot q.written } else { x with cbW := tabSet x.cbW slot q.written }
      settleLoad (s.setCp ctx p x1) ctx n
    | _, _ => s)

/-- A slot of load n waits in LOAD_WAIT on some partition of context c. -/
def cbWaiting (s : State) (c n : Nat) : Bool :=
  let mine (q : CbSlot) : Bool := q.st == .loadWait && (match q.next with | some y => y.2.2.2 == n | none => false)
  (s.ctx c).parts.any fun p => (s.cp c p).cbW.any (fun e => mine e.2) || (s.cp c p).cbA.any fun e => mine e.2

/-- CODEBOOK_WAIT_LIMIT: a slot in WRITING counts as written, so the load is refused only where one still waits (R269, R270). -/
def execCodebookWaitLimit (ctx : Fin 64) (slot : Fin 8) (s : State) : Host.Outcome State Fault Refusal :=
  let due (o : LongOp) : Bool :=
    o.opcode == 0x0510 && o.ctx == ctx.val && wd o.payload 0 % 8 == slot.val &&
      (match o.deadline with | some d => d ≤ s.hub | none => false)
  next (match s.ops.find? fun e => due e.2 with
    | none => s
    | some e => if cbWaiting s ctx e.1 then endOp (stopCodebook s ctx e.1) e.1 0x0504 [] else s)

/-- CODEBOOK_RELEASE (R265, R272). -/
def execCodebookRelease (fn : Fin 9) (s : State) : Host.Outcome State Fault Refusal :=
  next (runOp s fn 0x0511 fun s r =>
    let w0 := wd r.payload 0
    checked s fn r
      [ reservedCheck [0xFFFFFCF8] r.payload 0x0501, (bitsOf w0 9 8 == 0, 0x0501, atWord 0),
        ((allTargets s r.ctx w0).any cbBusy, 0x0503, atWord 0) ]
      (let b := beginOp s fn r (s.ctx r.ctx).parts 0 0
       let s1 := (b.1.ctx r.ctx).parts.foldl (fun s p =>
         modTargets s r.ctx p w0 fun q => if q.st == .empty then q else drainSlot { q with st := .releaseWait }) b.1
       settleReleases s1 r.ctx))

/-- STATE of a slot (R1112). -/
def cbCode : CbSt → Nat
  | .empty => 0 | .valid => 1 | .loadWait => 2 | .writing => 3 | .releaseWait => 4

/-- An entry of the CODEBOOK_QUERY reply. A slot in WRITING reports the SIZE and GEN that it had before, until the write is done
(DESIGN CHOICE, log entry 128). -/
def cbEntryWords (q : CbSlot) : List Nat :=
  let full := q.st != .empty
  [cbCode q.st * 2 ^ 29 + b2n (full && q.size32) * 2 ^ 28 + (if full then q.gen else 0), q.refs]

/-- CODEBOOK_QUERY (R273, R1112). -/
def execCodebookQuery (fn : Fin 9) (s : State) : Host.Outcome State Fault Refusal :=
  next (runOp s fn 0x0512 fun s r =>
    let ps := allParts.filter (s.ctx r.ctx).parts.contains
    okReply s fn r ([ps.foldl (fun a p => a + 2 ^ p) 0, 0] ++ ps.flatMap fun p =>
      let x := s.cp r.ctx p
      ((List.range 8).flatMap fun q => cbEntryWords (tabGet {} x.cbW q)) ++
        (List.range 8).flatMap fun q => cbEntryWords (tabGet {} x.cbA q)))

/-! SFU banks. -/

/-- Change the standby bank's slots. -/
def modStandby (x : CtxPart) (f : Tab SfuSlot → Tab SfuSlot) : CtxPart :=
  if x.active = 0 then { x with bank1 := { x.bank1 with slots := f x.bank1.slots } }
  else { x with bank0 := { x.bank0 with slots := f x.bank0.slots } }

/-- The standby bank's number. -/
def CtxPart.standbyNo (x : CtxPart) : Nat := 1 - x.active

/-- The tiles of partition p that hold context c's banks have had the bank words rewritten whose keys `ks` names: their parity is good
(R395). -/
def State.rewritten (s : State) (c p : Nat) (ks : Nat → Bool) : State :=
  allTiles.foldl (fun s t =>
    let x := s.tile p t
    if x.lastCtx = some c && x.badBank.any ks then s.setTile p t { x with badBank := x.badBank.filter (!ks ·) } else s) s

/-- The active bank. -/
def CtxPart.activeBank (x : CtxPart) : SfuBank := if x.active = 0 then x.bank0 else x.bank1

/-- A preparation of the context waits. -/
def preparing (s : State) (c : Nat) : Bool := (s.ctx c).parts.any fun p => (s.cp c p).prep != none

/-- The standby bank has a nonzero count on some partition. -/
def standbyHeld (s : State) (c : Nat) : Bool := (s.ctx c).parts.any fun p => (s.cp c p).standbyCount != 0

/-- A source code that is not reserved (R374). -/
def mpCodeOk (k : Nat) : Bool := k ≤ 5 || (8 ≤ k && k ≤ 11) || (16 ≤ k && k ≤ 23)

/-- A step that R378 refuses: its OP, a reserved source code in any field (R10, R374), its AUX. -/
def mpStepBad (w : Nat) : Bool :=
  let op := bitsOf w 31 27
  op == 0 || 0xD < op || !mpCodeOk (bitsOf w 24 20) || !mpCodeOk (bitsOf w 19 15) || !mpCodeOk (bitsOf w 14 10) ||
    (op == 0xC && 6 < bitsOf w 9 0) || (op == 0xD && 15 < bitsOf w 9 0)

/-- The lookup parameters break their ranges: those of both modes are checked (R372, R378). -/
def mpLookupBad (w : List Nat) : Bool :=
  let lo := ofF32 (wd w 2)
  let hi := ofF32 (wd w 3)
  let n := bitsOf (wd w 1) 15 8
  let e := sInt 8 (wd w 1)
  n == 0 || 32 < n || decide (e < -126) || decide (127 - (n : Int) < e) || 8 < bitsOf (wd w 0) 23 20 ||
    !lo.isFin || !hi.isFin || fvLe hi lo

/-- SFU_SLOT_WRITE (R372, R378, R387, R1049). DEDUCED, log entry 73. -/
def execSfuSlotWrite (fn : Fin 9) (s : State) : Host.Outcome State Fault Refusal :=
  next (runOp s fn 0x0520 fun s r =>
    let w := r.payload
    let n := bitsOf (wd w 0) 12 8
    let steps := (w.drop 12).take n
    checked s fn r
      [ reservedCheck [0xFF0EE0E0, 0xFFFF0000] w 0x0521, (n == 0 || 16 < n, 0x0521, atWord 0),
        (steps.any mpStepBad, 0x0521, atWord (12 + (steps.findIdx? mpStepBad).getD 0)), (mpLookupBad w, 0x0521, atWord 1),
        (standbyHeld s r.ctx || preparing s r.ctx, 0x0522, noField) ]
      (let q := wd w 0 % 16
       let s1 := (s.ctx r.ctx).parts.foldl (fun s p =>
         (s.setCp r.ctx p (modStandby (s.cp r.ctx p) fun t => tabMod {} t q fun x => { x with words := w })).rewritten r.ctx p
           fun k => (List.range 14).any fun j => k == bankKey (s.cp r.ctx p).standbyNo q j) s
       okReply (extendCmr s1 r.ctx 0x0520 (wordsBytes w)) fn r []))

/-- SFU_TABLE_WRITE (R373, R378, R387, R1049). -/
def execSfuTableWrite (fn : Fin 9) (s : State) : Host.Outcome State Fault Refusal :=
  next (runOp s fn 0x0521 fun s r =>
    let w := r.payload
    let first := bitsOf (wd w 0) 15 8
    let n := bitsOf (wd w 0) 23 16
    let cs := (w.drop 4).take (4 * n)
    let bad (c : Nat) : Bool := !(ofF32 c).isFin
    checked s fn r
      [ reservedCheck [0xFF0000F0, 0xFFFFFFFF, 0xFFFFFFFF, 0xFFFFFFFF] w 0x0521,
        (n == 0 || 248 < n || 256 < first + n, 0x0521, atWord 0),
        (cs.any bad, 0x0521, atWord (4 + (cs.findIdx? bad).getD 0)),
        (standbyHeld s r.ctx || preparing s r.ctx, 0x0522, noField) ]
      (let put (x : SfuSlot) : SfuSlot :=
         { x with segs := (List.range n).foldl (fun t i => tabSet t (first + i) ((cs.drop (4 * i)).take 4)) x.segs }
       let q := wd w 0 % 16
       let s1 := (s.ctx r.ctx).parts.foldl (fun s p =>
         (s.setCp r.ctx p (modStandby (s.cp r.ctx p) fun t => tabMod {} t q put)).rewritten r.ctx p
           fun k => (List.range n).any fun i => (mpSegWords (first + i)).any fun j =>
             k == bankKey (s.cp r.ctx p).standbyNo q j) s
       okReply (extendCmr s1 r.ctx 0x0521 (wordsBytes w)) fn r []))

/-- SFU_BANK_PREPARE (R388, R389): the preparation waits on each partition until its standby bank is free. -/
def execSfuBankPrepare (fn : Fin 9) (s : State) : Host.Outcome State Fault Refusal :=
  next (runOp s fn 0x0522 fun s r =>
    let w0 := wd r.payload 0
    checked s fn r
      [ reservedCheck [0xFFFFFF7F] r.payload 0x16, (preparing s r.ctx, 0x0522, noField),
        (bitOf w0 7 && standbyHeld s r.ctx, 0x0522, noField) ]
      (let b := beginOp s fn r (s.ctx r.ctx).parts 0 0
       let limit := waitUntil s (wd r.payload 1)
       let s1 := { b.1 with ops := tabMap b.1.ops fun k o => if k = b.2 then { o with deadline := some limit } else o }
       (s1.ctx r.ctx).parts.foldl (fun s p => s.setCp r.ctx p (drainBank { s.cp r.ctx p with prep := some b.2 })) s1))

/-- SFU_BANK_COPY_DONE: the standby bank of a partition holds what the active one holds (R388). -/
def execSfuBankCopyDone (p : Fin 8) (ctx : Fin 64) (s : State) : Host.Outcome State Fault Refusal :=
  next (
    let x := s.cp ctx p
    match x.prep with
    | none => s
    | some n =>
      if !x.copying then s
      else
        let x1 := modStandby x fun _ => x.activeBank.slots
        let s1 := (s.setCp ctx p { x1 with prep := none, copying := false }).rewritten ctx p fun k => k / 16384 == x.standbyNo
        match tabFind s1.ops n with
        | none => s1
        | some o =>
          let left := setDel o.todo p
          if left = [] then endOp s1 n 0 [] else { s1 with ops := tabSet s1.ops n { o with todo := left } })

/-- SFU_PREPARE_WAIT_LIMIT: the preparation is refused where its limit has passed while a partition still waits for its standby
count (R389). -/
def execSfuPrepareWaitLimit (ctx : Fin 64) (s : State) : Host.Outcome State Fault Refusal :=
  let due (o : LongOp) : Bool :=
    o.opcode == 0x0522 && o.ctx == ctx.val && (match o.deadline with | some d => d ≤ s.hub | none => false)
  next (match s.ops.find? fun e => due e.2 with
    | none => s
    | some e =>
      if (s.ctx ctx).parts.any fun p => (s.cp ctx p).prep == some e.1 && !(s.cp ctx p).copying then
        endOp (stopPrepare s ctx e.1) e.1 0x0523 []
      else s)

/-- SFU_BANK_SWITCH (R390, R391): every partition of the context switches before its next dispatch. -/
def execSfuBankSwitch (fn : Fin 9) (s : State) : Host.Outcome State Fault Refusal :=
  next (runOp s fn 0x0523 fun s r =>
    checked s fn r [ (preparing s r.ctx, 0x0522, noField) ]
      (let flip (x : CtxPart) : CtxPart := { x with active := 1 - x.active }
       okReply ((s.ctx r.ctx).parts.foldl (fun s p => s.setCp r.ctx p (flip (s.cp r.ctx p))) s) fn r []))

/-- What SFU_BANK_QUERY tells of one bank: its count, VALID and STEPS of each slot (R392). -/
def bankInfo (b : SfuBank) : List Nat :=
  b.count :: (List.range 16).flatMap fun q =>
    let x : SfuSlot := tabGet {} b.slots q
    [b2n x.valid, x.steps]

/-- SFU_BANK_QUERY (R392): the layout of the reply is not given. -/
def execSfuBankQuery (fn : Fin 9) (s : State) : Host.Outcome State Fault Refusal :=
  next (runOp s fn 0x0524 fun s r =>
    let ps := allParts.filter (s.ctx r.ctx).parts.contains
    okReply s fn r (Config.sfuQueryWords (ps.flatMap fun p =>
      let x := s.cp r.ctx p
      [p, x.active] ++ bankInfo x.bank0 ++ bankInfo x.bank1)))

end Sys2Proof.Machine
end

