-- ==== Sys2Proof/Machine/RegMap.lean ====
section
/-! DEFINITION. The register map: what every 32-bit word of BAR0 reads as, for each function (chapter 24). -/

namespace Sys2Proof.Machine

/-- BAR0 answers: the PCIe endpoint runs from the end of Sunrise on, in Recovery the identity block alone (R902, R934).
DEDUCED, log entry 106. -/
def State.barUp (s : State) : Bool := s.pins.rails && (s.boot.cmi || s.boot.stage == 7)

/-- The management controller runs and answers PLDM: from the end of Sunrise on, in Recovery from the ROM image (R880, R900; DEDUCED,
log entry 106). -/
def State.mcRuns (s : State) : Bool := s.pins.rails && (s.boot.cmi || s.boot.stage == 7)

/-- Vendor ID, and the device IDs of the PF and of a VF (R848). -/
def pciId (k : Nat) : Nat × Nat := (0x1D7A, if k = 0 then 0x0576 else 0x0577)

/-- Class code (R848). -/
def pciClass : Nat := 0x120000

/-- What the TAP reports for IDCODE (R887). -/
def jtagIdcode : Nat := 0x10576C63

/-- TotalVFs and InitialVFs, First VF Offset, VF Stride, and the page sizes of 4 KiB and 64 KiB as bits 0 and 4 (R863). -/
def sriovCap : Nat × Nat × Nat × Nat := (8, 1, 1, 0x11)

/-- ACS P2P Request Redirect, P2P Completion Redirect and Direct Translated P2P, at their bits of the ACS registers (R864). -/
def acsCap : Nat := 0x4C

/-- Configuration space of function k as the model places it beyond BAR0 (R848, R863 to R866; DESIGN CHOICE, log entry 23). -/
def cfgWord (s : State) (k o : Nat) : Option Nat :=
  let f := s.fn k
  if o = 0x1000000 then some (b2n f.msixEn + 2 * b2n f.msixMask)
  else if o = 0x1000004 then some (b2n f.atsEn)
  else if o = 0x1000008 then some (b2n f.relaxed)
  else if o = 0x100001C then some acsCap
  else if o = 0x1000020 then some f.acsCtl
  else if o = 0x1000024 then some ((pciId k).1 + 65536 * (pciId k).2)
  else if o = 0x1000028 then some pciClass
  else if k != 0 then none
  else if o = 0x100000C then some (sriovCap.1 + 65536 * sriovCap.1)
  else if o = 0x1000010 then some (sriovCap.2.1 + 65536 * sriovCap.2.2.1)
  else if o = 0x1000014 then some sriovCap.2.2.2
  else if o = 0x1000018 then some s.pcie.pageSize
  else none

/-- A 64-bit register's word: the low half at word 0, the high half at word 1. -/
def half (v w : Nat) : Nat := if w = 0 then v % 2 ^ 32 else v / 2 ^ 32 % 2 ^ 32

/-- GID_BRINGUP; PART_FAILED is written at readiness (R915). -/
def gidBringup (s : State) : Nat :=
  let b := s.boot
  b.stage % 16 * 2 ^ 28 + b2n b.savedAll * 2 ^ 27 + b2n b.planValid * 2 ^ 26 +
    (if 4 ≤ b.stage then b.partFailed.foldl (fun a p => a + 2 ^ (16 + p)) 0 else 0) + b.haltCause % 65536

/-- What Dawn has loaded from the fuses, nothing before its end (R897). -/
def State.loadedFuses (s : State) : DieFuses := s.boot.loaded.getD {}

/-- The identity block (R934). -/
def gidWord (s : State) (o : Nat) : Option Nat :=
  if o = 0 then some ((if s.boot.cmi then 0x01000000 else 0) + 0x1100)
  else if o = 8 then some (half s.loadedFuses.serial 0)
  else if o = 0xC then some (half s.loadedFuses.serial 1)
  else if o = 0x10 then some (gidBringup s)
  else if o = 0x18 then some (half s.boot.readyAt 0)
  else if o = 0x1C then some (half s.boot.readyAt 1)
  else none

/-- The mailbox control window (R549 to R564). -/
def cmiWord (s : State) (k o : Nat) : Option Nat :=
  let f := s.fn k
  if o = 0 then some (b2n f.go * 2 ^ 31)
  else if o = 4 then some (b2n f.rspValid * 2 ^ 31 + f.rspSeq % 65536)
  else if o = 8 then some (b2n s.mcpReady * 2 ^ 31 + f.events.length % 128 * 65536 + f.outst.length % 32)
  else if o = 0xC then some (b2n f.irqEn * 2 ^ 31 + f.irqVec % 2048)
  else none

/-- A word of the MSI-X table (R1094). -/
def msixWord (s : State) (k o : Nat) : Nat :=
  let v : Vec := tabGet {} (s.fn k).vecs (o / 16)
  match o % 16 / 4 with
  | 0 => half v.addr 0
  | 1 => half v.addr 1
  | 2 => v.data % 2 ^ 32
  | _ => b2n v.masked

/-- A word of the pending-bit array. -/
def pbaWord (s : State) (k o : Nat) : Nat :=
  (List.range 32).foldl (fun a i => a + b2n (tabGet {} (s.fn k).vecs (8 * o + i)).pending * 2 ^ i) 0

/-- The power block (R975). -/
def pwrWord (s : State) (o : Nat) : Option Nat :=
  if o = 0 then some (pwrStatus s)
  else if o = 4 then some (pwrLimits s)
  else if o = 8 then some (half (pwrMeasure s) 0)
  else if o = 0xC then some (half (pwrMeasure s) 1)
  else if o = 0x10 then some (pwrThermal s)
  else if o = 0x14 then some (pwrTolerance s)
  else none

/-- Node instances in flight on partition p. -/
def partInFlight (s : State) (p : Nat) : Nat := ((s.part p).insts.filter fun e => !e.2.st.resolved).length

/-- The slot that runs on partition p: without a table one open slot. -/
def slotNow (P : Part) : Slot :=
  match P.sched with
  | some l => l.getD P.slot ⟨1, 0, 0⟩
  | none => ⟨1, 0, 0⟩

/-- Fence i of the context that function k has selected for partition p; 0 where it may not see one (R1097). -/
def fenceShadow (s : State) (k p i : Nat) : Nat :=
  let c := tabGet 0 (s.fn k).fenceSel p
  let x := s.ctx c
  if c = 0 || x.st == .free || !x.parts.contains p || (k != 0 && x.owner != k) then 0 else tabGet 0 (s.cp c p).fences i

/-- The completion path of a context that occupies partition p is broken, on whichever of its partitions: the CP stops dispatching
the context's nodes on every one (R546). DEDUCED, log entry 107. -/
def pathBroken (s : State) (p : Nat) : Bool := (s.ctxsOn p).any fun c => (s.ctx c).parts.any fun q => (s.cp c q).broken

/-- A partition's registers (R20, R527, R645). -/
def ptWord (s : State) (k p o : Nat) : Option Nat :=
  let P := s.part p
  let sl := slotNow P
  if o = 0 then some (b2n P.inService * 2 ^ 31 + b2n P.reset.isSome * 2 ^ 30 + s.ownerOf p * 65536 + (s.ctxsOn p).length % 64)
  else if o = 0x10 || o = 0x14 then some (half P.count (bitsOf o 2 2))
  else if o = 0x40 then some (b2n (pathBroken s p) * 2 ^ 31 + b2n (P.dispHeld || pathBroken s p) * 2 ^ 30 + partInFlight s p % 8192)
  else if o = 0x48 then some (tabGet 0 (s.fn k).fenceSel p % 64)
  else if 0x100 ≤ o && o < 0x158 then
    let r := P.reg ((o - 0x100) / 8)
    some (if o % 8 = 0 then r.rate % 512 * 256 + r.burst % 128 else r.throttled % 2 ^ 32)
  else if o = 0x200 then
    some (b2n P.sched.isSome * 2 ^ 31 + sl.kind % 4 * 2 ^ 24 + P.slot % 256 * 65536 +
      (if P.computeHeld then 0 else sl.ctx % 64))
  else if o = 0x208 || o = 0x20C then some (half P.frames (bitsOf o 2 2))
  else if o = 0x210 then some (P.kills % 2 ^ 32)
  else if 0x8000 ≤ o && o < 0x9000 then some (half (fenceShadow s k p ((o - 0x8000) / 8)) (bitsOf o 2 2))
  else none

/-- STATE of a port. -/
def portCode : PortSt → Nat
  | .down => 0 | .training => 1 | .up => 2 | .disabled => 3

/-- Bits of the lane pairs of a port that pass a test. -/
def lpBits (s : State) (k : Nat) (f : LanePair → Bool) : Nat := allParts.foldl (fun a n => a + b2n (f (s.lp k n)) * 2 ^ n) 0

/-- A fabric port's registers while its link islands run (the table after R821). -/
def fpWordOn (s : State) (k o : Nat) : Option Nat :=
  let P := s.port k
  let w := bitsOf o 2 2
  if o = 0 then
    some (portCode P.st * 2 ^ 30 + b2n P.waived * 2 ^ 29 + P.check % 8 * 2 ^ 26 + lpBits s k (·.up) * 256 + lpBits s k (·.retraining))
  else if o = 4 then some (b2n P.disable)
  else if o = 8 then some (match P.neighbour with | some (m, q) => 2 ^ 31 + m % 2 ^ 13 * 65536 + q % 8 | none => 0)
  else if o = 0x10 || o = 0x14 then some (half P.txBytes w)
  else if o = 0x18 || o = 0x1C then some (half P.rxBytes w)
  else if o = 0x20 || o = 0x24 then some (half P.fwdBytes w)
  else if o = 0x28 || o = 0x2C then some (half P.fec w)
  else if o = 0x30 || o = 0x34 then some (half P.fecu w)
  else if o = 0x38 || o = 0x3C then some (half P.replays w)
  else if o = 0x40 then some (P.errStatus % 2 ^ 32)
  else if 0x100 ≤ o && o < 0x140 then
    let l := s.lp k ((o - 0x100) / 8)
    some (if w = 0 then b2n l.up * 2 ^ 31 + l.retrains % 65536 else l.crcErrors % 2 ^ 32)
  else none

/-- The key of word o of port k among the values saved at the entry of A4. -/
def fpKey (k o : Nat) : Nat := 0x4000 * k + o

/-- A fabric port's registers: in A4 they read as at entry, with STATE DOWN (R1096). -/
def fpWord (s : State) (k o : Nat) : Option Nat :=
  (fpWordOn s k o).map fun v => if s.power.a4 then tabGet 0 s.power.a4Ports (fpKey k o) else v

/-- The words of every port that A4 shows, taken at its entry (R1096). -/
def fpSaved (s : State) : Tab Nat :=
  allPorts.flatMap fun k => (List.range 80).filterMap fun i =>
    (fpWordOn s k (4 * i)).map fun v => (fpKey k (4 * i), if i = 0 then v % 2 ^ 30 else v)

/-- Words of a log record (R1022). -/
def logRecWords (r : LogRec) : List Nat :=
  [ r.ctx % 64 * 2 ^ 20 + (match r.part with | some p => 2 ^ 19 + p % 8 * 65536 | none => 0) + r.code % 65536, r.count % 2 ^ 32,
    r.time % 2 ^ 32, r.time / 2 ^ 32 % 2 ^ 32 ] ++ (List.range 4).map fun i => wd r.data i % 2 ^ 32

/-- The log window (R1032). -/
def logWord (s : State) (o : Nat) : Option Nat :=
  let g := s.log
  if o = 0 then some (g.genSeq % 2 ^ 32)
  else if o = 4 then some (g.fatSeq % 2 ^ 32)
  else if 0x10 ≤ o && o < 0x24 then some (tabGet 0 g.lost ((o - 0x10) / 4 + 1))
  else if o = 0x40 then some (g.page % 32)
  else if o = 0x44 then
    some (modCount s % 256 * 2 ^ 24 + b2n s.moduleOos * 2 ^ 23 + allParts.foldl (fun a p => a + b2n (s.part p).oos * 2 ^ p) 0)
  else if 0x8000 ≤ o && o < 0x10000 then
    let k := 1024 * (g.page % 32) + (o - 0x8000) / 32
    let w := (o - 0x8000) / 4 % 8
    let held := if k < 30720 then g.general.find? (fun r => r.slot == k) else g.fatal.find? (fun r => r.slot == k - 30720)
    some (match held with
      | some r => wd (logRecWords r) w
      | none => Config.logSram k w % 2 ^ 32)
  else none

/-- The trace window (R1099). -/
def trcWord (s : State) (o : Nat) : Option Nat :=
  if o = 0 then some (b2n s.trcEn * 2 ^ 31)
  else if o = 8 || o = 0xC then some (half s.trcMade (bitsOf o 2 2))
  else if o = 0x10 then some (tabGet 0 s.log.lost 0)
  else none

/-- DBG_STATUS. -/
def dbgStatus (s : State) : Nat :=
  s.dbgLevel % 4 * 2 ^ 30 + b2n s.sec.ever * 2 ^ 29 + b2n s.sec.chal.isSome * 2 ^ 28 + s.sec.unlocks % 256

/-- The debug block (R1061). -/
def dbgWord (s : State) (o : Nat) : Option Nat :=
  if o = 0 then some (dbgStatus s)
  else if o = 8 && s.dbgLevel == 2 then some (s.sec.resumePart % 8)
  else none

/-- The 32-bit word of function k's BAR0 at offset o, a multiple of 4; none where no table assigns the offset (R24, R1093). -/
def regWord (s : State) (k o : Nat) : Option Nat :=
  if o < 0x1000 then gidWord s o
  else if s.boot.stage = 7 then none
  else if o < 0x2000 then some (memWord (s.fn k).reqBuf (o - 0x1000))
  else if o < 0x3000 then some (memWord (s.fn k).rspBuf (o - 0x2000))
  else if o < 0x3010 then cmiWord s k (o - 0x3000)
  else if 0x10000 ≤ o && o < 0x18000 then some (msixWord s k (o - 0x10000))
  else if 0x18000 ≤ o && o < 0x18100 then some (pbaWord s k (o - 0x18000))
  else if 0x20000 ≤ o && o < 0x20018 then pwrWord s (o - 0x20000)
  else if 0x100000 ≤ o && o < 0x180000 then
    let p := (o - 0x100000) / 65536
    if k = 0 || s.ownerOf p = k then ptWord s k p (o % 65536) else none
  else if k != 0 then none
  else if 0x200000 ≤ o && o < 0x218000 then fpWord s ((o - 0x200000) / 0x4000) (o % 0x4000)
  else if 0x300000 ≤ o && o < 0x310000 then logWord s (o - 0x300000)
  else if 0x400000 ≤ o && o < 0x400018 then (if 1 ≤ s.dbgLevel then trcWord s (o - 0x400000) else none)
  else if 0x800000 ≤ o && o < 0x800010 then dbgWord s (o - 0x800000)
  else none

/-- A BAR0 access that R21 and R24 do not accept: another width or alignment, or an unassigned offset. A 64-bit access is judged by
its first word: where that is assigned and the second word is not, the access is accepted and reaches the assigned word (DESIGN
CHOICE, log entry 129). -/
def barInvalid (s : State) (k o width : Nat) : Bool :=
  !(width == 4 || width == 8) || o % width != 0 || (regWord s k o).isNone

/-- Bytes that an aligned BAR0 read returns; of a 64-bit access to a word alone, the other word reads as all ones. -/
def regRead (s : State) (k o width : Nat) : List Byte :=
  (List.range (width / 4)).flatMap fun i => natLe 4 ((regWord s k (o + 4 * i)).getD 0xFFFFFFFF)

end Sys2Proof.Machine
end

