-- ==== Sys2Proof/Machine/Train.lean ====
section
/-! DEFINITION. Training items and their saved settings (R905 to R908, R921 to R925): stack Sk is item k, lane pair n of port p
item 24 + 8 p + n. -/

namespace Sys2Proof.Machine

/-- The die of an item. -/
def itemDie (i : Nat) : Nat := if i < 24 then i / 3 else (i - 24) % 8

/-- The item of lane pair n of port k. -/
def laneItem (k n : Nat) : Nat := 24 + 8 * k + n

/-- How an item stands. -/
def State.item (s : State) (i : Nat) : TrainSt := tabGet .idle s.boot.items i

/-- Change how an item stands. -/
def State.setItem (s : State) (i : Nat) (t : TrainSt) : State :=
  { s with boot := { s.boot with items := tabSet s.boot.items i t } }

/-- The repair records of stack k: hard repairs and spare rows used, by their keys. -/
def stackRepairs (s : State) (k : Nat) : List Nat :=
  let h := (s.part (k / 3)).hbm
  let mine (pc : Nat) : Bool := pc / 32 == k % 3
  (h.hard.filter fun e => mine (e.1 / 16)).flatMap (fun e => [e.1, e.2]) ++
  (h.spare.filter fun e => mine e.1).flatMap fun e => [e.1, e.2]

/-- 180 days as counts. -/
def days180 : Nat := 180 * 86400 * 25000000

/-- The saved record of an item is valid at the start of Morning (R921). Its partner is checked when an identity arrives; the
stack serial is that of a stack soldered in. DEDUCED, log entry 56. -/
def recordValid (s : State) (i : Nat) : Bool :=
  match tabFind s.saved i with
  | none => false
  | some r =>
    let t := s.boot.temps.getD (itemDie i) 0
    let v := s.boot.railsMv.getD (itemDie i) 0
    t ≤ r.tempC + 10 && r.tempC ≤ t + 10 && 100 * (v - r.railMv) ≤ r.railMv && 100 * (r.railMv - v) ≤ r.railMv &&
    r.fw == bunVersion s.sec.running && (24 ≤ i || r.repairs == stackRepairs s i) && s.hub ≤ r.at_ + days180

/-- Data of a training event: the stack, or the port and lane pair, and the stage (R936). -/
def itemData (s : State) (i : Nat) : List Nat :=
  if i < 24 then [i, s.boot.stage] else [(i - 24) / 8, (i - 24) % 8, s.boot.stage]

/-- An item is to train cold: at once where the dies have settled (R907). -/
def startCold (s : State) (i : Nat) : State :=
  let s1 := s.setItem i (if s.boot.settled then .cold else .waitCold)
  { s1 with boot := { s1.boot with refined := setIns s1.boot.refined i, worked := setIns s1.boot.worked i } }

/-- Start training an item: from saved settings where its record is valid, else cold (R921, R922). An item that this bring-up
has rejected or refined before trains cold without a second event. DEDUCED, log entry 57. -/
def startItem (s : State) (i : Nat) : State :=
  if s.boot.refined.contains i then startCold s i
  else if recordValid s i then s.setItem i .saved
  else startCold (logEvent s { code := 0x12F0, data := itemData s i }) i

/-- Start training every lane pair of port k: TRAINING, no identity received, no lane locked. -/
def startPort (s : State) (k : Nat) : State :=
  let P := s.port k
  let s1 := s.setPort k { P with st := .training, retryAt := s.hub,
                                 lps := (allParts.foldl (fun t n => tabMod {} t n fun l =>
                                   { l with up := false, retraining := false, locked := false, seen := false, identAt := none }) P.lps) }
  allParts.foldl (fun s n => startItem s (laneItem k n)) s1

end Sys2Proof.Machine
end

