-- ==== Sys2Proof/Machine/FabricIo.lean ====
section
/-! DEFINITION. What happens on the fabric ports: flits, retrains, training and identities, forwarding, arrivals,
acknowledgements, job aborts, disabling of ports and the cabling plan (chapters 16 and 17). -/

namespace Sys2Proof.Machine

/-! Lane pairs. -/

/-- A lane pair that carries traffic. -/
def laneLive (s : State) (k n : Nat) : Bool := (s.port k).st == .up && (s.lp k n).up && !(s.lp k n).retraining

/-- FLIT_RECEIVE (R764 to R767, R773, R774). A flit has 256 bytes. -/
def execFlitReceive (port : Fin 6) (lp : Fin 8) (flit : List Byte) (corrected : Nat) (fecOk : Bool) (s : State) :
    Host.Outcome State Fault Refusal :=
  if flit.length ≠ 256 then .fault (.badOperand "FLIT_RECEIVE: a flit has 256 bytes")
  else next (if laneLive s port lp then receive s port lp flit corrected fecOk else s)

/-- ACK_PROGRESS_TIMEOUT: flits are outstanding and ACK_SEQ has not moved for 20 µs (R768). -/
def execAckProgressTimeout (port : Fin 6) (lp : Fin 8) (s : State) : Host.Outcome State Fault Refusal :=
  let l := s.lp port lp
  next (if laneLive s port lp && l.replay != [] && l.lastAck + us 20 ≤ s.hub then startRetrain s port lp else s)

/-- LANE_LOCK_LOSS: the lane pair retrains (R768); in training and in a retrain it must lock again. -/
def execLaneLockLoss (port : Fin 6) (lp : Fin 8) (s : State) : Host.Outcome State Fault Refusal :=
  let l := s.lp port lp
  next (if laneLive s port lp then startRetrain s port lp
    else if l.locked && (l.retraining || (s.port port).st == .training) then s.setLp port lp { l with locked := false, seen := false }
    else s)

/-- A retrain has succeeded: traffic resumes by replay; four in a second take the port down (R768, R769). -/
def retrained (s : State) (k n : Nat) : State :=
  let l := s.lp k n
  let s1 := s.setLp k n { l with retraining := false, up := true, locked := false, seen := false, lastAck := s.hub,
                                 retrains := min (l.retrains + 1) 65535 }
  let P := s1.port k
  let recent := s.hub :: P.trainedAt.filter fun t => s.hub < t + 25000000
  let s2 := s1.setPort k { P with trainedAt := recent, errStatus := Nat.lor P.errStatus (2 ^ 30) }
  let s3 := logEvent s2 { code := 0x12C0, data := fabData k n 0 0 0 0 }
  if 4 ≤ recent.length then portDown s3 k n .down else returnCredits 20 (pump (resend s3 k n l.replay) k n) k n

/-- RETRAIN_COMPLETE: a retrain ends; it needs the partner's identity to succeed (R768, R769, R835). -/
def execRetrainComplete (port : Fin 6) (lp : Fin 8) (ok : Bool) (s : State) : Host.Outcome State Fault Refusal :=
  let l := s.lp port lp
  next (if !l.retraining then s
    else if !ok then portDown s port lp .down
    else if l.seen then retrained s port lp
    else s)

/-! Training and identities. -/

/-- PORT_TRAINING_RETRY: every 2 s a DOWN port that is not disabled attempts training (R770); without a plan no port trains
(R833). An attempt that has not brought the port up by the next one has failed. DEDUCED, log entry 51. -/
def execPortTrainingRetry (port : Fin 6) (s : State) : Host.Outcome State Fault Refusal :=
  let P := s.port port
  next (if s.plan.isSome && !P.disable && (P.st == .down || P.st == .training) && P.retryAt + us 2000000 ≤ s.hub then
      startPort s port
    else s)

/-- What the module's identity block on a lane pair tells (R835). -/
def State.myIdentity (s : State) (k n : Nat) : Identity :=
  { port := k, lanePair := n, moduleId := s.moduleId, serial := s.sec.serial }

/-- The 32-byte block of an identity (R835). -/
def identityBlock (i : Identity) : List Byte :=
  let body := natLe 4 (0x4944 * 65536 + i.port % 8 * 8 + i.lanePair % 8) ++ natLe 4 (i.moduleId % 8192) ++ natLe 8 i.serial ++
    List.replicate 12 0
  body ++ natLe 4 (crc32c body)

/-- The identity of a block whose CRC is good and whose fixed fields are as R835 has them, none of another. -/
def identityIn (b : List Byte) : Option Identity :=
  let w (o : Nat) : Nat := leNat ((b.drop o).take 4)
  if b.length == 32 && w 0x1C == crc32c (b.take 0x1C) && w 0 / 64 == 0x4944 * 1024 && w 4 < 8192 && w 0x10 == 0 && w 0x14 == 0 &&
      w 0x18 == 0 then
    some { port := bitsOf (w 0) 5 3, lanePair := bitsOf (w 0) 2 0, moduleId := w 4, serial := w 8 + 2 ^ 32 * w 0xC }
  else none

/-- A lane pair that may exchange identities: locked in a training, or in a retrain, where the first block that it sends or receives
tells that its lanes have locked (R835; DEDUCED, log entry 151). -/
def exchanging (s : State) (k n : Nat) : Bool :=
  (s.lp k n).retraining || ((s.lp k n).locked && (s.port k).st == .training)

/-- The lane pair's identity is due: none was sent in this training or retrain, or the last one 1 ms ago (R835). -/
def identityDue (s : State) (l : LanePair) : Bool := match l.identAt with | some t => t + us 1000 ≤ s.hub | none => true

/-- IDENTITY_SEND: sent every 1 ms until the partner's identity has come (R835). -/
def execIdentitySend (port : Fin 6) (lp : Fin 8) (s : State) : Host.Outcome State Fault Refusal :=
  let l := s.lp port lp
  next (if exchanging s port lp && !l.seen && identityDue s l then
      { s.setLp port lp { l with locked := true, identAt := some s.hub } with
        identOut := s.identOut ++ [(port.val, lp.val, identityBlock (s.myIdentity port lp))] }
    else s)

/-- The result of a port's check (R836): 1 MATCH, 2 SWAPPED, 3 MISWIRED. -/
def checkResult (b : List Byte) (k : Nat) (ids : List Identity) : Nat :=
  match ids with
  | [] => 3
  | r :: _ =>
    let pair := some (r.moduleId, r.port)
    if (List.range ids.length).any (fun n =>
        match ids[n]? with
        | some i => i.moduleId != r.moduleId || i.port != r.port || i.lanePair != n
        | none => false) then 3
    else if planExpect b k == pair then 1
    else if allPorts.any fun q => q != k && planExpect b q == pair then 2
    else 3

/-- Log a check's result other than MATCH, once for each change, with the identity received (R839, R847). -/
def logCheck (s : State) (k res old : Nat) (r : Option Identity) : State :=
  if res = 1 || res = old then s
  else
    let d := match r with
      | some i => [k + 2 ^ 16 * res, i.moduleId + 2 ^ 16 * i.port, i.serial % 2 ^ 32, i.serial / 2 ^ 32 % 2 ^ 32]
      | none => [k + 2 ^ 16 * res]
    logEvent s { code := 0x22D0, data := d }

/-- The port becomes UP: credits are granted (R772, R839). DEDUCED, log entry 43. -/
def portUp (s : State) (k : Nat) : State :=
  let P := s.port k
  let credits := (List.range 10).map fun c => (c, classGrant c)
  let lps := tabMap P.lps fun _ l =>
    { l with up := true, retraining := false, locked := false, seen := false, credits, owed := [], old := l.rxq.length,
             lastAck := s.hub }
  logEvent (s.setPort k { P with st := .up, lps, trainedAt := [] }) { code := 0x12C2, data := fabData k 0 0 0 0 0 }

/-- The check of a port whose eight lane pairs have reported (R836 to R839, R841). -/
def portCheck (s : State) (k : Nat) : State :=
  match s.plan with
  | none => s
  | some b =>
    let P := s.port k
    let ids := allParts.filterMap fun n => (s.lp k n).identity
    let res := checkResult b k ids
    let r := ids.head?
    let s1 := s.setPort k { P with check := res, absentBy := none, neighbour := r.map fun i => (i.moduleId, i.port),
                                   inSlice := match r with | some i => s.inSlice i.moduleId | none => false,
                                   waived := planWaive b k }
    let s2 := logCheck s1 k res P.check r
    if res = 1 || planWaive b k then portUp s2 k
    else
      let P2 := s2.port k
      s2.setPort k { P2 with st := .down, retryAt := s.hub,
                             lps := tabMap P2.lps fun _ l => { l with locked := false, seen := false } }

/-- A lane pair trained from saved settings that meets another partner than its record names (R921, R922): the record is
rejected and the lane pair trains cold. -/
def partnerRejected (s : State) (k n : Nat) (i : Identity) : Bool :=
  s.item (laneItem k n) == .done && !s.boot.refined.contains (laneItem k n) &&
    match tabFind s.saved (laneItem k n) with
    | some r => r.partner != some i
    | none => false

/-- IDENTITY_RECEIVED (R835 to R841): a block with a wrong CRC counts for nothing; a retrain that meets another partner fails. -/
def execIdentityReceived (port : Fin 6) (lp : Fin 8) (block : List Byte) (s : State) : Host.Outcome State Fault Refusal :=
  let l := s.lp port lp
  next (match identityIn block with
    | none => s
    | some ident =>
      if !exchanging s port lp then s
      else if l.retraining then
        if l.identity = some ident then s.setLp port lp { l with seen := true, locked := true } else portDown s port lp .down
      else if partnerRejected s port lp ident then
        let s1 := logEvent s { code := 0x12F0, data := itemData s (laneItem port lp) }
        startCold (s1.setLp port lp { l with locked := false, seen := false }) (laneItem port lp)
      else
        let s1 := s.setLp port lp { l with identity := some ident, seen := true }
        if allParts.all fun n => (s1.lp port n).seen then portCheck s1 port else s1)

/-- ABSENT_LIMIT_EXPIRY: a port that has not been checked when the limit expires reads ABSENT (R837, R838). -/
def execAbsentLimitExpiry (port : Fin 6) (s : State) : Host.Outcome State Fault Refusal :=
  let P := s.port port
  next (match P.absentBy with
    | none => s
    | some t =>
      if s.hub < t then s
      else logCheck (s.setPort port { P with absentBy := none, check := 4 }) port 4 P.check none)

/-! Forwarding (R783, R784, R806 to R808). -/

/-- A packet that this module passes on. -/
def passing (s : State) (q : Packet) : Bool := q.ptype ≤ 3 && q.destModule != s.moduleId

/-- A passing reduction packet. -/
def reduces (q : Packet) : Bool := q.ptype == 1 && q.rtag != 0

/-- Answer a packet that has come on lane pair n of port k and goes no further (R779); ACKs and ABORTs are not answered. -/
def answer (s : State) (k n : Nat) (q : Packet) (status : Nat) : State :=
  if q.ptype ≤ 2 then sendAck (arrivalRejected s k n q status) n (s.ackOf q status) else s

/-- Add the arm's contribution and mark its bytes consumed (R807); an arm wholly consumed ends. -/
def useArm (s : State) (n a : Nat) (x : Arm) (q : Packet) : State × Packet :=
  let off := q.addr - x.base
  let y := { x with used := x.used ++ [(off, q.data.length)] }
  let P := s.part n
  let q1 := { q with data := addBytes x.bf16 q.data ((x.data.drop off).take q.data.length) }
  let s1 := s.setPart n { P with arms := tabSet P.arms a y }
  (if y.done then armEnded (dropArm s1 n a) n x.inst else s1, q1)

/-- Whether lane pair n of port k can take the packet now (R773). -/
def canSend (s : State) (k n src : Nat) (q : Packet) : Bool :=
  let l := s.lp k n
  q.units ≤ tabGet 0 l.credits q.cls && !l.txq.any fun e => e.1 == src && e.2.cls == q.cls

/-- A reduction packet that matches no live arm is held from now on, if it is not held yet (R808). -/
def holdPacket (s : State) (k n : Nat) (q : Packet) : State :=
  let l := s.lp k n
  if (tabFind l.heldAt q.cls).isNone then s.setLp k n { l with heldAt := tabSet l.heldAt q.cls s.hub } else s

/-- Forward the packet at position i of lane pair n of port k. DEDUCED, log entry 55. -/
def forward (s : State) (k n i : Nat) (q : Packet) : State :=
  match s.routePort q.destModule with
  | none => answer (takeHead s k n i q) k n q 4
  | some out =>
    if !s.portUsable out then answer (noteErr (takeHead s k n i q) out 29) k n q 4
    else
      let q1 := { q with vc := s.nextVc k q.vc out }
      if reduces q then
        match armMatch (s.part n) q with
        | none => holdPacket s k n q
        | some (a, x) =>
          if x.cancelAt.isSome then answer (takeHead s k n i q) k n q 6
          else if !canSend s out n k q1 then s
          else
            let r := useArm (takeHead s k n i q) n a x q1
            txFrom r.1 out n k r.2
      else if !canSend s out n k q1 then s
      else txFrom (takeHead s k n i q) out n k q1

/-- Forwarding has something to do with the packet at the head of its class: it can go, it ends here, or it is held from now on. A packet
that waits for credits or for an arm stands in the way of its own class alone (R773, R808). -/
def forwardable (s : State) (k n : Nat) (q : Packet) : Bool :=
  match s.routePort q.destModule with
  | none => true
  | some out =>
    let q1 := { q with vc := s.nextVc k q.vc out }
    if !s.portUsable out then true
    else if reduces q then
      match armMatch (s.part n) q with
      | none => (tabFind (s.lp k n).heldAt q.cls).isNone
      | some (_, x) => x.cancelAt.isSome || canSend s out n k q1
    else canSend s out n k q1

/-- PACKET_FORWARD: of the first packet at the head of a class that forwarding has something to do with (R783). -/
def execPacketForward (port : Fin 6) (lp : Fin 8) (s : State) : Host.Outcome State Fault Refusal :=
  next (match headPacket (s.lp port lp) (fun q => passing s q && forwardable s port lp q) with
    | none => s
    | some (i, q) => forward s port lp i q)

/-- REDUCE_HOLD_EXPIRY: a reduction packet that has been held for 1 ms without an arm is discarded (R808). -/
def execReduceHoldExpiry (port : Fin 6) (lp : Fin 8) (s : State) : Host.Outcome State Fault Refusal :=
  let held (q : Packet) : Bool := passing s q && reduces q &&
    (match tabFind (s.lp port lp).heldAt q.cls with | some t => t + us 1000 ≤ s.hub | none => false)
  next (match headPacket (s.lp port lp) held with
    | some (i, q) =>
      if (armMatch (s.part lp) q).isSome then s
      else
        let s1 := noteErr (takeHead s port lp i q) port 28
        answer (logEvent s1 { code := 0x12C7, data := fabData port lp 5 q.srcModule q.srcCtx 0 }) port lp q 5
    | none => s)

/-- ARM_CANCEL_EXPIRY: arms cancelled 2 ms ago match no more (R813). -/
def execArmCancelExpiry (p : Fin 8) (s : State) : Host.Outcome State Fault Refusal :=
  let P := s.part p
  next (activateArms (s.setPart p { P with arms := P.arms.filter fun e =>
    match e.2.cancelAt with | some t => P.count < t | none => true }) p)

/-! Arrivals (R790 to R795, R945). -/

/-- An arrival for a scratchpad of a partition in A2 or A3 is held until the partition has left the state (R945). -/
def heldForExit (s : State) (q : Packet) : Bool := q.ptype ≤ 1 && q.dstSpace != 0 && 2 ≤ (s.part q.dstDie).act

/-- Take the packet of a type at the head of its class that is addressed to this module, apply it and answer it. -/
def arrival (s : State) (k n ty : Nat) : State :=
  match headPacket (s.lp k n) (fun q => q.ptype == ty && q.destModule == s.moduleId) with
  | none => s
  | some (i, q) =>
    if heldForExit s q then s
    else
      let r := deliver (takeHead s k n i q) k n q
      sendAck r.1 n (r.1.ackOf q r.2)

/-- WRITE_ARRIVAL. -/
def execWriteArrival (port : Fin 6) (lp : Fin 8) (s : State) : Host.Outcome State Fault Refusal := next (arrival s port lp 0)

/-- ADD_ARRIVAL. -/
def execAddArrival (port : Fin 6) (lp : Fin 8) (s : State) : Host.Outcome State Fault Refusal := next (arrival s port lp 1)

/-- SIGNAL_ARRIVAL. -/
def execSignalArrival (port : Fin 6) (lp : Fin 8) (s : State) : Host.Outcome State Fault Refusal := next (arrival s port lp 2)

/-- FABRIC_ACK_ARRIVAL (R779, R798, R799): the ACK has come back on the lanes of its source die. -/
def execFabricAckArrival (port : Fin 6) (lp : Fin 8) (s : State) : Host.Outcome State Fault Refusal :=
  next (match headPacket (s.lp port lp) (fun q => q.ptype == 3 && q.destModule == s.moduleId) with
    | none => s
    | some (i, q) => takeAck (takeHead s port lp i q) lp q)

/-- Pump every lane pair. -/
def pumpAll (s : State) : State := allPorts.foldl (fun s k => allParts.foldl (fun s n => pump s k n) s) s

/-- ABORT (R817, R1021): a new one is passed to the MCP and flooded on, a repeat of one seen within the last 10 s is discarded, and has
been seen now. -/
def execAbort (port : Fin 6) (lp : Fin 8) (s : State) : Host.Outcome State Fault Refusal :=
  next (match headPacket (s.lp port lp) (fun q => q.ptype == 4) with
    | none => s
    | some (i, q) =>
      let s1 := takeHead s port lp i q
      let seen := s1.abortsSeen.filter fun a => s.hub < a.2.2 + 250000000
      let same (a : Nat × Nat × Nat) : Bool := a.1 == q.srcModule && a.2.1 == q.rtag
      if seen.any same then { s1 with abortsSeen := seen.map fun a => if same a then (a.1, a.2.1, s.hub) else a }
      else
        let s2 := floodAbort { s1 with abortsSeen := seen ++ [(q.srcModule, q.rtag, s.hub)] } q (some port.val)
        pumpAll (jobAbortLocal s2 q.addrLo q.rtag q.low))

/-! Disabling a port (R818 to R820). -/

/-- FP_CONTROL.DISABLE is written 1. -/
def disablePort (s : State) (k : Nat) : State :=
  let P := s.port k
  if P.disable then s else s.setPort k { P with disable := true, disabling := some s.hub }

/-- Discard the packets queued for port k, each answered ROUTE_DOWN (R819): those of a local die at once, the others with an
ACK to their source; FP_ERR_STATUS notes it. -/
def discardQueued (s : State) (k : Nat) : State :=
  allParts.foldl (fun s n =>
    let q := (s.lp k n).txq
    let s1 := s.setLp k n { s.lp k n with txq := [], replay := [] }
    q.foldl (fun s e =>
      if 3 ≤ e.2.ptype then s
      else if e.1 = 6 then takeAck (noteErr s k 29) n (s.ackOf e.2 4)
      else answer (noteErr s k 29) e.1 n e.2 4) s1) s

/-- The lanes of a port go quiet and its lane pairs lose what they held to send (R819); what waited to be sent there is answered
ROUTE_DOWN, since the port carries nothing any more. No event of R822 is logged (DEDUCED, log entries 137, 138). -/
def quietPort (s : State) (k : Nat) (st : PortSt) : State :=
  let s1 := discardQueued (s.setPort k { s.port k with st }) k
  let s2 := allParts.foldl (fun s n => s.setLp k n
    { s.lp k n with up := false, retraining := false, locked := false, seen := false, identAt := none, partialRx := [],
                    txq := [], replay := [], credits := [], owed := [], nakSent := false, naks := 0, txSeq := 0, rxSeq := 0 }) s1
  let P := s2.port k
  s2.setPort k { P with st, disabling := none, replan := false, trainedAt := [], retryAt := s.hub }

/-- Node i has staged or released packets that are still to go out by port k (R818). -/
def staysFor (s : State) (k : Nat) (i : Inst) : Bool :=
  (i.staged.isSome && (i.st == .running || (i.st == .committing && !i.step3)) && s.routePort i.destModule == some k) ||
    (!i.st.resolved && i.unsent.any fun q => s.routePort q.destModule == some k)

/-- A port has nothing staged or queued and nothing unacknowledged (R818, R819). -/
def portDrained (s : State) (k : Nat) : Bool :=
  allParts.all fun n => (s.lp k n).txq == [] && (s.lp k n).replay == [] && !(s.part n).insts.any fun e => staysFor s k e.2

/-- A port trains afresh, with a new absent limit (R838). -/
def retrainPort (s : State) (k : Nat) : State :=
  match s.plan with
  | some b => startPort (s.setPort k { s.port k with absentBy := some (s.hub + 25000000 * planLimit b) }) k
  | none => s.setPort k { s.port k with st := .down }

/-- PORT_DISABLE_DONE (R819): the port becomes DISABLED; one that a new plan has disabled trains again (R834). -/
def execPortDisableDone (port : Fin 6) (s : State) : Host.Outcome State Fault Refusal :=
  next (match (s.port port).disabling with
    | none => s
    | some t =>
      if !portDrained s port && s.hub < t + us 2000 then s
      else if (s.port port).disable then quietPort s port .disabled
      else retrainPort (quietPort s port .down) port)

/-- FP_CONTROL.DISABLE is written 0: a disabled port trains as Morning does (R820), its absent limit counts from here (R838). The
disabling that a new plan asks for goes on (R834). DEDUCED, log entry 52. -/
def enablePort (s : State) (k : Nat) : State :=
  let P := s.port k
  if !P.disable then s
  else
    let s1 := s.setPort k { P with disable := false, disabling := if P.replan then P.disabling else none }
    if P.st = .disabled then retrainPort s1 k else s1

/-! The cabling plan in service (R834). -/

/-- Ports that a new plan affects: every port where the grid or the cube table differs, else those that expect another
neighbour. DEDUCED, log entry 54. -/
def planAffects (old new : List Byte) : List Nat :=
  if recW old 0xC ≠ recW new 0xC || (old.drop 0x40).take 512 ≠ (new.drop 0x40).take 512 then allPorts
  else allPorts.filter fun k => planExpect old k != planExpect new k

/-- What a plan says beside its module's identifier and its CRC. -/
def planRest (b : List Byte) : List Byte := b.take 8 ++ natLe 2 (bitsOf (recW b 8) 31 16) ++ (b.drop 0xC).take (0x240 - 0xC)

/-- A plan takes effect but for its MODULE_ID: affected ports are disabled as R819 gives and train afresh once that is done, the others
take the new waivers and slice, and limits still running the new absent limit; a port that is UP without MATCH and no longer waived goes DOWN (R839). -/
def applyPlan (s : State) (old new : List Byte) : State :=
  let s1 := { s with plan := some new }
  let s2 := allPorts.foldl (fun s k =>
    let P := s.port k
    let sl := match P.neighbour with | some (m, _) => s.inSlice m | none => false
    s.setPort k { P with waived := planWaive new k, inSlice := sl
                         absentBy := P.absentBy.map (· + 25000000 * planLimit new - 25000000 * planLimit old) }) s1
  let aff := planAffects old new
  let s3 := aff.foldl (fun s k =>
    if (s.port k).st == .disabled then s else s.setPort k { s.port k with disabling := some s.hub, replan := true }) s2
  let s4 := allPorts.foldl (fun s k =>
    let P := s.port k
    if P.st == .up && P.check != 1 && !P.waived && P.disabling.isNone then portDown s k 0 .down else s) s3
  logEvent (extendMr s4 3 (Config.sha256 new)) { code := 0x12D2, data := [recW new 4] }

/-- CABLING_PLAN_WRITE, component 0x0010: the record is stored; one that is invalid is logged and changes nothing in effect, of another
one all but a new MODULE_ID takes effect, which waits for the next bring-up (R834, R880, R882, R883). One written while no plan is in
effect, or before the MCP runs, waits for the next bring-up too. DEDUCED, log entry 53. -/
def execCablingPlanWrite (record : List Byte) (s : State) : Host.Outcome State Fault Refusal :=
  let s1 := { s with planStored := some record, planWaits := true, fwUpdates := s.fwUpdates ++ [0x10] }
  next (if !s.mcRuns then s
    else if !s.mcpReady then s1
    else
      match planFault record, s.plan with
      | some o, _ => logEvent s1 { code := 0x22D1, data := [o] }
      | none, some old =>
        let s2 := { s1 with planWaits := planId record != s.moduleId }
        if planRest record = planRest old then s2 else applyPlan s2 old record
      | none, none => s1)

end Sys2Proof.Machine
end

