-- ==== Sys2Proof/Machine/HostIo.lean ====
section
/-! DEFINITION. PCIe and Ethernet: register writes, BAR2, function resets, SR-IOV, ATS, MSI-X, RoCE v2 connections (chapters 18
and 24). -/

namespace Sys2Proof.Machine

/-! Register writes (R1101). -/

/-- Log an access that R24 refuses, with function, context 0 and offset (R893). -/
def barReject (s : State) (k o : Nat) : State := logEvent s { code := 0x12E5, data := [k, 0, o] }

/-- A write of function k to the 32-bit register at BAR0 offset o: where R24 refuses it, it is discarded and logged. -/
def barGuard (s : State) (k o : Nat) (f : State → State) : State :=
  if !s.barUp || !s.fnLive k then s else if barInvalid s k o 4 then barReject s k o else f s

/-- Write PT_FENCE_SEL of partition p for function k (R1097, R1098). -/
def setFenceSel (s : State) (k p v : Nat) : State :=
  let f := s.fn k
  s.setFn k { f with fenceSel := tabSet f.fenceSel p (v % 64) }

/-- Clear the mask of a vector; a pending message is then sent once (R869). -/
def unmask (s : State) (k v : Nat) : State :=
  let f := s.fn k
  let e : Vec := tabGet {} f.vecs v
  let s1 := s.setFn k { f with vecs := tabSet f.vecs v { e with masked := false, pending := false } }
  if !e.pending then s1
  else if !f.msixEn then s1
  else raiseVector s1 k v

/-- Write a word of the MSI-X table. -/
def writeMsix (s : State) (k o v : Nat) : State :=
  let f := s.fn k
  let n := o / 16
  let e : Vec := tabGet {} f.vecs n
  let put (e : Vec) : State := s.setFn k { f with vecs := tabSet f.vecs n e }
  match o % 16 / 4 with
  | 0 => put { e with addr := e.addr / 2 ^ 32 * 2 ^ 32 + v }
  | 1 => put { e with addr := e.addr % 2 ^ 32 + v * 2 ^ 32 }
  | 2 => put { e with data := v }
  | _ => if bitOf v 0 then put { e with masked := true } else unmask s k n

/-- CMI_REQ_CTRL_GO. -/
def execCmiReqCtrlGo (fn : Fin 9) (s : State) : Host.Outcome State Fault Refusal :=
  next (barGuard s fn 0x3000 fun s => setGo s fn)

/-- CMI_RSP_VALID_CLEAR. -/
def execCmiRspValidClear (fn : Fin 9) (s : State) : Host.Outcome State Fault Refusal :=
  next (barGuard s fn 0x3004 fun s => clearRsp s fn)

/-- DBG_RESUME.GO: at level 2 a partition that a full-state save holds goes on from its stopped state (R640, R1060). -/
def resumePart (s : State) (p : Nat) : State :=
  let P := s.part p
  if s.dbgLevel = 2 && P.frozen && P.saveOp.isNone then thaw (s.setPart p { P with frozen := false }) p else s

/-- Write a 32-bit word of function k's BAR0. A field that R1101 does not list takes nothing. -/
def writeWord (s : State) (k o v : Nat) : State :=
  if (regWord s k o).isNone then s
  else if 0x1000 ≤ o && o < 0x2000 then
    let f := s.fn k
    let b := o - 0x1000
    s.setFn k { f with reqBuf := memWrite f.reqBuf b (natLe 4 v)
                       rewritten := if f.go && (tabFind f.rewritten b).isNone then tabSet f.rewritten b (memWord f.reqBuf b) else f.rewritten }
  else if o = 0x3000 then (if bitOf v 31 then setGo s k else s)
  else if o = 0x3004 then (if bitOf v 31 then clearRsp s k else s)
  else if o = 0x300C then s.setFn k { s.fn k with irqEn := bitOf v 31, irqVec := v % 2048 }
  else if 0x10000 ≤ o && o < 0x18000 then writeMsix s k (o - 0x10000) v
  else if 0x100000 ≤ o && o < 0x180000 then
    (if o % 65536 = 0x48 then setFenceSel s k ((o - 0x100000) / 65536) v else s)
  else if 0x200000 ≤ o && o < 0x218000 then
    let port := (o - 0x200000) / 0x4000
    if o % 0x4000 = 4 then (if bitOf v 0 then disablePort s port else enablePort s port)
    else if o % 0x4000 = 0x40 then
      let P := s.port port
      let clear := v % 2 ^ 32 / 2 ^ 28 * 2 ^ 28
      s.setPort port { P with errStatus := P.errStatus - Nat.land P.errStatus clear }
    else s
  else if o = 0x300040 then { s with log := { s.log with page := v % 32 } }
  else if o = 0x400000 then { s with trcEn := bitOf v 31 }
  else if o = 0x800008 then
    let s1 := { s with sec := { s.sec with resumePart := v % 8 } }
    if bitOf v 31 then resumePart s1 (v % 8) else s1
  else s

/-- The nodes of function k, as partition and instance, that wait for the translation of a page that `pick` names. -/
def xlWaiters (s : State) (k : Nat) (pick : Nat → Bool) : List (Nat × Nat) :=
  allParts.flatMap fun p =>
    ((s.part p).insts.filter fun e => e.2.xlWait.any pick && (s.ctx e.2.ctx).owner == k).map fun e => (p, e.1)

/-- The nodes of function k wait no longer for the pages that `pick` names, and go on where they wait for no other (R509, R865). -/
def pagesHere (s : State) (k : Nat) (pick : Nat → Bool) : State :=
  (xlWaiters s k pick).foldl (fun s x =>
    translated (s.modInst x.1 x.2 fun i => { i with xlWait := i.xlWait.filter (!pick ·) }) x.1 x.2) s

/-- ATS Enable of function k changes: without ATS no translation is held or awaited, and addresses go out as they are (R865). -/
def setAts (s : State) (k : Nat) (en : Bool) : State :=
  let f := s.fn k
  if en then s.setFn k { f with atsEn := true }
  else gate s (pagesHere (s.setFn k { f with atsEn := false, ats := [], xlReq := [] }) k fun _ => true)

/-- Fields of configuration space that the model gives offsets beyond BAR0 (DESIGN CHOICE, log entry 23), as `cfgWord` lists them. -/
def writeConfig (s : State) (k o v : Nat) : State :=
  let f := s.fn k
  if o = 0x1000000 then
    let s1 := s.setFn k { f with msixEn := bitOf v 0, msixMask := bitOf v 1 }
    if bitOf v 0 && !bitOf v 1 then
      (f.vecs.filter fun e => e.2.pending && !e.2.masked).foldl (fun s e => unmask s k e.1) s1
    else s1
  else if o = 0x1000004 then setAts s k (bitOf v 0)
  else if o = 0x1000008 then s.setFn k { f with relaxed := bitOf v 0 }
  else if o = 0x1000020 then s.setFn k { f with acsCtl := Nat.land v acsCap }
  else if o = 0x1000018 && k = 0 && (v = 1 || v = 0x10) then { s with pcie := { s.pcie with pageSize := v } }
  else s

/-- A configuration request to function k: until the end of Sunrise it is answered with Request Retry Status (R902). -/
def cfgRequest (s : State) (k : Nat) (f : State → State) : State :=
  if !s.pins.rails then s
  else if !s.boot.cmi then { s with cpls := s.cpls ++ [{ fn := k, rrs := true, bytes := [] }] }
  else f s

/-- REGISTER_WRITE: a write of 4 or 8 bytes; of one that BAR0 does not accept nothing is written, and it is logged (R24). -/
def execRegisterWrite (fn : Fin 9) (offset width : Nat) (value : W64) (s : State) : Host.Outcome State Fault Refusal :=
  let v := value.toNat
  next (if 0x1000000 ≤ offset then
      cfgRequest s fn fun s => if s.fnLive fn then writeConfig s fn offset (v % 2 ^ 32) else s
    else if !s.barUp || !s.fnLive fn then s
    else if barInvalid s fn offset width then barReject s fn offset
    else
      let s1 := writeWord s fn offset (v % 2 ^ 32)
      if width = 8 then writeWord s1 fn (offset + 4) (v / 2 ^ 32) else s1)

/-- PT_FENCE_SEL_WRITE (R599, R1097). -/
def execPtFenceSelWrite (fn : Fin 9) (p : Fin 8) (value : W32) (s : State) : Host.Outcome State Fault Refusal :=
  next (barGuard s fn (0x100048 + 0x10000 * p.val) fun s => setFenceSel s fn p value.toNat)

/-- FP_CONTROL_DISABLE, by the PF (R819). -/
def execFpControlDisable (port : Fin 6) (s : State) : Host.Outcome State Fault Refusal :=
  next (barGuard s 0 (0x200004 + 0x4000 * port.val) fun s => disablePort s port)

/-- FP_CONTROL_ENABLE, by the PF (R820). -/
def execFpControlEnable (port : Fin 6) (s : State) : Host.Outcome State Fault Refusal :=
  next (barGuard s 0 (0x200004 + 0x4000 * port.val) fun s => enablePort s port)

/-- DBG_RESUME_GO, by the PF (R640, R1061). -/
def execDbgResumeGo (p : Fin 8) (s : State) : Host.Outcome State Fault Refusal :=
  next (barGuard s 0 0x800008 fun s => resumePart { s with sec := { s.sec with resumePart := p } } p)

/-- MSIX_UNMASK (R869). -/
def execMsixUnmask (fn : Fin 9) (vector : Fin 2048) (s : State) : Host.Outcome State Fault Refusal :=
  next (barGuard s fn (0x1000C + 16 * vector.val) fun s => unmask s fn vector)

/-- BAR0_ACCESS_INVALID (R24): the access completes, a read returns all ones, the event is logged. -/
def execBar0AccessInvalid (fn : Fin 9) (offset width : Nat) (write : Bool) (s : State) : Host.Outcome State Fault Refusal :=
  next (if !s.barUp || !s.fnLive fn || !barInvalid s fn offset width then s
    else
      let s1 := barReject s fn offset
      if write then s1 else { s1 with cpls := s1.cpls ++ [{ fn := fn, bytes := List.replicate width 0xFF }] })

/-! BAR2 (R857 to R860). -/

/-- The window entry of function k that holds [o, o + n). -/
def windowOf (s : State) (k o n : Nat) : Option Window :=
  ((s.fn k).bar2.find? fun e => e.2.off ≤ o && o + n ≤ e.2.off + e.2.bytes).map (·.2)

/-- Log a BAR2 access without mapping or permission (R858). -/
def barUnmapped (s : State) (k c o : Nat) : State :=
  logEvent s { code := 0x12E0, ctx := c, data := [k, c, o % 2 ^ 32, o / 2 ^ 32] }

/-- The partition number that stands for the hub as requester: none of the eight. -/
def hubUnit : Nat := 8

/-- A memory access from outside can reach the window: the module runs and is not in A4. DEDUCED, log entry 74. -/
def windowUp (s : State) : Bool := s.ready && !s.power.a4

/-- BAR2_READ. -/
def execBar2Read (fn : Fin 9) (offset len : Nat) (s : State) : Host.Outcome State Fault Refusal :=
  let cpl (s : State) (ep : Bool) (bs : List Byte) : State := { s with cpls := s.cpls ++ [{ fn := fn, ep, bytes := bs }] }
  next (if !s.barUp || !s.fnLive fn || bar2Bytes (s.fn fn) < offset + len then s
    else
      match windowOf s fn offset len with
      | none => cpl (barUnmapped s fn 0 offset) false (List.replicate len 0xFF)
      | some w =>
        let bad (s : State) : State := cpl (barUnmapped s fn w.ctx offset) false (List.replicate len 0xFF)
        if !windowUp s then bad s
        else
          match readDva s hubUnit w.ctx (s.ctx w.ctx).mapVer (w.dva + (offset - w.off)) len 17 with
          | .error (_, s1) => bad s1
          | .ok (bs, s1) => if bs.any (·.2) then cpl s1 true [] else cpl s1 false (bs.map (·.1)))

/-- BAR2_WRITE. -/
def execBar2Write (fn : Fin 9) (offset : Nat) (bytes : List Byte) (s : State) : Host.Outcome State Fault Refusal :=
  next (if !s.barUp || !s.fnLive fn || bar2Bytes (s.fn fn) < offset + bytes.length then s
    else
      match windowOf s fn offset bytes.length with
      | none => barUnmapped s fn 0 offset
      | some w =>
        if !windowUp s || !w.writable then barUnmapped s fn w.ctx offset
        else
          match writeDva s hubUnit w.ctx (s.ctx w.ctx).mapVer (w.dva + (offset - w.off)) (good bytes) with
          | .error _ => barUnmapped s fn w.ctx offset
          | .ok s1 => s1)

/-- BAR2_RESIZE (R862): the sizes of the BAR table, from 64 GiB on; every window entry of the function goes. -/
def execBar2Resize (fn : Fin 9) (log2GiB : Nat) (s : State) : Host.Outcome State Fault Refusal :=
  let top := if fn = 0 then 10 else 8
  next (cfgRequest s fn fun s =>
    if s.fnLive fn && 6 ≤ log2GiB && log2GiB ≤ top then s.setFn fn { s.fn fn with bar2Log2 := log2GiB - 6, bar2 := [] } else s)

/-! Function resets and SR-IOV (R564, R597, R598, R850 to R852). -/

/-- The registers and selections of a function after its reset: the buffers keep their bytes, window entries go with their
contexts. DEDUCED, log entry 79. -/
def resetFn (f : Fn) : Fn := { reqBuf := f.reqBuf, rspBuf := f.rspBuf, bar2 := f.bar2 }

/-- A function reset (R564, R949): requests and events go without replies, long operations that have begun lose their requester,
each context of the function is torn down with DRAIN_US 0, and one whose teardown runs drains no longer than that. -/
def functionReset (s : State) (k : Nat) : State :=
  let s1 := { s.setFn k (resetFn (s.fn k)) with
    taken := s.taken.filter fun e => e.1 != k
    ops := tabMap s.ops fun _ o => if o.fn = k then { o with fn := 9 } else o }
  let mine (e : Nat × Ctx) : Bool := e.2.owner == k && e.1 != 0
  let cut (c : Nat) (x : Ctx) : Ctx :=
    if mine (c, x) && x.st == .draining then { x with drainBy := min x.drainBy (s1.hub + us 12004) } else x
  let s2 := { s1 with ctxs := tabMap s1.ctxs cut }
  let cs := (s2.ctxs.filter fun e => e.2.st == .open && mine e).map (·.1)
  cs.foldl (fun s c => beginTeardown s c 0 none) s2

/-- VF Enable and NumVFs change: a VF that goes is reset, its partitions return to the PF after its teardowns (R597, R598). -/
def setVfs (s : State) (en : Bool) (n : Nat) : State :=
  let gone := [1, 2, 3, 4, 5, 6, 7, 8].filter fun k => s.fnLive k && !(en && k ≤ n)
  let s1 := { s with pcie := { s.pcie with vfEn := en, numVfs := n } }
  gone.foldl functionReset s1

/-- FUNCTION_LEVEL_RESET; of the PF it clears VF Enable (R852). -/
def execFunctionLevelReset (fn : Fin 9) (s : State) : Host.Outcome State Fault Refusal :=
  next (if !s.fnLive fn then s
    else
      let s1 := functionReset s fn
      if fn = 0 then setVfs s1 false 0 else s1)

/-- PCIE_HOT_RESET (R851): a function reset of every function. -/
def execPcieHotReset (s : State) : Host.Outcome State Fault Refusal := next (setVfs (functionReset s 0) false 0)

/-- VF_ENABLE_CHANGE (R597, R598, R902). -/
def execVfEnableChange (enable : Bool) (numVfs : Fin 9) (s : State) : Host.Outcome State Fault Refusal :=
  next (cfgRequest s 0 fun s => setVfs s enable numVfs)

/-- PCIE_LINK_TRAINED (R849). -/
def execPcieLinkTrained (gts lanes : Nat) (s : State) : Host.Outcome State Fault Refusal :=
  let s1 := { s with pcie := { s.pcie with gts, lanes } }
  next (if gts < 640 || lanes < 16 then logEvent s1 { code := 0x12E4, data := [0, 0, gts, lanes] } else s1)

/-! ATS (R865 to R867). -/

/-- The 4 KiB page of `addr` holds a byte of [a, a + n). -/
def pageIn (a n addr : Nat) : Bool := n != 0 && a / 4096 ≤ addr / 4096 && addr / 4096 ≤ (a + n - 1) / 4096

/-- Node i has taken the translation of a page for a request that it has yet to make: a COPY that waits for other pages, a SIGNAL to
host memory that has not committed. -/
def Inst.stillNeeds (i : Inst) (g : Nat) : Bool :=
  i.st == .running &&
    ((i.xlAsked && i.srcKind == 1 && pageIn i.src i.length (4096 * g)) ||
      (i.hostWait.isSome && pageIn i.dst i.length (4096 * g)) ||
      (i.ty == 3 && i.sTarget == 2 && pageIn (wd64 i.words 8) i.sBytes (4096 * g)))

/-- The translation of page g that function k loses is asked for again where nodes still need it (R865, R866). -/
def untranslate (s : State) (k g : Nat) : State :=
  let mine (i : Inst) : Bool := (s.ctx i.ctx).owner == k && i.stillNeeds g
  let back (i : Inst) : Inst := if mine i then { i with xlWait := setIns i.xlWait g, ended := false } else i
  let s1 := { s with parts := tabMap s.parts fun _ P => { P with insts := tabMap P.insts fun _ i => back i } }
  if allParts.any fun p => (s.part p).insts.any fun e => mine e.2 then askPages s1 k [g] else s1

/-- ATS_INVALIDATION: the translation leaves the cache, and the Invalidation Completion goes out at once, since every request that a step
makes has completed with it: none of the 32 that a function may have stays outstanding (R866; DEDUCED, log entry 132). -/
def execAtsInvalidation (fn : Fin 9) (addr : Nat) (s : State) : Host.Outcome State Fault Refusal :=
  let g := addr / 4096
  let f := s.fn fn
  let s1 := s.setFn fn { f with ats := setDel f.ats g, invDone := f.invDone ++ [g] }
  next (if f.ats.contains g then untranslate s1 fn g else s1)

/-- Node i needs the translation of the page of `addr`: a COPY with a host side, a WAIT, COND or LOOP on a host word, a SIGNAL over
PCIe. -/
def Inst.needsHost (i : Inst) (addr : Nat) : Bool :=
  (i.ty == 3 && i.sTarget == 2 && pageIn (wd64 i.words 8) i.sBytes addr) ||
  (i.ty == 1 && ((i.srcKind == 1 && pageIn i.src i.length addr) || (i.dstKind == 1 && pageIn i.dst i.length addr))) ||
  (((i.ty == 2 && i.kind) || i.ty == 4 || (i.ty == 5 && i.kind)) && i.cHost && pageIn i.cAddr 8 addr)

/-- The contexts of function k on partition p whose ring or consumer count lies in the page of `addr` (R542). -/
def ringCtxs (s : State) (k p addr : Nat) : List Nat :=
  (s.ctxsOn p).filter fun c => (s.ctx c).owner == k &&
    match (s.cp c p).ring with
    | some r => pageIn r.base (32 * 2 ^ r.sizeLog2) addr || pageIn r.cons 4 addr
    | none => false

/-- A refused translation of function k: the running nodes that wait for the page, and node n of partition p where it needs it, end
without commit (R867); where no node needs it, the completion path breaks of each context on p that has its ring or consumer count
there (R546). -/
def xlateRefused (s : State) (k p n addr : Nat) : State :=
  let f := s.fn k
  let s1 := s.setFn k { f with xlReq := setDel f.xlReq (addr / 4096) }
  let named := match s.inst? p n with
    | some i => if i.st == .running && !i.ended && i.needsHost addr && (s.ctx i.ctx).owner == k then [(p, n)] else []
    | none => []
  match (xlWaiters s k (· == addr / 4096) ++ named).eraseDups with
  | [] =>
    (ringCtxs s k p addr).foldl (fun s c => breakPath s c p (match s.inst? p n with | some i => i.data | none => [])) s1
  | vs => vs.foldl (fun s x => answered s x.1 x.2 (.refused addr)) s1

/-- A translation of function k has come: the cache takes it, and gives up another where it is full (R865); the nodes that wait for it
go on (R509; DEDUCED, log entry 132). -/
def xlateDone (s : State) (k addr : Nat) : State :=
  let g := addr / 4096
  let f := s.fn k
  let old := if 2048 ≤ f.ats.length && !f.ats.contains g then f.ats.drop 1 else f.ats
  gate s (pagesHere (s.setFn k { f with ats := setIns old g, xlReq := setDel f.xlReq g }) k (· == g))

/-- ATS_TRANSLATION_COMPLETION: the cache of 2,048 takes a translation; a refusal ends the nodes that needed it (R865, R867). -/
def execAtsTranslationCompletion (fn : Fin 9) (p : Fin 8) (inst addr : Nat) (ok : Bool) (s : State) :
    Host.Outcome State Fault Refusal :=
  next (if !(s.fn fn).atsEn then s
    else if ok then xlateDone s fn addr
    else xlateRefused s fn p inst addr)

/-! RoCE v2 connections (R872 to R879). -/

/-- Local address ADDR_IDX of a port, as the port uses it now (R872, R884, R932). -/
def localAddr (s : State) (w : List Nat) : List Byte :=
  ((tabGet [] s.ethAddr (bitsOf (wd w 0) 31 31)).drop (0x10 + 20 * bitsOf (wd w 0) 17 16)).take 16

/-- CONN_OPEN (R872, R874, R884). -/
def execConnOpen (fn : Fin 9) (s : State) : Host.Outcome State Fault Refusal :=
  next (runOp s fn 0x0120 fun s r =>
    let w := r.payload
    checked s fn r
      [ reservedCheck [0x0FFC1FC0, 0xFF000000, 0xFF000000, 0xFF000000, 0, 0, 0, 0, 0, 0xFFFF0000, 0, 0xFFFFF000, 0, 0xFFFF0000] w 0x0110,
        (2 ^ 48 < wd64 w 12 + wd64 w 14, 0x0110, atWord 14),
        (1024 ≤ s.conns.length || 64 ≤ (s.conns.filter fun e => e.2.ctx == r.ctx).length, 0x17, noField) ]
      (match freshId s (fun h => (tabFind s.conns h).isSome) 1 4294967295 s.conns.length with
        | none => refuseMsg s fn r 0x17 noField
        | some (h, s1) =>
          let a := s1.takeFree
          let b := a.2.takeFree
          let o := beginOp b.2 fn r [] h 0
          let c : Conn := { ctx := r.ctx, fn := fn, words := w, qpn := a.1 % 2 ^ 24, key := b.1 % 2 ^ 32, op := o.2, addr := localAddr s w }
          { o.1 with conns := tabSet o.1.conns h c }))

/-- CONN_READY: the queue pair is ready to send (R872, R873), where a teardown has not ended its CONN_OPEN (R572). -/
def execConnReady (handle : Nat) (s : State) : Host.Outcome State Fault Refusal :=
  next (match tabFind s.conns handle with
    | none => s
    | some c =>
      if c.st != .opening || (tabFind s.ops c.op).isNone then s
      else endOp { s with conns := tabSet s.conns handle { c with st := .ready } } c.op 0 [handle, c.qpn, c.key])

/-- A load or a repair reads shards over connection h (R733, R879). -/
def fetched (s : State) (h : Nat) : Bool :=
  s.loads.any (fun e => wSource e.2.words == 2 && wd e.2.words 4 == h) ||
  s.repairs.any fun r => match genOf s r.ctx r.binding r.gen with | some w => w.srcKind == 2 && w.conn == h | none => false

/-- An unresolved node, a load or a repair uses connection h (R879). -/
def connUsed (s : State) (h : Nat) : Bool :=
  allParts.any (fun p => (s.part p).insts.any fun e => e.2.overRdma && !e.2.st.resolved && wd e.2.words 7 == h) || fetched s h

/-- CONN_CLOSE (R879). DEDUCED, log entry 78. -/
def execConnClose (fn : Fin 9) (s : State) : Host.Outcome State Fault Refusal :=
  next (runOp s fn 0x0121 fun s r =>
    let h := wd r.payload 0
    checked s fn r
      [ (match tabFind s.conns h with | some c => c.ctx != r.ctx || c.st == .opening | none => true, 0x16, atWord 0),
        (connUsed s h, 0x0111, atWord 0) ]
      (okReply { s with conns := tabDel s.conns h } fn r []))

/-- An inbound request passes key, window and access type (R875). -/
def inboundOk (c : Conn) (key a n : Nat) (write : Bool) : Bool :=
  let dva := wd64 c.words 12
  c.st == .ready && key == c.key && dva ≤ a && a + n ≤ dva + wd64 c.words 14 && wd64 c.words 14 != 0 &&
    bitOf (wd c.words 0) (if write then 30 else 29)

/-- An inbound request is answered with a remote access error NAK (R875, R893). -/
def inboundNak (s : State) (h : Nat) (c : Conn) (a : Nat) : State :=
  logEvent { s with ethOut := s.ethOut ++ [{ conn := h, kind := 3, addr := a, ctx := c.ctx, epoch := (s.ctx c.ctx).epoch }] }
    { code := 0x12E3, ctx := c.ctx, data := [c.fn + 65536 * c.ctx, a % 2 ^ 32, a / 2 ^ 32, h] }

/-- Count the bytes of an inbound transfer on the Ethernet regulators of the partitions whose stacks hold them (R607; DEDUCED, log
entry 16). -/
def chargeOwners (s : State) (c a n : Nat) : State :=
  (pieces a n).foldl (fun t x =>
    match translate s c (s.ctx c).mapVer x.1 false with
    | .ok (q, _) => charge t q 9 x.2
    | .error _ => t) s

/-- Serve an inbound write; `k` goes on once the bytes are visible. -/
def inboundWrite (s : State) (h key a : Nat) (bs : List Byte) (k : State → Conn → State) : State :=
  match tabFind s.conns h with
  | none => s
  | some c =>
    if !windowUp s || !inboundOk c key a bs.length true then inboundNak s h c a
    else
      match writeDva s hubUnit c.ctx (s.ctx c.ctx).mapVer a (good bs) with
      | .error _ => inboundNak s h c a
      | .ok s1 => gate s (k (chargeOwners s1 c.ctx a bs.length) c)

/-- RDMA_WRITE_INBOUND (R875). -/
def execRdmaWriteInbound (conn : Nat) (key : W32) (addr : Nat) (bytes : List Byte) (s : State) : Host.Outcome State Fault Refusal :=
  next (inboundWrite s conn key.toNat addr bytes fun s _ => s)

/-- RDMA_READ_INBOUND (R875). Poisoned data is not returned as good. DEDUCED, log entry 75. -/
def execRdmaReadInbound (conn : Nat) (key : W32) (addr len : Nat) (s : State) : Host.Outcome State Fault Refusal :=
  next (match tabFind s.conns conn with
    | none => s
    | some c =>
      if !windowUp s || !inboundOk c key.toNat addr len false then inboundNak s conn c addr
      else
        match readDva s hubUnit c.ctx (s.ctx c.ctx).mapVer addr len 17 with
        | .error (_, s1) => inboundNak s1 conn c addr
        | .ok (bs, s1) =>
          if bs.any (·.2) then inboundNak s1 conn c addr
          else
            let o : EthOut := { conn, kind := 4, addr, bytes := bs.map (·.1), ctx := c.ctx, epoch := (s1.ctx c.ctx).epoch }
            gate s (chargeOwners { s1 with ethOut := s1.ethOut ++ [o] } c.ctx addr len))

/-- RDMA_WRITE_IMM_INBOUND (R876): ADD 1 to the named fence after the bytes are visible; a fence outside the context is refused
with the write. -/
def execRdmaWriteImmInbound (conn : Nat) (key : W32) (addr : Nat) (bytes : List Byte) (imm : W32) (s : State) :
    Host.Outcome State Fault Refusal :=
  let f := imm.toNat % 4096
  next (match tabFind s.conns conn with
    | none => s
    | some c =>
      if (fencePlace s c.ctx f).isNone then inboundNak s conn c addr
      else inboundWrite s conn key.toNat addr bytes fun s c => setFence s c.ctx f (fenceApply (fenceWord s c.ctx f) 1 1))

/-- The unresolved nodes of partition p that use connection h and are short of their commit point. -/
def connNodes (s : State) (h : Nat) (c : Conn) (p : Nat) : List Nat :=
  ((s.part p).insts.filter fun e => e.2.overRdma && !e.2.st.resolved && e.2.st != .committing && e.2.ctx == c.ctx &&
    wd e.2.words 7 == h).map (·.1)

/-- A connection enters ERROR: every unresolved node that uses it and is short of its commit point ends without commit (R878). The
event is logged with each of these nodes; where a load or a repair alone uses the connection, once. -/
def connError (s : State) (h : Nat) (c : Conn) : State :=
  let s1 := { s with conns := tabSet s.conns h { c with st := .error, outst := [] } }
  let s2 := if allParts.all fun p => connNodes s h c p == [] then
      logEvent s1 { code := 0x32E2, ctx := c.ctx, data := [c.fn + 65536 * c.ctx, h] }
    else s1
  allParts.foldl (fun s p =>
    (connNodes s h c p).foldl (fun s n => answered s p n .connError) s) s2

/-- A request on connection h awaits its answer: a COPY's, or the reads of a load or a repair (R733, R750). -/
def connWaits (s : State) (h : Nat) (c : Conn) : Bool := c.outst != [] || (c.st == .ready && fetched s h)

/-- RDMA_RETRANSMIT_TIMEOUT: 1 ms after it was last sent the oldest request is sent again, the eighth expiry takes the connection to
ERROR (R878). -/
def execRdmaRetransmitTimeout (conn : Nat) (s : State) : Host.Outcome State Fault Refusal :=
  next (match tabFind s.conns conn with
    | none => s
    | some c =>
      if !connWaits s conn c || s.hub < c.sentAt + us 1000 then s
      else if 7 ≤ c.retries then connError s conn c
      else { s with conns := tabSet s.conns conn { c with retries := c.retries + 1, sentAt := s.hub } })

/-- RDMA_ACK_ARRIVAL: the oldest outbound request is resolved (R877); a NAK is an error completion of its node (R539).
DEDUCED, log entry 77. -/
def execRdmaAckArrival (conn : Nat) (nak : Bool) (_bytes : List Byte) (s : State) : Host.Outcome State Fault Refusal :=
  next (match tabFind s.conns conn with
    | none => s
    | some c =>
      match c.outst with
      | [] => s
      | (p, n) :: rest =>
        answered { s with conns := tabSet s.conns conn { c with outst := rest, retries := 0, sentAt := s.hub } } p n
          (if nak then .nak else .acknowledged))

/-- Rate of a connection now, in millionths of the line rate: 5 % of the line rate comes back every 50 µs.
DESIGN CHOICE, log entry 76. -/
def rateNow (s : State) (c : Conn) : Nat := min 1000000 (c.rate + 50000 * ((s.hub - c.rateAt) / us 50))

/-- CONGESTION_NOTIFICATION_PACKET: the connection's rate halves (the table before R871). -/
def execCongestionNotificationPacket (conn : Nat) (s : State) : Host.Outcome State Fault Refusal :=
  next (match tabFind s.conns conn with
    | none => s
    | some c => { s with conns := tabSet s.conns conn { c with rate := rateNow s c / 2, rateAt := s.hub } })

/-! Ethernet ports. -/

/-- Count a discarded frame (R871). -/
def discardFrame (s : State) (port : Nat) : State := { s with ethDiscard := tabMod 0 s.ethDiscard port (· + 1) }

/-- ETH_FRAME_DISCARD (R871). -/
def execEthFrameDiscard (port : Fin 2) (s : State) : Host.Outcome State Fault Refusal := next (discardFrame s port)

/-- The local addresses in use that a port's block of the record gives, as numbers (R932). -/
def portAddrs (block : List Byte) : List Nat :=
  [0, 1, 2, 3].filterMap fun a =>
    let b := block.drop (0x10 + 20 * a)
    if bitOf (leNat ((b.drop 16).take 4)) 31 then some (leNat (b.take 16)) else none

/-- The MAC address of a port: the factory one, unless its block of the record overrides it (R871, R930, R932). -/
def portMac (s : State) (port : Nat) : Nat :=
  let b := tabGet [] s.ethAddr port
  if bitOf (leNat (b.take 8)) 63 then leNat (b.take 6) else (Config.factoryMac port).toNat

/-- ARP_ND_REQUEST: answered with the port's MAC address for the port's own addresses, else discarded and counted (R871). -/
def execArpNdRequest (port : Fin 2) (addr : Nat) (s : State) : Host.Outcome State Fault Refusal :=
  next (if (portAddrs (tabGet [] s.ethAddr port)).contains addr then
      { s with ethOut := s.ethOut ++ [{ conn := port, kind := 5, addr, bytes := natLe 6 (portMac s port) }] }
    else discardFrame s port)

/-- The checks of the Ethernet address record (R932, R933). -/
def ethRecordOk (b : List Byte) : Bool :=
  let w (o : Nat) : Nat := leNat ((b.drop o).take 4)
  b.length == 212 && w 0 == 0x45410100 && w 4 == 0 && w 8 == 0 && w 0xC == 0 && w 0xD0 == crc32c (b.take 0xD0) &&
  [0, 1].all fun p =>
    let o := 0x10 + 0x60 * p
    let mac := w o + 2 ^ 32 * (w (o + 4) % 65536)
    bitsOf (w (o + 4)) 30 16 == 0 && mac / 2 ^ 40 % 2 == 0 && bitsOf (w (o + 8)) 30 15 == 0 && w (o + 12) == 0 &&
    (!bitOf (w (o + 8)) 31 || (1 ≤ w (o + 8) % 4096 && w (o + 8) % 4096 ≤ 4094)) &&
    [0, 1, 2, 3].all fun a =>
      let q := o + 0x10 + 20 * a
      let v := w (q + 16)
      let v4 := w q == 0 && w (q + 4) == 0 && w (q + 8) == 0xFFFF0000
      bitsOf v 30 8 == 0 && v % 256 ≤ 128 && (!v4 || 96 ≤ v % 256)

/-- The block of a port in the stored record; none where the factory defaults apply (R930, R933). -/
def ethBlock (s : State) (port : Nat) : List Byte :=
  if s.ethRecord = [] || !ethRecordOk s.ethRecord then [] else (s.ethRecord.drop (0x10 + 0x60 * port)).take 0x60

/-- ETH_LINK_UP: the port takes the current record (R884, R933, R1048). -/
def execEthLinkUp (port : Fin 2) (s : State) : Host.Outcome State Fault Refusal :=
  let new := ethBlock s port
  let old := tabGet [] s.ethAddr port
  let s1 := { s with ethAddr := tabSet s.ethAddr port new }
  next (if new = old then s1 else extendMr s1 3 (Config.sha256 s.ethRecord))

/-- ETH_ADDRESS_RECORD_WRITE, component 0x0012: the record is stored; one that fails its checks is rejected (R880, R882, R884, R933). -/
def execEthAddressRecordWrite (record : List Byte) (s : State) : Host.Outcome State Fault Refusal :=
  let s1 := { s with ethRecord := record, fwUpdates := s.fwUpdates ++ [0x12] }
  next (if !s.mcRuns then s
    else if s.boot.stage = 7 then s1
    else if ethRecordOk record then s1 else logEvent s1 { code := 0x12F6, data := [0x12, s.boot.stage] })

end Sys2Proof.Machine
end

