-- ==== Sys2Proof/Machine/Sched.lean ====
section
/-! DEFINITION. The cyclic schedule, pre-emption and the refill of the regulators (R609 to R618, R619 to R635). -/

namespace Sys2Proof.Machine

/-- Counts from the frame's start to the end of slot j (R623). -/
def slotEnd (l : List Slot) (j : Nat) : Nat := us ((l.take (j + 1)).foldl (fun a x => a + x.us) 0)

/-- A new table, or the removal of the table, takes effect at die count `at_` (R622). -/
def takeTable (P : Part) (l : List Slot) (at_ : Nat) : Part :=
  if l = [] then { P with sched := none, schedNext := none, slot := 0, frames := 0, frameAt := at_ }
  else { P with sched := some l, schedNext := none, slot := 0, frames := 1, frameAt := at_ }

/-- A boundary at die count `at_`: the grace window set last takes effect (R635), and starts for the running nodes that the new slot
does not allow (R630); only the node types that the schedule holds are meant (R602, R603). -/
def markBoundary (P : Part) (at_ : Nat) : Part :=
  let g := P.graceNext.getD P.graceUs
  let nodes := (P.insts.filter fun e => scheduled e.2.ty && e.2.st == .running && !slotAllows P e.2.ctx).map (·.1)
  { P with graceUs := g, graceNext := none,
           graces := if nodes = [] then P.graces else P.graces ++ [{ start := at_, ends := at_ + us g, nodes }] }

/-- SLOT_BOUNDARY: the next slot begins when the current one has run its time, a new frame after the last slot, a new table at
the end of a frame or at once where none is active (R620 to R623, R629); not while a save holds the CP (R636) or its partition is in
reset (R20). -/
def execSlotBoundary (p : Fin 8) (s : State) : Host.Outcome State Fault Refusal :=
  next (
    let P := s.part p
    if P.frozen || P.computeHeld then s
    else
    match P.sched with
    | none =>
      match P.schedNext with
      | none => s
      | some l => s.setPart p (markBoundary (takeTable P l P.count) P.count)
    | some l =>
      let e := P.frameAt + slotEnd l P.slot
      if P.count < e then s
      else if P.slot + 1 < l.length then s.setPart p (markBoundary { P with slot := P.slot + 1 } e)
      else
        match P.schedNext with
        | some l2 => s.setPart p (markBoundary (takeTable P l2 e) e)
        | none => s.setPart p (markBoundary { P with slot := 0, frames := P.frames + 1, frameAt := e } e))

/-- A pre-emption kill: re-run ahead of its context's other nodes, uncounted (R632), unless an event of the kernel forbids a
re-run (R263, R439); the sixteenth in a row abandons the node (R633). -/
def preempt (s : State) (p n : Nat) : State :=
  match s.inst? p n with
  | none => s
  | some i =>
    let P := s.part p
    let s1 := s.setPart p { P with kills := min (P.kills + 1) (2 ^ 32 - 1) }
    if i.noRerun then abandon s1 p n .failed
    else if 15 ≤ i.preempts then failNode s1 p n 0x3291 ([p, i.ctx] ++ i.data.take 2)
    else requeue s1 p n i i.reruns (i.preempts + 1)

/-- Node n, which a grace window names, has run on since its boundary and is short of its commit point. -/
def graceRuns (P : Part) (g : Grace) (n : Nat) : Bool :=
  match tabFind P.insts n with
  | some i => i.st == .running && i.dispAt ≤ g.start
  | none => false

/-- GRACE_EXPIRY: G after a boundary every node that its grace window names and that is still short of its commit point is killed
(R630, R631); not while a save holds the CP (R636). -/
def execGraceExpiry (p : Fin 8) (s : State) : Host.Outcome State Fault Refusal :=
  next (
    let P := s.part p
    if P.frozen then s
    else
      let due (g : Grace) : Bool := g.ends ≤ P.count
      let victims := (P.graces.filter due).flatMap fun g => g.nodes.filter (graceRuns P g)
      victims.foldl (fun s n => preempt s p n) (s.setPart p { P with graces := P.graces.filter fun g => !due g }))

/-- Refill one regulator, and let the units that wait proceed (R609 to R611, R615, R616). -/
def refill (P : Part) (k : Nat) (r : Regulator) : Regulator :=
  let live (n : Nat) : Bool := match tabFind P.insts n with | some i => !i.st.resolved | none => false
  let closing := r.closing.filter live
  let r1 : Regulator :=
    match r.armed with
    | none => { r with closing }
    | some (rate, burst) =>
      if rate = 0 then (if closing = [] then { r with rate := 0, burst, armed := none, closing } else { r with burst, closing })
      else { r with rate, burst, armed := none, closed := false, closing := [] }
  let add : Int := r1.rate * regStep k
  ({ r1 with balance := min (r1.balance + add) (r1.burst * add), waited := false,
             throttled := if r.waited then min (r.throttled + 1) (2 ^ 32 - 1) else r.throttled } : Regulator).serve

/-- REGULATOR_REFILL: each microsecond of the die counter every regulator adds its tokens (R609); not while the partition is in reset
(R20). -/
def execRegulatorRefill (p : Fin 8) (s : State) : Host.Outcome State Fault Refusal :=
  next (
    let P := s.part p
    if P.computeHeld || P.count < P.refillAt + us 1 then s
    else
      let regs := (List.range 11).foldl (fun t k => tabSet t k (refill P k (P.reg k))) P.regs
      s.setPart p { P with regs, refillAt := P.refillAt + us 1 })

end Sys2Proof.Machine
end

