-- ==== Sys2Proof/Machine/Dump.lean ====
section
/-! DEFINITION. Full-state saves and Dusk dumps: their layout, the summary, STATE_SAVE, FULL_STATE_SAVE_DONE and DUSK_DUMP_READ
(R636 to R640, R999 to R1006, R1060). -/

namespace Sys2Proof.Config

/-- Byte q of a tile's part of a dump where R1001 names what stands there and gives no layout: the program counter, the loop counters,
the array, the queues, LIVE and SEL. DESIGN CHOICE, log entry 64. -/
opaque dumpTileByte : Machine.Tile → Nat → Byte

/-- Byte o of a dump in the CP instance table and commit journal, from the instances. DESIGN CHOICE, log entry 64. -/
opaque dumpCpByte : Machine.Tab Machine.Inst → Nat → Byte

/-- Byte o of a dump in the SVU registers, from the instances whose groups the SVUs have taken, the accumulators that the tiles' queues
hold and the words of the program store in use. DESIGN CHOICE, log entry 64. -/
opaque dumpSvuByte : Machine.Tab Machine.Inst → List (List Machine.DmaEnt) → Nat → Nat → Byte

/-- Byte o of a dump in the codebook slots and SFU banks of a context. DESIGN CHOICE, log entry 64. -/
opaque dumpCtxByte : Machine.CtxPart → Nat → Byte

end Sys2Proof.Config

namespace Sys2Proof.Machine

/-! Layout (R1001). -/

/-- Size of a dump. -/
def dumpSize : Nat := 0x06800000

/-- First byte of tile t in a dump. -/
def dumpTile (t : Nat) : Nat := 0x00100000 + 0x00640000 * t

/-- A memory moved up by `o` bytes. -/
def shiftMem (m : Mem) (o : Nat) : Mem := m.map fun c => (c.1 + o, c.2)

/-- The line bits of a scratchpad whose first line is line `first` of the tile: bit 2i poison, bit 2i + 1 kernel-written. -/
def lineBits (m : Mem) (base first : Nat) (d : Spad) : Mem :=
  let put (m : Mem) (i : Nat) : Mem :=
    let a := base + i / 8
    memPut m a (memByte m a ||| BitVec.ofNat 8 (2 ^ (i % 8)))
  let m1 := d.poison.foldl (fun m l => put m (2 * (first + l))) m
  d.kw.foldl (fun m l => put m (2 * (first + l) + 1)) m1

/-- The bytes of instruction words: a word is 64 bits. -/
def imageBytes (image : List Nat) : List Byte := image.flatMap (natLe 8)

/-- The part of a dump that one tile fills and whose layout is given: scratchpads, line bits, V0–V63, M0–M7, S0–S31 and the two
halves of the instruction memory. DESIGN CHOICE, log entry 110. -/
def tileDump (x : Tile) : Mem :=
  let m0 := x.wm.bytes ++ shiftMem x.am.bytes 0x300000 ++ shiftMem x.pm.bytes 0x500000
  let m1 := lineBits (lineBits (lineBits m0 0x600000 0 x.wm) 0x600000 49152 x.am) 0x600000 81920 x.pm
  let m2 := (List.range 64).foldl (fun m k => memWrite m (0x606000 + 1024 * k) (natLe 1024 (tabGet 0 x.v k).toNat)) m1
  let m3 := (List.range 8).foldl (fun m k =>
    let v := if k = 0 then 2 ^ 1024 - 1 else (tabGet 0 x.m k).toNat
    memWrite m (0x616000 + 128 * k) (natLe 128 v)) m2
  let m4 := (List.range 32).foldl (fun m k => memWrite m (0x616400 + 4 * k) (natLe 4 (tabGet 0 x.s k).toNat)) m3
  memWrite (memWrite m4 0x617000 (imageBytes x.imem0)) 0x627000 (imageBytes x.imem1)

/-- Whether the spec gives no layout for byte q of a tile's part: the counters behind the scalar registers, the queues. -/
def tileOpen (q : Nat) : Bool := (0x616480 ≤ q && q < 0x617000) || 0x637000 ≤ q

/-- The eight words of a summary (R1003). -/
def summaryWords (d : Dump) : List Nat :=
  [ b2n d.valid * 2 ^ 31 + b2n d.complete * 2 ^ 30 + d.kind % 2 * 2 ^ 29 + d.noDump % 4 * 2 ^ 27 + d.holder % 8 * 65536 + d.cause % 65536,
    d.size % 2 ^ 32, half d.time 0, half d.time 1, half d.ctxMask 0, half d.ctxMask 1, d.abandoned % 2 ^ 32, d.recordsLost % 2 ^ 32 ]

/-- Byte o of the save of partition p (R637, R1001). `old` and `table` hold its tiles and its instances as the stop found them. -/
def dumpByte (s : State) (p : Nat) (d : Dump) (old : Tab Tile) (table : Tab Inst) (o : Nat) : Byte :=
  if o < 0x00100000 then memByte (memWrite [] 0 (wordsBytes (summaryWords d))) o
  else if o < 0x06500000 then
    let t := (o - 0x00100000) / 0x00640000
    let q := (o - 0x00100000) % 0x00640000
    if tileOpen q then Config.dumpTileByte (tabGet {} old t) q else memByte (tileDump (s.tile p t)) q
  else if o < 0x06600000 then Config.dumpCpByte table o
  else if o < 0x066C0000 then Config.dumpSvuByte table (old.map fun e => e.2.dq) (s.part p).svuWords o
  else Config.dumpCtxByte (s.cp (s.part p).lastCtx p) o

/-- Where the dump of partition p stands in its holder's HBM: in the frames of context 0 (R651, R999; DESIGN CHOICE, log entry 64). -/
def dumpPlace (p : Nat) : Nat := 33820 * 2097152 + dumpSize * p

/-- Write the dump of partition p into the HBM of partition q. -/
def storeDump (s : State) (p q : Nat) (bs : List Byte) : State :=
  let Q := s.part q
  let lo := dumpPlace p / 64
  s.setPart q { Q with hbm := { Q.hbm with mem := memWrite Q.hbm.mem (dumpPlace p) bs
                                           poison := Q.hbm.poison.filter fun l => l < lo || lo + dumpSize / 64 ≤ l } }

/-- Zero the dump of partition p in the HBM of partition q (R1005). -/
def clearDump (s : State) (p q : Nat) : State :=
  let Q := s.part q
  s.setPart q { Q with hbm := { Q.hbm with mem := memZero Q.hbm.mem (dumpPlace p) dumpSize } }

/-- Where a dump of partition p goes: the first partition after it that is in service and not in reset (R999). -/
def dumpHolder (s : State) (p : Nat) : Option Nat :=
  [1, 2, 3, 4, 5, 6, 7].findSome? fun d =>
    let q := (p + d) % 8
    if (s.part q).inService && (s.part q).reset.isNone then some q else none

/-- Completion records lost on partition p (R1003). -/
def lostRecords (s : State) (p : Nat) : Nat := (s.ctxsOn p).foldl (fun a c => a + (s.cp c p).recordsLost) 0

/-- Contexts that have a node instance on partition p. -/
def instMask (s : State) (p : Nat) : Nat :=
  (s.ctxsOn p).foldl (fun a c => if (s.part p).insts.any (fun e => e.2.ctx == c) then a + 2 ^ c else a) 0

/-- Take a save of partition p into its dump place (R637, R999 to R1003): the bytes cross the mesh to the holder's HBM and count on
the partition's regulators (R607, R638). `on` is false where DUMP_EN is 0; `old` and `table` as in `dumpByte`. DEDUCED, log
entry 88. -/
def takeDump (s : State) (p : Nat) (on clean : Bool) (old : Tab Tile) (table : Tab Inst) (d : Dump) : State :=
  let d0 := { d with time := (s.part p).count, recordsLost := lostRecords s p }
  let put (s : State) (d : Dump) : State := s.setPart p { s.part p with dump := d }
  if !on then put s { d0 with noDump := 1 }
  else
    match dumpHolder s p with
    | none => put s { d0 with noDump := 2 }
    | some q =>
      let d1 := { d0 with valid := true, complete := clean, holder := q, size := dumpSize }
      let s0 := storeDump (put s d1) p q ((List.range dumpSize).map (dumpByte s p d1 old table))
      let s1 := charge (charge s0 p 0 dumpSize) p 1 dumpSize
      if clean then s1 else logEvent s1 { code := 0x131C, part := some p, data := [p, p, d.cause] }

/-! Messages. -/

/-- STATE_SAVE (R636, R1004): the partition stops at an instruction boundary and its state is copied; one save of a partition at
a time. `clean`: every part stopped within 10 µs (R1002). -/
def execStateSave (fn : Fin 9) (clean : Bool) (s : State) : Host.Outcome State Fault Refusal :=
  next (runMsg s fn 0x0904 (fun r => (s.part (bitsOf (wd r.payload 0) 18 16)).saveOp.isNone) fun s r =>
    let p := bitsOf (wd r.payload 0) 18 16
    checked s fn r [ reservedCheck [0xFFF8FFFF] r.payload 0x16, (!(s.part p).inService, 0x1B, atWord 0) ]
      (let b := beginOp s fn r [p] 0 0
       let s1 := takeDump b.1 p true clean (allTiles.map fun t => (t, s.tile p t)) (s.part p).insts { kind := 1, ctxMask := instMask s p }
       s1.setPart p { s1.part p with frozen := true, saveOp := some b.2 }))

/-- A node that a save has stopped short of its commit point and that is killed with its end (R639). A CALL or LOOP that runs again goes
on with the subgraph instances that it had (DEDUCED, log entry 88). -/
def stoppedShort (i : Inst) : Bool := i.st == .running

/-- FULL_STATE_SAVE_DONE: the copy is written. In normal service every stopped node short of its commit point is killed and runs
again (R639), and commits go on; at debug level 2 the partition stays stopped (R1060). The reply holds the summary. -/
def execFullStateSaveDone (p : Fin 8) (s : State) : Host.Outcome State Fault Refusal :=
  let P := s.part p
  next (match P.saveOp with
    | none => s
    | some o =>
      let s1 := s.setPart p { P with saveOp := none, frozen := s.dbgLevel == 2 }
      let s2 := if s.dbgLevel = 2 then s1
        else
          thaw (((P.insts.filter fun e => stoppedShort e.2).map (·.1)).foldl (fun s n => preempt s p n) s1) p
      endOp s2 o 0 (summaryWords P.dump))

/-- DUSK_DUMP_READ (R1005, R1006). DEDUCED, log entry 89. -/
def execDuskDumpRead (fn : Fin 9) (s : State) : Host.Outcome State Fault Refusal :=
  next (runOp s fn 0x0905 fun s r =>
    let w := r.payload
    let p := bitsOf (wd w 0) 18 16
    let d := (s.part p).dump
    let off := wd w 1
    let n := wd w 2
    checked s fn r
      [ reservedCheck [0x7FF8FFFF, 0, 0, 0xFFFFFFFF] w 0x16, (off % 4096 != 0, 0x16, atWord 1),
        (n % 4096 != 0 || 1048576 < n, 0x16, atWord 2), (n != 0 && !d.valid, 0x0910, noField),
        (n != 0 && dumpSize < off + n, 0x16, atWord 1) ]
      (let s1 := if n = 0 then s
         else s.post r.ctx (wd64 w 4) ((List.range n).map fun i => memByte (s.part d.holder).hbm.mem (dumpPlace p + off + i)) false
       let s2 := if bitOf (wd w 0) 31 && d.valid then
           clearDump (s1.setPart p { s1.part p with dump := { d with valid := false } }) p d.holder
         else s1
       okReply s2 fn r (summaryWords d)))

end Sys2Proof.Machine
end

