-- ==== Sys2Proof/Machine/Recovery.lean ====
section
/-! DEFINITION. Hangs, watchdogs, partition resets, escalation and the error log's messages (R52 to R54, R675 to R678, R946, R981
to R998, R1011 to R1017, R1030, R1031, R1035). -/

namespace Sys2Proof.Machine

/-! Messages. -/

/-- Whether sequence number q lies at or after `first`, as 32-bit sequence numbers wrap. -/
def seqFrom (first q : Nat) : Bool := (q + 2 ^ 32 - first % 2 ^ 32) % 2 ^ 32 < 2 ^ 31

/-- Records that function k may see: a VF those of its partitions, all of them while debug is unlocked (R1031). -/
def logVisible (s : State) (k : Nat) (l : List LogRec) : List LogRec :=
  l.filter fun r => k == 0 || 1 ≤ s.dbgLevel || (match r.part with | some p => s.ownerOf p == k | none => false)

/-- LOG_READ (R1030, R1031). A flash slot shows its 127 places, an empty one as zeros; what a reply about it holds as sequences,
and the oldest sequence of an empty area, are not given (DESIGN CHOICE, log entry 3). DEDUCED, log entry 80. -/
def execLogRead (fn : Fin 9) (s : State) : Host.Outcome State Fault Refusal :=
  next (runOp s fn 0x0801 fun s r =>
    let w := r.payload
    let area := bitsOf (wd w 0) 1 0
    let first := wd w 1
    checked s fn r
      [ reservedCheck [0xFFFFFFFC, 0, 0] w 0x16, (area == 3, 0x16, atWord 0), (wd w 2 == 0 || 127 < wd w 2, 0x16, atWord 2),
        (area == 2 && 256 ≤ first, 0x16, atWord 1) ]
      (let f := s.takeFree
       let g := f.2.takeFree
       if area = 2 then
         let l := (tabGet {} s.flashFatal first).recs
         let vis := (logVisible s fn l).flatMap logRecWords
         let pad := if fn = 0 then List.replicate (8 * (127 - l.length)) 0 else []
         okReply g.2 fn r ([if fn = 0 then 127 else vis.length / 8, f.1 % 2 ^ 32, g.1 % 2 ^ 32, 0] ++ vis ++ pad)
       else
         let held := if area = 0 then s.log.general else s.log.fatal
         let sq := if area = 0 then s.log.genSeq else s.log.fatSeq
         let l := (logVisible s fn (held.reverse.filter fun x => seqFrom first x.seq)).take (wd w 2)
         match held.getLast? with
         | some o => okReply s fn r ([l.length, sq, o.seq, 0] ++ l.flatMap logRecWords)
         | none => okReply f.2 fn r [0, sq, f.1 % 2 ^ 32, 0]))

/-- ESCALATION_SET (R1016): stored in SPI flash, measured in MR3 (R1048). -/
def execEscalationSet (fn : Fin 9) (s : State) : Host.Outcome State Fault Refusal :=
  next (runOp s fn 0x0802 fun s r =>
    let w := r.payload
    let a := bitsOf (wd w 0) 31 24
    let b := bitsOf (wd w 0) 23 16
    let c := bitsOf (wd w 0) 15 8
    let d := bitsOf (wd w 0) 7 0
    checked s fn r
      [ reservedCheck [0, 0xFFFFFFFE] w 0x16,
        (a < 2 || 10 < a || b < 1 || 60 < b || c < 3 || 32 < c || d < 10 || 240 < d, 0x0810, atWord 0) ]
      (let s1 := { s with escal := [a, b, c, d, bitsOf (wd w 1) 0 0] }
       okReply (extendMr s1 3 (Config.sha256 (wordsBytes w))) fn r []))

/-- The stacks of a partition, as training items. -/
def stacksOf (p : Nat) : List Nat := [3 * p, 3 * p + 1, 3 * p + 2]

/-- The out-of-service state and the count of partition p are cleared (R1017). The module limit still counts the resets
(R1013; DEDUCED, log entry 112). -/
def clearOos (s : State) (p : Nat) : State :=
  let back (r : Reset) : Reset := if r.stays then { r with stays := false, toOos := false } else r
  { s.setPart p { s.part p with oos := false, resetLog := [], reset := (s.part p).reset.map back } with fatalLog := s.fatalLog ++ (s.part p).resetLog }

/-- The out-of-service state and every count of the module are cleared (R1017, MODULE 1). -/
def clearModuleOos (s : State) : State :=
  { s with moduleOos := false, fatalLog := [], parts := tabMap s.parts fun _ P => { P with resetLog := [] } }

/-- Reset a partition that SERVICE_RESTORE brings back, or let the reset that runs do so; stacks that never trained are trained. -/
def restorePart (s : State) (p o : Nat) : State :=
  let cold := (stacksOf p).any fun i => s.item i != .done
  let s1 := startReset (clearOos s p) p 0 cold false false false [o]
  s1.setPart p { s1.part p with reset := (s1.part p).reset.map fun r => { r with memPath := r.memPath || cold } }

/-- SERVICE_RESTORE (R1017): it replies once each partition is in service or has failed its reset.
DEDUCED, log entry 81. -/
def execServiceRestore (fn : Fin 9) (s : State) : Host.Outcome State Fault Refusal :=
  next (runOp s fn 0x0803 fun s r =>
    let w := wd r.payload 0
    let ps := if bitOf w 31 then allParts else maskParts (w % 256)
    let notOut (p : Nat) : Bool := !s.offDuty p || (s.part p).inTest
    checked s fn r
      [ reservedCheck [0x7FFFFF00] r.payload 0x16,
        (if bitOf w 31 then !s.moduleOos else ps.any notOut, 0x0811, atWord 0) ]
      (let s0 := if bitOf w 31 then clearModuleOos s else s
       if ps = [] then okReply s0 fn r []
       else
         let b := beginOp s0 fn r ps 0 0
         ps.foldl (fun s p => restorePart s p b.2) b.1))

/-- PARTITION_RESET (R987, R1035). -/
def execPartitionReset (fn : Fin 9) (s : State) : Host.Outcome State Fault Refusal :=
  next (runOp s fn 0x0804 fun s r =>
    let w := wd r.payload 0
    let p := bitsOf w 18 16
    checked s fn r [ reservedCheck [0xFFF8FFFE] r.payload 0x16, (s.offDuty p, 0x1B, atWord 0) ]
      (let b := beginOp s fn r [] 0 0
       startReset b.1 p 0 false false (bitOf w 0) false [b.2]))

/-! Hangs and watchdogs. -/

/-- The module's hub runs: rails on, firmware loaded, not stopped. -/
def State.running (s : State) : Bool := s.pins.rails && s.boot.cmi && !s.stopped

/-- CP_HEARTBEAT_CHECK (R981, R982): the DCP finds the heartbeat unchanged for 2 ms; suspended in A3 and for 2 ms after A0.
DEDUCED, log entry 84. -/
def execCpHeartbeatCheck (p : Fin 8) (s : State) : Host.Outcome State Fault Refusal :=
  let P := s.part p
  next (if s.running && P.inService && P.act != 3 && P.beatAt + us 2000 ≤ P.count then
      raise s { code := 0x4310, part := some p, data := [p, p, 0x4310] }
    else s)

/-- TILE_HANG (R983): the kernel is killed and runs again. -/
def execTileHang (p : Fin 8) (t : Fin 16) (s : State) : Host.Outcome State Fault Refusal :=
  next (match (s.tile p t).run with
    | some r =>
      if !r.ended && !(s.part p).frozen && r.progress + us 10000 ≤ (s.part p).count then
        killNode s p r.inst 0x3311 [p, t, 0x3311]
      else s
    | none => s)

/-- TILE_STOP_FAIL (R984). -/
def execTileStopFail (p : Fin 8) (t : Fin 16) (s : State) : Host.Outcome State Fault Refusal :=
  next (match (s.tile p t).killedAt with
    | some k =>
      if s.running && k + us 2 ≤ (s.part p).count then raise s { code := 0x4312, part := some p, data := [p, t, 0x4312] } else s
    | none => s)

/-- 100 ms as counts (R52). -/
def watchLimit : Nat := us 100000

/-- A reset of partition p has its DCP in reset (R53). -/
def dcpInReset (s : State) (p : Nat) : Bool :=
  match (s.part p).reset with
  | some r => r.dcp && r.step != .ending
  | none => false

/-- DCP_WATCHDOG: 100 ms without service (R52), and the partition is reset including its DCP (R53). A partition out of service stays so
(R1014). -/
def execDcpWatchdog (p : Fin 8) (s : State) : Host.Outcome State Fault Refusal :=
  next (if !s.running || dcpInReset s p || (s.part p).count < (s.part p).dcpAt + watchLimit then s
    else startReset (logEvent s { code := 0x4313, part := some p, data := [p, p, 0x4313] }) p 0x4313 false true false true [])

/-- Job aborts that the error-log core sends from its own copy of the registrations (R1008): the ABORT goes out and is logged. -/
def coreJobAbort (s : State) (job code : Nat) : State :=
  let seq := (s.abortSeq + 1) % 65536
  let s1 := { s with abortSeq := seq, abortsSeen := s.abortsSeen ++ [(s.moduleId, seq, s.hub)] }
  logEvent (floodAbort s1 (abortPacket s1 job seq code) none) { code := 0x2319, data := jobData job seq code }

/-- MCP_WATCHDOG: 100 ms without service (R52); steps 1, 2 and 4 of R1007, without the MCP (R54, R1008).
DEDUCED, log entry 83. -/
def execMcpWatchdog (s : State) : Host.Outcome State Fault Refusal :=
  next (if !s.running || s.hub < s.mcpAt + watchLimit then s
    else
      let s1 := logEvent s { code := 0x5314, data := [0, 0, 0x5314] }
      let s2 := { s1 with fatalLog := s1.hub :: s1.fatalLog }
      let cs := (s2.ctxs.filter fun e => e.2.st != .free).map (·.1)
      let jobs := jobsOf s2 cs fun _ => true
      let s3 := checkModuleLimit (jobs.foldl (fun s j => coreJobAbort s j 0x5314) s2) 0x5314 jobs
      { s3 with faultN := false, mcpReady := false, stopped := true, parts := tabMap s3.parts fun _ P => { P with reset := none },
                fns := tabMap s3.fns fun _ f => { f with events := [] } })

/-- HUB_CORE_FAIL: 100 ms without service of a hub core (R985). -/
def execHubCoreFail (core : Nat) (s : State) : Host.Outcome State Fault Refusal :=
  next (if s.running && s.mcpAt + watchLimit ≤ s.hub then raise s { code := 0x5315, data := [0, core, 0x5315] } else s)

/-! HBM upkeep. -/

/-- HBM_CA_PARITY_ERROR (R675): retried; the fifth in a row on the pseudo-channel is Partition-fatal. Which bank and row the command
meant, which the event's data names (R702), is a free value (DESIGN CHOICE, log entry 12). -/
def execHbmCaParityError (p : Fin 8) (pc : Fin 96) (s : State) : Host.Outcome State Fault Refusal :=
  let P := s.part p
  let n := tabGet 0 P.hbm.ca pc + 1
  next (if !s.pins.rails then s
    else if n < 5 then s.setPart p { P with hbm := { P.hbm with ca := tabSet P.hbm.ca pc n } }
    else
      let f := (s.setPart p { P with hbm := { P.hbm with ca := tabDel P.hbm.ca pc } }).takeFree
      raise f.2 { code := 0x42A8, part := some p, data := [3 * p + pc / 32, pc % 32, f.1 / 2 ^ 20 % 64, f.1 % 2 ^ 18] })

/-- Lines of a partition's DPA space: 34,332 frames of 2 MiB (R651). -/
def dpaLines : Nat := 34332 * 32768

/-- The first line of the frames of context 0 (R651). -/
def systemLine : Nat := 33820 * 32768

/-- Lines of a partition's three stacks, 11,718,750 in each of the 96 pseudo-channels (R652): the last ones of each lie beyond the
DPA space. -/
def stackLines : Nat := 96 * 11718750

/-- The line that the scrub reads as its n-th: pseudo-channel bytes ascend, every pseudo-channel of the three stacks at each
(R653, R677). DEDUCED, log entry 85. -/
def scrubLine (n : Nat) : Nat :=
  let pc := n % 96
  let off := n / 96
  let g := 3 * (off / 4) + pc / 32
  4 * (32 * g + Nat.xor (pc % 32) (g % 32)) + off % 4

/-- Requester number of the scrub in HBM_UNCORRECTABLE. -/
def scrubUnit : Nat := 19

/-- PATROL_SCRUB_READ (R677, R678): not while the stacks are in self-refresh. An uncorrectable error in a frame of context 0 is
Partition-fatal (R674). -/
def execPatrolScrubRead (p : Fin 8) (s : State) : Host.Outcome State Fault Refusal :=
  let P := s.part p
  next (if !P.inService || P.reset.isSome || P.hbm.selfRefresh then s
    else
      let s1 := s.setPart p { P with hbm := { P.hbm with scrub := (P.hbm.scrub + 1) % stackLines } }
      let line := scrubLine P.hbm.scrub
      let s2 := (readLine s1 p line scrubUnit).2
      if P.hbm.ue.contains line && systemLine ≤ line && line < dpaLines then
        raise s2 { code := 0x42A7, part := some p, data := hbmData p line scrubUnit }
      else s2)

/-- HBM_SELF_REFRESH_RETURN (R946): 100 µs after the last access. -/
def execHbmSelfRefreshReturn (p : Fin 8) (s : State) : Host.Outcome State Fault Refusal :=
  let P := s.part p
  next (match P.hbm.wokenAt with
    | some t =>
      if P.act = 3 && t + us 100 ≤ P.count then
        s.setPart p { P with hbm := { P.hbm with selfRefresh := true, wokenAt := none } }
      else s
    | none => s)

/-! Partition reset (R990). -/

/-- SUNDOWN_COMPLETE: steps 3 to 5. What a save has held goes on, commits past their commit point above all (R528); once all of these
have ended, the Dusk dump is taken where it is enabled. -/
def execSundownComplete (p : Fin 8) (clean : Bool) (s : State) : Host.Outcome State Fault Refusal :=
  next (match (s.part p).reset with
    | some r =>
      if r.step != .sundown then s
      else
        let s0 := thaw s p
        if (s0.part p).insts.any (fun e => e.2.st == .committing) then s0
        else
          let on := r.dump || wd s.escal 4 == 1
          let s1 := takeDump s0 p on clean r.stopped r.table { cause := r.cause, ctxMask := r.ctxMask, abandoned := r.abandoned }
          s1.setPart p { s1.part p with reset := some { r with step := .compute } }
    | none => s)

/-- A tile after reset: every line of its scratchpads zero and good but for permanent defects (R213), an error of its ROM stays
(R396). -/
def Tile.fresh (x : Tile) : Tile := { wm := x.wm.zero, am := x.am.zero, pm := x.pm.zero, badRom := x.badRom }

/-- Every tile of partition p as it leaves reset. -/
def resetTiles (s : State) (p : Nat) : State := allTiles.foldl (fun s t => s.setTile p t (s.tile p t).fresh) s

/-- The compute part of partition p enters reset: instances are gone, the segments of R992 are freed, the registers that a partition
reset clears take their reset values (R20, R527, R645), HBM is in self-refresh. -/
def computeReset (s : State) (p : Nat) : State :=
  let s1 := (s.ctxsOn p).foldl (fun s c => s.setCp c p { s.cp c p with segs := [], broken := false }) s
  s1.setPart p (computeOff { s1.part p with insts := [], staging := 0 })

/-- A partition goes out of service in a reset; the jobs that its start has not aborted are aborted now (R1019). -/
def resetToOos (s : State) (p : Nat) (r : Reset) : State :=
  let jobs := if r.toOos || r.stays then []
    else jobsOf s (s.ctxsOn p) fun c => !(c.patienceMs != 0 && c.patienceMs < resetBoundMs s p r.memPath)
  partOutOfService (jobs.foldl (fun s j => sendJobAbort s j r.cause) s) p r.toOos

/-- PARTITION_COMPUTE_RESET: step 6. A partition that has reached its limit, or was out of service before, stays there, out of service
(R1012, R1014); where the memory
path is the cause the stacks train (R994). DEDUCED, log entry 87. -/
def execPartitionComputeReset (p : Fin 8) (s : State) : Host.Outcome State Fault Refusal :=
  next (match (s.part p).reset with
    | some r =>
      if r.step != .compute then s
      else
        let s1 := computeReset s p
        if r.toOos || r.stays then resetToOos s1 p r
        else
          let s2 := s1.setPart p { s1.part p with reset := some { r with step := .reinit } }
          if r.memPath then (stacksOf p).foldl startItem s2 else s2
    | none => s)

/-- Context c holds a frame of partition p outside its bound generations (R996). -/
def holdsPlain (s : State) (c p : Nat) : Bool :=
  (s.ctx c).allocs.any (fun e => e.2.part == p) ||
    (s.ctx c).bindings.any fun b => b.2.gens.any fun g => tabGet [] g.2.units p != [] && !g.2.bound.contains p

/-- Reload the LOADED generations of a context on partition p (R755). DEDUCED, log entry 86. -/
def reloadCtx (s : State) (c p : Nat) : State :=
  ((s.ctx c).bindings.flatMap fun b => b.2.gens.map fun g => (b.1, g.1, g.2)).foldl (fun s e =>
    if e.2.2.st != .loaded || tabGet [] e.2.2.units p = [] then s
    else reloadOn s c e.1 e.2.1 p e.2.2) s

/-- Frames of partition p are written with zero and good check data (R909): all, or those below DPA `top`. -/
def zeroFrames (s : State) (p top : Nat) : State :=
  let P := s.part p
  let s1 := s.setPart p { P with hbm := { P.hbm with mem := memZero P.hbm.mem 0 top, poison := [], ue := [], ce := [], selfRefresh := false } }
  { s1 with repairs := s1.repairs.filter fun r => r.part != p }

/-- The same where the context-0 frames are lost with the dumps in them (R909, R994, R1003). -/
def zeroHbm (s : State) (p : Nat) : State :=
  let s1 := zeroFrames s p (64 * stackLines)
  { s1 with parts := tabMap s1.parts fun _ Q => if Q.dump.valid && Q.dump.holder = p then { Q with dump := { Q.dump with valid := false } } else Q }

/-- Where the Morning image of core kind k stands in the frames of context 0, by the bundle's images: behind the places of the dumps, one
image after the other (R911; DESIGN CHOICE, log entry 147). -/
def imagePlace (b : List Byte) (k : Nat) : Nat :=
  dumpPlace 8 + ((List.range k).map fun j => if j = 0 then 0 else (bunBytes b j).length).sum

/-- The MCP writes the Morning images of the bank that Sunrise verified, for SVUs, tile sequencers and the CP, into frames of context 0
of partition p (R911, R994). -/
def placeImages (s : State) (p : Nat) : State :=
  let P := s.part p
  let b := s.sec.running
  let m := [1, 2, 3].foldl (fun m k => memWrite m (imagePlace b k) (bunBytes b k)) P.hbm.mem
  s.setPart p { P with hbm := { P.hbm with mem := m } }

/-- The memory of partition p after a reset whose cause is the memory path (R994, R996). -/
def restoreMemory (s : State) (p cause : Nat) : State :=
  let cs := s.ctxsOn p
  let lost := cs.filter fun c => holdsPlain s c p
  let s1 := cs.foldl (fun s c => reloadCtx s c p) (placeImages (zeroHbm s p) p)
  lost.foldl (fun s c => logEvent s { code := 0x231D, ctx := c, part := some p, data := [p, p, cause] }) s1

/-- PARTITION_REINIT: steps 7 and 8. The controllers return with their settings, or trained where the memory path is the cause; a
stack that has failed its last training takes the partition out of service (R908). A DCP that was reset too serves again (R53). The cores fetch their images again. -/
def execPartitionReinit (p : Fin 8) (trained : Bool) (s : State) : Host.Outcome State Fault Refusal :=
  next (match (s.part p).reset with
    | some r =>
      let ok := (stacksOf p).all fun i => s.item i == .done
      let bad := (stacksOf p).any fun i => s.item i == .failed
      if r.step != .reinit || (r.memPath && !(if trained then ok else bad)) then s
      else if r.memPath && !trained then resetToOos s p r
      else
        let P := s.part p
        let s1 := s.setPart p { P with reset := some { r with step := .ending }, dcpAt := if r.dcp then P.count else P.dcpAt, hbm := { P.hbm with selfRefresh := false } }
        let s2 := resetTiles { s1 with boot := { s1.boot with cores := s1.boot.cores.filter fun e => e.1 / 128 != p.val } } p
        if r.memPath then restoreMemory s2 p r.cause else s2
    | none => s)

/-- Every Morning core of partition p runs (R912). -/
def coresRun (s : State) (p : Nat) : Bool := (List.range 113).all fun k => tabGet 0 s.boot.cores (128 * p + k) == 2

/-- A slot with its last loaded contents (R274): those of a load that no reference holds back any more, if one waits (R268); a slot
that waits for its release is EMPTY (R272). -/
def restoreSlot (q : CbSlot) : CbSlot :=
  if q.next.isSome then { q.written with refs := 0 }
  else if q.st == .releaseWait || q.entries = [] then {}
  else { q with st := .valid, refs := 0 }

/-- The loads that have a slot to write on partition p of context c. -/
def loadsOn (s : State) (c p : Nat) : List Nat :=
  (((s.cp c p).cbW ++ (s.cp c p).cbA).filterMap fun e => e.2.next.map (·.2.2.2)).eraseDups

/-- What the MCP writes back of context c on partition p is written; the codebook loads and releases that this ends answer (R270,
R272). -/
def settleSlots (s : State) (c : Nat) (loads : List Nat) : State := settleReleases (loads.foldl (fun s n => settleLoad s c n) s) c

/-- What the MCP writes back of a context on a partition that leaves reset (R274, R393). -/
def restoreCp (x : CtxPart) : CtxPart :=
  { x with cbW := tabMap x.cbW fun _ q => restoreSlot q, cbA := tabMap x.cbA fun _ q => restoreSlot q,
           bank0 := { x.bank0 with count := 0 }, bank1 := { x.bank1 with count := 0 }, prep := none, copying := false, broken := false }

/-- What it writes back of a partition: regulators with their settings, the grace window, the table at a new frame (R618, R626,
R635); the counters of chapter 13 start at 0. DEDUCED, log entry 108. -/
def restorePartition (P : Part) : Part :=
  let P1 := { P with regs := tabMap P.regs fun _ r => { r with balance := 0, owed := 0, throttled := 0, waited := false,
                                                                  closing := [] },
                     refillAt := P.count, kills := 0, graces := [], frames := 0 }
  match P1.sched with
  | some l => takeTable { P1 with sched := none } l P1.count |> fun Q => { Q with schedNext := P.schedNext }
  | none => P1

/-- The partition serves again: idle in A0, its heartbeat running. -/
def enterService (P : Part) : Part :=
  { P with inService := true, dispHeld := false, reset := none, act := 0, actAt := P.count, idleAt := some P.count, beatAt := P.count }

/-- The reset of partition p has ended: it serves, unless readiness is still to come (R914) or the partition is in test (R926). -/
def leaveReset (s : State) (P : Part) : Part :=
  if s.ready && !P.inTest then enterService P else { enterService P with inService := false, dispHeld := P.inTest }

/-- PARTITION_RESET_END: steps 9 and 10. -/
def execPartitionResetEnd (p : Fin 8) (s : State) : Host.Outcome State Fault Refusal :=
  next (match (s.part p).reset with
    | some r =>
      if r.step != .ending || !coresRun s p then s
      else
        let s1 := (s.ctxsOn p).foldl (fun s c => s.setCp c p (restoreCp (s.cp c p))) s
        let s2 := s1.setPart p (leaveReset s (restorePartition (s1.part p)))
        let dur := ((s2.part p).count - r.startedAt) / us 1
        let s3 := (s.ctxsOn p).foldl (fun t c => settleSlots t c (loadsOn s c p))
          (logEvent s2 { code := 0x1316, part := some p, data := [p, p, r.cause, dur] })
        releaseWaiters (boundaryIfIdle s3 p) p r.waiters 0 dur
    | none => s)

end Sys2Proof.Machine
end

