-- ==== Sys2Proof/Machine/Bringup.lean ====
section
/-! DEFINITION. Power sequencing, resets, bring-up, test mode, saved training records and firmware bundles (R594 to R596, R641,
R642, R890 to R938, R1042 to R1048, R1067 to R1071). -/

namespace Sys2Proof.Machine

/-! What a reset leaves (R891, R1033). -/

/-- What lasts of a partition without power: its out-of-service state in SPI flash, the repairs of its stacks (R680 to R684). -/
def coldPart (P : Part) : Part :=
  { oos := P.oos
    hbm := { hard := P.hbm.hard, soft := P.hbm.softKeep, softKeep := P.hbm.softKeep, spare := P.hbm.spare, redirect := P.hbm.redirect } }

/-- What lasts of a partition through a module reset: also its escalation count and the summary of its dump, whose data is lost;
soft repairs last while the stack has power (R683, R1003, R1033). -/
def warmPart (P : Part) : Part :=
  { coldPart P with
    resetLog := P.resetLog
    dump := { P.dump with valid := false }
    hbm := { (coldPart P).hbm with soft := P.hbm.soft } }

/-- Loads that a reset cuts short leave nothing in the weight store. -/
def stopLoads (s : State) : State := s.loads.foldl (fun s e => stopLoad s e.1) s

/-- Fuses and firmware banks. -/
def coldSec (c : Sec) : Sec :=
  { serial := c.serial, trim := c.trim, memRepair := c.memRepair, stepping := c.stepping, keyDigests := c.keyDigests, dbgDigest := c.dbgDigest, revoked := c.revoked, counters := c.counters,
    bankA := c.bankA, bankB := c.bankB, badA := c.badA, badB := c.badB, activeB := c.activeB }

/-- What a module reset leaves, and the loss of the main rails: permanent defects, SPI flash, fuses, the weight store, repairs and the
Twilight island's state, the events that it keeps for the log among them (R891, R895, R936), and what it has sent to the outside.
DEDUCED, log entry 95. -/
def leftOver (s0 : State) : State :=
  let s := stopLoads s0
  { pending := s.pending
    tiles := tabMap s.tiles fun _ x => x.fresh
    parts := tabMap s.parts fun _ P => coldPart P
    hub := s.hub
    moduleOos := s.moduleOos
    flashFatal := s.flashFatal
    nextFatal := s.nextFatal
    escal := s.escal
    planStored := s.planStored
    planWaits := s.planWaits
    ethRecord := s.ethRecord
    ethOut := s.ethOut
    nvws := { s.nvws with mounted := false }
    pcie := { mapRecord := s.pcie.mapRecord }
    pins := { s.pins with ramping := false, rails := false, thermN := true, alertN := true, outletHot := false }
    saved := s.saved
    sec := coldSec s.sec
    twilight := s.twilight
    resetCause := s.resetCause
    early := s.early
    keptCounts := s.keptCounts
    fwUpdates := s.fwUpdates
    fwResults := s.fwResults
    identOut := s.identOut
    flitOut := s.flitOut
    hostOut := s.hostOut
    cpls := s.cpls
    free := s.free }

/-- A raise of the roll-back counters that has not ended is cut short by a power loss: each counter is left between its old value and
the bundle's, a free value; revoke fuses, which burn last, are as before (R1046, R1047; DEDUCED, log entry 140). -/
def cutRaise (s : State) : State :=
  let b := s.sec.running
  if !s.ready || s.sec.raised || !bunAdvance b then s
  else
    let cut (g : Nat) : Nat :=
      let c := s.sec.counters.getD g 0
      c + Config.freeNat (s.free + g) % (bunSvn b g - c + 1)
    { s with sec := { s.sec with counters := [cut 0, cut 1, cut 2] }, free := s.free + 3 }

/-- The module with its main rails off (R891). -/
def mainsOff (s : State) : State := leftOver (cutRaise s)

/-- A module reset: the error log, the summaries of dumps and the escalation counts are kept as well (R1033), and the TAP, which follows
its own reset (R887). The die counters start again (R641), and with them the seconds of R1024 of the dies' sources. -/
def moduleReset (s : State) : State :=
  let c := leftOver s
  { c with
    parts := tabMap s.parts fun _ P => warmPart P
    log := { s.log with lost := tabDel s.log.lost 0, rate := s.log.rate.filter fun e => e.1 % 16 == 0 }
    fatalLog := s.fatalLog
    jtag := s.jtag
    jtagDr := s.jtagDr
    pins := { s.pins with alertN := true, thermN := !s.pins.outletHot } }

/-- Dawn begins: the link islands and die counters leave reset (R641, R897). -/
def beginDawn (s : State) : State :=
  { s with boot := { originAt := s.boot.originAt, dawn := true }
           parts := allParts.foldl (fun t p => tabMod {} t p fun P => { P with count := 0 }) s.parts }

/-- The bring-up origin is now (R894). -/
def markOrigin (s : State) : State := { s with boot := { s.boot with originAt := s.hub } }

/-! Supplies and sideband inputs. -/

/-- STANDBY_POWER_UP: the Twilight island starts with its counter at 0 (R642). -/
def execStandbyPowerUp (s : State) : Host.Outcome State Fault Refusal :=
  next (if s.pins.standby then s
    else { s with hub := 0, twilight := [], early := [], keptCounts := none, resetCause := .standby
                  pins := { s.pins with standby := true, latched := false, fellAt := none, refclk := true } })

/-- STANDBY_POWER_LOSS: the Twilight island's state is lost, hub counter included (R1067). -/
def execStandbyPowerLoss (s : State) : Host.Outcome State Fault Refusal :=
  let c := mainsOff s
  next (if !s.pins.standby then s
    else { c with hub := 0, twilight := [], early := [], keptCounts := none, resetCause := .standby, pins := { pwrEn := s.pins.pwrEn, resetN := s.pins.resetN } })

/-- 500 ms as counts (R1071). -/
def rampGap : Nat := us 500000

/-- The ramp of the main rails begins, only while the 25 MHz reference is present (R896). -/
def startRamp (s : State) : State := if s.pins.refclk then markOrigin { s with pins := { s.pins with ramping := true } } else s

/-- The reference is present again where REFCLK_LOSS has told that it was lost: the table has no command of its own for its return
(DESIGN CHOICE, log entry 149). -/
def refBack (s : State) : State := { s with pins := { s.pins with refclk := true } }

/-- PWR_EN_RISE (R894, R896): less than 500 ms after a fall the ramp waits (R1071). -/
def execPwrEnRise (s : State) : Host.Outcome State Fault Refusal :=
  next (if !s.pins.standby || s.pins.pwrEn then s
    else
      let s1 := refBack (markOrigin { s with pins := { s.pins with pwrEn := true } })
      match s.pins.fellAt with
      | some t => if s.hub < t + rampGap then s1 else startRamp s1
      | none => startRamp s1)

/-- RAMP_START_DELAY (R1071). -/
def execRampStartDelay (s : State) : Host.Outcome State Fault Refusal :=
  next (match s.pins.fellAt with
    | some t =>
      if s.pins.pwrEn && !s.pins.ramping && !s.pins.rails && !s.pins.latched && t + rampGap ≤ s.hub then startRamp s else s
    | none => s)

/-- PWR_EN_FALL: the module stops without Sundown (R891); FAULT_N and the latch of R1069 are released. -/
def execPwrEnFall (s : State) : Host.Outcome State Fault Refusal :=
  let c := mainsOff s
  next (if !s.pins.pwrEn then s
    else { c with faultN := true, resetCause := .pwrEn, pins := { c.pins with pwrEn := false, latched := false, fellAt := some s.hub } })

/-- RESET_N_ASSERT: a module reset (R904), also a PCIe fundamental reset; FAULT_N is released (R890). -/
def execResetNAssert (s : State) : Host.Outcome State Fault Refusal :=
  let c := moduleReset s
  next (if !s.pins.resetN then s else { c with faultN := true, resetCause := .resetN, pins := { c.pins with resetN := false } })

/-- RESET_N_DEASSERT: the origin of bring-up; with the rails in regulation Dawn begins (R894, R896). -/
def execResetNDeassert (s : State) : Host.Outcome State Fault Refusal :=
  next (if s.pins.resetN then s
    else
      let s1 := refBack (markOrigin { s with pins := { s.pins with resetN := true } })
      if s.pins.rails then beginDawn s1 else s1)

/-- RAILS_IN_REGULATION: Dawn begins, unless RESET_N is low; without the reference the rails do not rise (R896). -/
def execRailsInRegulation (s : State) : Host.Outcome State Fault Refusal :=
  next (if !s.pins.ramping || !s.pins.refclk then s
    else
      let s1 := { s with pins := { s.pins with ramping := false, rails := true } }
      if s.pins.resetN then beginDawn s1 else s1)

/-- A stage of Dawn to Morning is under way. -/
def State.inStage (s : State) (k : Nat) : Bool := s.pins.rails && s.pins.resetN && s.boot.dawn && s.boot.stage == k

/-- Bring-up stops: Halted or Recovery with FAULT_N low (R898, R900). The event waits for a log that never starts (R936)
and counts against the module limit (R1011). DEDUCED, log entry 90. -/
def haltEarly (s : State) (stage : Nat) : State :=
  { s with boot := { s.boot with stage, haltCause := 0x52F5 }, faultN := false, fatalLog := s.hub :: s.fatalLog
           early := s.early ++ [{ code := 0x52F5, data := [0, 0, 0, s.boot.stage] }] }

/-- What the fuses hold (R897). -/
def Sec.dieFuses (c : Sec) : DieFuses :=
  { trim := c.trim, memRepair := c.memRepair, stepping := c.stepping, serial := c.serial, counters := c.counters }

/-- DAWN_END: the fuses of the nine dies are loaded (R897, R898). -/
def execDawnEnd (ok : Bool) (s : State) : Host.Outcome State Fault Refusal :=
  next (if !s.inStage 1 then s
    else if ok then { s with boot := { s.boot with stage := 2, dawnEndAt := s.hub, loaded := some s.sec.dieFuses } }
    else haltEarly s 6)

/-! Sunrise (R899 to R902). -/

/-- PART_MASK of VF1 to VF8 as a record holds them (R931). -/
def mapMasks (b : List Byte) : List Nat := (List.range 8).map fun i => (b.getD (4 + i) 0).toNat

/-- The VF partition map record meets its table, and no two masks share a bit (R596, R931). -/
def mapOk (b : List Byte) : Bool :=
  let m := mapMasks b
  b.length == 16 && leNat (b.take 4) == 0x56460100 && leNat ((b.drop 12).take 4) == crc32c (b.take 12) &&
    allParts.all fun p => (m.filter fun x => bitOf x p).length ≤ 1

/-- The VF partition map takes effect: the shipped map where none was written, no mask where the record is rejected (R594 to
R596). -/
def loadMap (s : State) : State :=
  let b := s.pcie.mapRecord
  if b = [] then { s with pcie := { s.pcie with mask := [1, 2, 4, 8, 16, 32, 64, 128] } }
  else if mapOk b then { s with pcie := { s.pcie with mask := mapMasks b } }
  else logEvent { s with pcie := { s.pcie with mask := List.replicate 8 0 } } { code := 0x1293 }

/-- The cabling plan is read and checked (R833): without a valid one every port is waived and none trains. What waited for this bring-up
takes effect (R834). -/
def loadPlan (s : State) : State :=
  let none_ (s : State) : State :=
    { s with plan := none, moduleId := 0,
             ports := allPorts.foldl (fun t k => tabMod {} t k fun P => { P with waived := true, check := 0 }) s.ports }
  match s.planStored with
  | none => none_ s
  | some b =>
    match planFault b with
    | some o => logEvent (none_ s) { code := 0x22D1, data := [o] }
    | none =>
      let s1 := if s.planWaits then logEvent s { code := 0x12D2, data := [recW b 4] } else s
      { s1 with
        plan := some b
        planWaits := false
        moduleId := planId b
        boot := { s.boot with planValid := true }
        ports := allPorts.foldl (fun t k => tabMod {} t k fun P =>
          { P with waived := planWaive b k, absentBy := some (s.hub + 25000000 * planLimit b) }) s.ports }

/-- The measurements of Sunrise (R1048). DEDUCED, log entry 93. -/
def measureBoot (s : State) (b : List Byte) : State :=
  let s1 := extendMr (extendMr s 0 (Config.sha256 Config.twilightRom)) 0 (Config.sha256 (bunBytes b 6))
  let s2 := extendMr (extendMr s1 1 (Config.sha256 (bunManifest b))) 2 s.sec.fuseBytes
  let recs := (match s.planStored with | some p => [p] | none => []) ++
    (if s.pcie.mapRecord = [] then [] else [s.pcie.mapRecord]) ++ (if s.ethRecord = [] then [] else [s.ethRecord])
  let s3 := recs.foldl (fun s r => extendMr s 3 (Config.sha256 r)) s2
  let e := s.escal
  extendMr s3 3 (Config.sha256 (wordsBytes [wd e 0 * 2 ^ 24 + wd e 1 * 65536 + wd e 2 * 256 + wd e 3, wd e 4]))

/-- The fatal records of the events that took the rails down, from the Twilight island's records (R1009). -/
def twilightRecord (s : State) : State :=
  s.twilight.foldl (fun s t =>
    let r : LogRec := { seq := 0, code := wd t 0, ctx := 0, part := none, count := 1, time := wd t 1, data := [wd t 2, wd t 3] }
    { s with flashFatal := tabSet s.flashFatal s.nextFatal ⟨[r], s.abortSeq, s.hub⟩, nextFatal := (s.nextFatal + 1) % 256 }) { s with twilight := [] }

/-- The bank that Sunrise runs: the active one, else the other; none where both fail (R900, R1043). -/
def bootBank (c : Sec) : Option Bool :=
  let good (b : Bool) : Bool := if b then !c.badB && bundleOk c c.bankB else !c.badA && bundleOk c c.bankA
  if good c.activeB then some c.activeB else if good (!c.activeB) then some (!c.activeB) else none

/-- The log starts with what was kept for it (R936). -/
def startLog (s : State) : State := s.early.foldl logEvent { s with early := [] }

/-- Morning starts: every stack and every lane pair trains (R903). -/
def startMorning (s : State) : State :=
  let s1 := (allParts.flatMap stacksOf).foldl startItem s
  if s1.plan.isNone then s1 else allPorts.foldl startPort s1

/-- SUNRISE_END: firmware is verified and loaded, the configuration is read, MCP_READY and the CMI version are set (R899 to
R901). -/
def execSunriseEnd (temps railsMv : List Nat) (s : State) : Host.Outcome State Fault Refusal :=
  next (if !s.inStage 2 then s
    else
      match bootBank { s.sec with counters := s.loadedFuses.counters } with
      | none => haltEarly s 7
      | some bank =>
        let run := if bank then s.sec.bankB else s.sec.bankA
        let s1 := twilightRecord (startLog { s with sec := { s.sec with runsB := bank, run } })
        let s2 := if bank = s.sec.activeB then s1 else logEvent s1 { code := 0x12F4, data := [0, 0, 0, 2] }
        let s3 := measureBoot s2 s2.sec.running
        let s4 := loadPlan (loadMap s3)
        let s5 := if s4.ethRecord = [] || ethRecordOk s4.ethRecord then s4 else logEvent s4 { code := 0x12F6, data := [0x12, 2] }
        startMorning { s5 with
          mcpReady := true
          mcpAt := s5.hub
          parts := allParts.foldl (fun t p => tabMod {} t p fun P => { P with dcpAt := P.count }) s5.parts
          faultN := !s5.moduleOos
          boot := { s5.boot with stage := 3, cmi := true, temps, railsMv } })

/-! Morning. -/

/-- THERMAL_SETTLE (R907): not before 5 s of samples. DEDUCED, log entry 92. -/
def execThermalSettle (s : State) : Host.Outcome State Fault Refusal :=
  next (if s.boot.settled || !s.boot.cmi || s.hub < s.boot.dawnEndAt + us 5000000 then s
    else { s with boot := { s.boot with settled := true
                                        items := tabMap s.boot.items fun _ t => if t == .waitCold then .cold else t } })

/-- The module enters Halted in Morning (R918). -/
def haltMorning (s : State) : State :=
  let s1 := raise s { code := 0x52F5, data := [0, 0, 0, s.boot.stage] }
  { s1 with boot := { s1.boot with stage := 6, haltCause := 0x52F5 } }

/-- Partition p may not serve in this bring-up (R908, R913); with the last of the eight the module halts (R918). -/
def failPart (s : State) (p : Nat) : State :=
  let s1 := { s with boot := { s.boot with partFailed := setIns s.boot.partFailed p } }
  if s1.inStage 3 && allParts.all s1.boot.partFailed.contains then haltMorning s1 else s1

/-- TEST_MODE_EXIT has ended for partition p: back in service, or out of service (R928). -/
def testEnd (s : State) (p o : Nat) (ok : Bool) : State :=
  let P := s.part p
  let Q := { P with testExit := none, inTest := false }
  let s1 := s.setPart p (if ok && !P.oos then enterService Q else Q)
  match tabFind s1.ops o with
  | none => s1
  | some x =>
    let left := setDel x.todo p
    if left = [] then endOp s1 o 0 [] else { s1 with ops := tabSet s1.ops o { x with todo := left } }

/-- A stack has failed its last cold training (R908). A reset that waits for it goes on with PARTITION_REINIT. -/
def stackFailed (s : State) (i : Nat) : State :=
  let p := i / 3
  let s1 := logEvent s { code := 0x42F2, part := some p, data := itemData s i }
  let s2 := if s.boot.stage = 3 then failPart s1 p else s1
  match (s2.part p).testExit with
  | some o => testEnd s2 p o false
  | none => s2

/-- An item has trained: a lane pair is locked and exchanges identities (R910). -/
def itemDone (s : State) (i : Nat) : State :=
  let s1 := s.setItem i .done
  if i < 24 then
    let P := s1.part (i / 3)
    s1.setPart (i / 3) { P with hbm := { P.hbm with touched := setDel P.hbm.touched i } }
  else
    let k := (i - 24) / 8
    let n := (i - 24) % 8
    s1.setLp k n { s1.lp k n with locked := true, seen := false }

/-- An item has failed its last training (R908): its partition stays out of service, or its port is DOWN and retries (R770). -/
def itemFailed (s : State) (i : Nat) : State :=
  let s1 := s.setItem i .failed
  if i < 24 then stackFailed s1 i
  else
    let k := (i - 24) / 8
    s1.setPort k { s1.port k with st := .down, retryAt := s.hub }

/-- Log a retry or a refinement (R906). -/
def trainRetry (s : State) (i : Nat) : State := logEvent s { code := 0x12F1, data := itemData s i }

/-- TRAINING_ITEM_DONE: a training has run and its margin check has passed or not (R905, R906). -/
def execTrainingItemDone (item : Fin 72) (marginOk : Bool) (s : State) : Host.Outcome State Fault Refusal :=
  next (match s.item item, marginOk with
    | .saved, true => itemDone s item
    | .refining, true => itemDone s item
    | .cold, true => itemDone s item
    | .coldRetry, true => itemDone s item
    | .saved, false =>
      let s1 := (trainRetry s item).setItem item .refining
      { s1 with boot := { s1.boot with refined := setIns s1.boot.refined item, worked := setIns s1.boot.worked item } }
    | .refining, false => startCold (trainRetry s item) item
    | .cold, false => (trainRetry s item).setItem item .coldRetry
    | .coldRetry, false => itemFailed s item
    | .idle, _ => s
    | .waitCold, _ => s
    | .done, _ => s
    | .failed, _ => s)

/-- The stacks of partition p have trained. -/
def stacksDone (s : State) (p : Nat) : Bool := (stacksOf p).all fun i => s.item i == .done

/-- PARTITION_ZEROED: in Morning, or where the partition leaves test mode (R909, R911, R928). -/
def execPartitionZeroed (p : Fin 8) (s : State) : Host.Outcome State Fault Refusal :=
  next (if (s.inStage 3 || (s.part p).testExit.isSome) && stacksDone s p && !s.boot.zeroed.contains p then
      placeImages (zeroHbm { s with boot := { s.boot with zeroed := setIns s.boot.zeroed p } } p) p
    else s)

/-- The Morning images of partition p are in place, and its compute part may run: in Morning and test mode once it is zeroed, unless
escalation keeps it out of service (R1014); in a reset at step 8. -/
def imagesPlaced (s : State) (p : Nat) : Bool :=
  match (s.part p).reset with
  | some r => r.step == .ending
  | none => !(s.part p).oos && s.boot.zeroed.contains p && (s.inStage 3 || (s.part p).testExit.isSome)

/-- A core has failed twice: its partition stays out of service (R913). -/
def coreFailed (s : State) (p core : Nat) : State :=
  let s1 := logEvent s { code := 0x42F3, part := some p, data := [p, core, 0, s.boot.stage] }
  match (s1.part p).reset, (s1.part p).testExit with
  | some r, _ => resetToOos s1 p r
  | none, some o => testEnd s1 p o false
  | none, none => failPart s1 p

/-- The kind of a partition's core (R911, R1041): 96 SVUs, then 16 tile sequencers, then the CP. DESIGN CHOICE, log entry 147. -/
def coreKind (core : Nat) : Nat := if core < 96 then 1 else if core < 112 then 2 else 3

/-- The image that a core of partition p fetches has the digest that the security core gives for its kind (R912, R1044). -/
def fetchedOk (s : State) (p core : Nat) : Bool :=
  let b := s.sec.running
  let k := coreKind core
  bunDigestOk b k ((List.range (bunBytes b k).length).map fun i => memByte (s.part p).hbm.mem (imagePlace b k + i))

/-- MORNING_CORE_VERIFY: a core runs once the digest of the image that it has fetched equals the one given to it; it fetches a failing
image once more (R912, R913, R1044). `digestOk` is false where the fetch itself went wrong. -/
def execMorningCoreVerify (p : Fin 8) (core : Fin 113) (digestOk : Bool) (s : State) : Host.Outcome State Fault Refusal :=
  let k := 128 * p.val + core.val
  let st := tabGet 0 s.boot.cores k
  let put (v : Nat) : State := { s with boot := { s.boot with cores := tabSet s.boot.cores k v } }
  next (if !imagesPlaced s p || 2 ≤ st then s
    else if digestOk && fetchedOk s p core then
      let s1 := put 2
      match (s1.part p).testExit with
      | some o => if coresRun s1 p then testEnd s1 p o true else s1
      | none => s1
    else if st = 0 then put 1
    else coreFailed (put 3) p core)

/-- NVWS_MOUNT_DONE (R903, R918). -/
def execNvwsMountDone (ok : Bool) (s : State) : Host.Outcome State Fault Refusal :=
  next (if !s.inStage 3 || s.nvws.mounted then s
    else if ok then { s with nvws := { s.nvws with mounted := true } }
    else haltMorning s)

/-- Partition p has come up, and no reset of it runs. -/
def partUp (s : State) (p : Nat) : Bool :=
  !(s.part p).oos && stacksDone s p && s.boot.zeroed.contains p && coresRun s p && (s.part p).reset.isNone

/-- Partition p stays out of service in this bring-up: it has failed, or escalation keeps it so although its stacks have trained
(DEDUCED, log entry 91). -/
def partOut (s : State) (p : Nat) : Bool :=
  s.boot.partFailed.contains p || ((s.part p).oos && stacksDone s p && s.boot.zeroed.contains p)

/-- The fabric part of readiness (R843). -/
def fabricReady (s : State) : Bool :=
  allPorts.all fun k => (s.port k).waived || ((s.port k).st == .up && (s.port k).check == 1)

/-- Every item that trained used its saved settings, none was left out (GID_BRINGUP.SAVED_ALL). -/
def savedAll (s : State) : Bool := s.boot.worked == [] && (List.range 72).all fun i => s.item i == .done

/-- READINESS (R914, R915, R1039): partitions that came up serve, the stacks of the others are in self-refresh (R1014), the readiness
sensor is raised, the attestation key is made and certified. E starts at the module power (R957), which nothing has measured: a free
value (DESIGN CHOICE, log entry 133). -/
def execReadiness (s : State) : Host.Outcome State Fault Refusal :=
  next (if !s.inStage 3 || s.stopped || !(allParts.all fun p => partOut s p || partUp s p) || !s.nvws.mounted || !fabricReady s then s
    else
      let degraded := s.plan.isNone || (match s.plan with | some b => allPorts.any (planWaive b) | none => false)
      let idle (P : Part) : Part := { P with hbm := { P.hbm with selfRefresh := true } }
      let s0 := allParts.foldl (fun t p => t.setPart p (if partOut s p then idle (t.part p) else enterService (t.part p))) s
      let f := s0.takeFree
      let s1 := f.2
      { s1 with
        ready := true
        readySensor := true
        power := { s1.power with e := f.1 }
        sec := { s1.sec with akCert := Config.akCert s1.hub (s1.sec.mr.take 3).flatten }
        boot := { s1.boot with stage := if degraded then 5 else 4, readyAt := s1.hub, savedAll := savedAll s1
                               partFailed := allParts.filter (partOut s1) } })

/-- SAVED_RECORD_WRITE (R923): an item that this bring-up refined or trained cold. -/
def execSavedRecordWrite (item : Fin 72) (tempC : Nat) (railMv : Nat) (s : State) : Host.Outcome State Fault Refusal :=
  next (if !s.ready || !s.boot.refined.contains item || s.item item != .done then s
    else
      let r : SavedRec := { tempC, railMv, at_ := s.hub, fw := bunVersion s.sec.running
                            repairs := if item.val < 24 then stackRepairs s item else []
                            partner := if item.val < 24 then none else (s.lp ((item.val - 24) / 8) ((item.val - 24) % 8)).identity }
      { s with saved := tabSet s.saved item r, boot := { s.boot with refined := setDel s.boot.refined item } })

/-- Fuses after a raise (R1046): counters at the bundle's versions, the named keys revoked but for the bundle's own. -/
def raiseFuses (c : Sec) (b : List Byte) : Sec :=
  { c with counters := [0, 1, 2].map (fun g => max (c.counters.getD g 0) (bunSvn b g))
           revoked := setInsAll c.revoked ((bunRevoke b).filter (· != bunKey b)) }

/-- FW_SVN_RAISE (R1046, R1048). DEDUCED, log entry 94. -/
def execFwSvnRaise (s : State) : Host.Outcome State Fault Refusal :=
  let b := s.sec.running
  next (if !s.ready || s.sec.raised || !bunAdvance b then s
    else
      let c : Sec := { raiseFuses s.sec b with raised := true }
      let s1 := { s with sec := c }
      if c.fuseBytes = s.sec.fuseBytes then s1
      else
        logEvent (extendMr s1 2 c.fuseBytes)
          { code := 0x12F8, data := [bunVersion b, bunKey b, c.counters.foldl (fun a x => 256 * a + x) 0] })

/-! Configuration written through PLDM. -/

/-- VF_MAP_WRITE, component 0x0011: stored; it takes effect at the next Sunrise (R594, R880, R882). -/
def execVfMapWrite (record : List Byte) (s : State) : Host.Outcome State Fault Refusal :=
  next (if !s.mcRuns then s
    else { s with pcie := { s.pcie with mapRecord := record }, fwUpdates := s.fwUpdates ++ [0x11] })

/-- Log an event, or keep it in the Twilight island until the log starts (R936). -/
def logOrKeep (s : State) (e : Ev) : State := if s.boot.cmi then logEvent s e else { s with early := s.early ++ [e] }

/-- FIRMWARE_BUNDLE_UPDATE, component 0x0001: written into the inactive bank, in Recovery too; the directory switches once the bank has
been verified, and PLDM reports whether it passed (R880, R882, R883, R886, R900, R1043). -/
def execFirmwareBundleUpdate (bundle : List Byte) (s : State) : Host.Outcome State Fault Refusal :=
  let c := s.sec
  let ok := bundleOk c bundle
  let put := if c.activeB then { c with bankA := bundle, badA := !ok } else { c with bankB := bundle, badB := !ok }
  let s1 := { s with fwUpdates := s.fwUpdates ++ [0x01], fwResults := s.fwResults ++ [ok] }
  next (if !s.mcRuns then s
    else if ok then { s1 with sec := { put with activeB := !c.activeB } }
    else logOrKeep { s1 with sec := put }
      { code := 0x12F7, data := [bunVersion bundle, bunKey bundle, c.counters.foldl (fun a x => 256 * a + x) 0] })

/-- TRAINING_SAVED_CLEAR (R924, R925). -/
def execTrainingSavedClear (fn : Fin 9) (s : State) : Host.Outcome State Fault Refusal :=
  next (runOp s fn 0x0A04 fun s r =>
    let w := r.payload
    let named (i : Nat) : Bool := if i < 24 then bitOf (wd w 0) i else bitOf (wd w 1) ((i - 24) / 8)
    checked s fn r [ reservedCheck [0xFF000000, 0xFFFFFFC0] w 0x16 ]
      (okReply { s with saved := s.saved.filter fun e => !named e.1
                        boot := { s.boot with refined := s.boot.refined.filter fun i => !(named i && s.item i == .done) } } fn r []))

/-! Test mode. -/

/-- TEST_MODE_ENTER (R926): it waits for a reset of a named partition to end. DEDUCED, log entry 96. -/
def execTestModeEnter (fn : Fin 9) (s : State) : Host.Outcome State Fault Refusal :=
  next (runMsg s fn 0x0A01 (fun r => (maskParts (wd r.payload 0 % 256)).all fun p => (s.part p).reset.isNone) fun s r =>
    let ps := maskParts (wd r.payload 0 % 256)
    checked s fn r
      [ reservedCheck [0xFFFFFF00] r.payload 0x16,
        (ps.any fun p => s.ctxsOn p != [] || (s.part p).inTest || (s.part p).testExit.isSome, 0x0A01, noField) ]
      (okReply (ps.foldl (fun s p =>
        let P := s.part p
        s.setPart p { P with inService := false, inTest := true, dispHeld := true, act := 0, idleAt := none,
                             hbm := { P.hbm with selfRefresh := true, wokenAt := none } }) s) fn r []))

/-- A partition leaves test mode: its stacks train, cold where a repair changed them (R928). -/
def leaveTest (s : State) (p o : Nat) : State :=
  let P := s.part p
  let s1 := s.setPart p { P with inTest := false, testExit := some o, hbm := { P.hbm with selfRefresh := false } }
  let s2 := { s1 with boot := { s1.boot with zeroed := setDel s1.boot.zeroed p
                                             cores := s1.boot.cores.filter fun e => e.1 / 128 != p } }
  (stacksOf p).foldl (fun s i => if P.hbm.touched.contains i then startCold s i else startItem s i) (resetTiles s2 p)

/-- TEST_MODE_EXIT (R928). -/
def execTestModeExit (fn : Fin 9) (s : State) : Host.Outcome State Fault Refusal :=
  next (runOp s fn 0x0A02 fun s r =>
    let ps := maskParts (wd r.payload 0 % 256)
    checked s fn r
      [ reservedCheck [0xFFFFFF00] r.payload 0x16, (ps.any fun p => !(s.part p).inTest, 0x16, atWord 0) ]
      (if ps = [] then okReply s fn r []
       else
         let b := beginOp s fn r ps 0 0
         ps.foldl (fun s p => leaveTest s p b.2) b.1))

/-! Losses and shut-offs. -/

/-- REFCLK_LOSS (R896, R938). -/
def execRefclkLoss (s0 : State) : Host.Outcome State Fault Refusal :=
  let s := { s0 with pins := { s0.pins with refclk := false } }
  next (if s.pins.pwrEn && s.running then raise s { code := 0x5305, data := [0, 0, s.power.e / 1000, s.power.dMw / 1000] } else s)

/-- A shut-off condition that arises together with one that has just switched the rails off (R1068): within the longest of their
deadlines, 1 ms (R1067). DEDUCED, log entry 134. -/
def joinsShutOff (s : State) : Bool :=
  s.pins.latched && match s.twilight.getLast? with | some t => s.hub < wd t 1 + us 1000 | none => false

/-- A Module-fatal event switches the main rails off (R1009, R1069): the Twilight island keeps code, count, voltage and current. Of
several that arise together each is kept (R1068). -/
def shutOff (s : State) (code : Nat) : State :=
  if !s.pins.rails && !s.pins.ramping then
    match s.twilight.getLast? with
    | some t => if joinsShutOff s then { s with twilight := s.twilight ++ [[code, s.hub, wd t 2, wd t 3]] } else s
    | none => s
  else
    let c := mainsOff s
    { c with faultN := false, twilight := [[code, s.hub, s.power.inputMv, s.power.input10ma]], resetCause := .shutOff code,
             pins := { c.pins with latched := true } }

/-- THERMAL_TRIP (R969). -/
def execThermalTrip (s : State) : Host.Outcome State Fault Refusal := next (shutOff s 0x5303)

/-- OVERCURRENT (R971). -/
def execOvercurrent (s : State) : Host.Outcome State Fault Refusal := next (shutOff s 0x5304)

end Sys2Proof.Machine
end

