-- ==== Sys2Proof/Machine/GraphMsgs.lean ====
section
/-! DEFINITION. Graph messages: posting segments with their checks, releases, aborts, completion rings and the query (R487 to
R493, R536, R584 to R593). -/

namespace Sys2Proof.Machine

/-! The checks of a post (R493). -/

/-- The subgraph that a CALL or LOOP names. -/
def subOf (ws : List Nat) : Option Nat :=
  let ty := bitsOf (wd ws 0) 31 28
  if ty = 5 || ty = 6 then some (bitsOf (wd ws 6) 15 0) else none

/-- Levels of CALL and LOOP below a segment's nodes, counted as far as the fuel reaches. -/
def depthOf (segs : Tab Seg) : Nat → List (List Nat) → Nat
  | 0, _ => 0
  | k + 1, nodes => nodes.foldl (fun a ws =>
      match subOf ws with
      | none => a
      | some h => match tabFind segs h with
        | some g => max a (1 + depthOf segs k g.nodes)
        | none => a) 0

/-- Worst-case instance count (R490); the fuel bounds the nesting of R493. -/
def worstOf (segs : Tab Seg) : Nat → List (List Nat) → Nat
  | 0, nodes => nodes.length
  | k + 1, nodes => nodes.foldl (fun a ws =>
      match subOf ws with
      | none => a
      | some h => match tabFind segs h with
        | some g => a + worstOf segs k g.nodes
        | none => a) nodes.length

/-- Offset in its node of edge e, as the offset columns of the header and of the JOIN body give it: PRED0 and PRED1 at 0x04, PRED2
and PRED3 at 0x08, a JOIN's further edge j at 0x1C + 2j (R494, the table after R520). -/
def edgeOff (npred e : Nat) : Nat := if e < npred then 4 + 4 * (e / 2) else 0x1C + 2 * (e - npred)

/-- The raw half words of a node's edges: at most the four that the header holds and the eighteen of a JOIN. -/
def rawEdges (ws : List Nat) : List Nat :=
  (List.range (min 4 (bitsOf (wd ws 0) 27 25))).map (fun k => halfWord ws 1 k) ++
  (if bitsOf (wd ws 0) 31 28 = 10 then (List.range (min 18 (bitsOf (wd ws 6) 4 0))).map (fun j => halfWord ws 7 j) else [])

/-- The offset in node i of the field for which its post is refused, by the cases of R493 in their order. -/
def nodeFault (segs : Tab Seg) (nodes : List (List Nat)) (i : Nat) (ws : List Nat) : Option Nat :=
  let w0 := wd ws 0
  let ty := bitsOf w0 31 28
  let np := bitsOf w0 27 25
  let raw := rawEdges ws
  let find (f : Nat → Bool) : Option Nat := (List.range raw.length).findSome? fun e => if f (wd raw e) then some (edgeOff (min 4 np) e) else none
  match find fun h => i ≤ bitsOf h 11 0 with
  | some o => some o
  | none =>
    if bitsOf w0 11 0 ≠ i then some 0
    else if 11 ≤ ty || 4 < np then some 0
    else if ty = 10 && 18 < bitsOf (wd ws 6) 4 0 then some 0x18
    else
      match find fun h => bitsOf h 13 12 == 3 || bitsOf h 15 14 != 0 with
      | some o => some o
      | none =>
        match find fun h => bitsOf h 13 12 != 0 && bitsOf (wd (nodes.getD (bitsOf h 11 0) []) 0) 31 28 != 4 with
        | some o => some o
        | none =>
          match subOf ws with
          | none => none
          | some h =>
            match tabFind segs h with
            | none => some 0x18
            | some g => if g.root || 8 < 1 + depthOf segs 9 g.nodes then some 0x18 else none

/-- The byte offset that a refused post reports (R493), none for a segment that may be posted. -/
def segFault (segs : Tab Seg) (nodes : List (List Nat)) : Option Nat :=
  (List.range nodes.length).findSome? fun i => (nodeFault segs nodes i (nodes.getD i [])).map (64 * i + ·)

/-- Nodes stored on partition p (R489). -/
def storedNodes (s : State) (p : Nat) : Nat :=
  s.ctxs.foldl (fun a e => (tabGet {} e.2.cpart p).segs.foldl (fun a g => a + g.2.nodes.length) a) 0

/-- Segments stored on partition p. -/
def storedSegs (s : State) (p : Nat) : Nat := s.ctxs.foldl (fun a e => a + (tabGet {} e.2.cpart p).segs.length) 0

/-- Worst-case instances of the unfinished root segments of partition p (R491). -/
def worstTotal (s : State) (p : Nat) : Nat :=
  s.ctxs.foldl (fun a e =>
    let segs := (tabGet {} e.2.cpart p).segs
    segs.foldl (fun a g => if g.2.root then a + worstOf segs 9 g.2.nodes else a) a) 0

/-- Node instances in flight on partition p: those that have not resolved. -/
def inFlight (s : State) (p : Nat) : Nat := ((s.part p).insts.filter fun e => !e.2.st.resolved).length

/-- Words of n nodes in a byte list. -/
def nodesOf : Nat → List Byte → List (List Nat)
  | 0, _ => []
  | n + 1, bs => bytesWords 16 bs :: nodesOf n (bs.drop 64)

/-- Nodes that follow the payload header. -/
def inlineNodes : Nat → List Nat → List (List Nat)
  | 0, _ => []
  | n + 1, ws => ws.take 16 :: inlineNodes n (ws.drop 16)

/-- The nodes that a GRAPH_POST carries or names: none where they cannot be read. -/
def postNodes (s : State) (r : Req) (p n : Nat) (nodes : HostRd) : Option (List (List Nat)) × State :=
  let w0 := wd r.payload 0
  if bitOf w0 30 then (some (inlineNodes n (r.payload.drop 4)), s)
  else if bitOf w0 29 then
    match nodes with
    | .data bs => (some (nodesOf n bs), s)
    | _ => (none, s)
  else
    match readDva s p r.ctx (s.ctx r.ctx).mapVer (wd64 r.payload 2) (64 * n) 16 with
    | .ok (bs, s1) => if (clean bs).2 then (none, s1) else (some (nodesOf n (clean bs).1), s1)
    | .error (_, s1) => (none, s1)

/-- Store a segment; a root segment starts (R492, R585, R586). -/
def postSegment (s : State) (k : Nat) (r : Req) (p : Nat) (root : Bool) (nodes : List (List Nat)) : State :=
  let segs := (s.cp r.ctx p).segs
  match freshId s (fun h => (tabFind segs h).isSome) 1 65535 segs.length with
  | none => refuseMsg s k r 0x0301 noField
  | some (h, s1) =>
    let x := s1.cp r.ctx p
    let s2 := s1.setCp r.ctx p { x with segs := tabSet x.segs h ⟨root, nodes⟩ }
    let s3 := if root then instantiate s2 p r.ctx h nodes none 0 else s2
    okReply s3 k r [h]

/-- GRAPH_POST (R584 to R586). `nodes`: what a read of host memory returned where the nodes lie there.
DEDUCED, log entry 62. -/
def execGraphPost (fn : Fin 9) (nodes : HostRd) (s : State) : Host.Outcome State Fault Refusal :=
  next (runOp s fn 0x0301 fun s r =>
    let w0 := wd r.payload 0
    let p := bitsOf w0 18 16
    let n := bitsOf w0 12 0
    let inl := bitOf w0 30
    let addr := wd64 r.payload 2
    checked s fn r (partChecks s fn r p 0 0x16 ++
      [ reservedCheck [0x1FF8E000, 0xFFFFFFFF] r.payload 0x16,
        (n == 0 || 4096 < n || (inl && 63 < n), 0x16, atWord 0),
        (inl && bitOf w0 29, 0x16, atWord 0),
        (if inl then addr != 0 else addr % 64 != 0, 0x16, atWord 2) ])
      (match postNodes s r p n nodes with
        | (none, s1) => refuseMsg s1 fn r 0x16 (atWord 2)
        | (some ns, s1) =>
          let segs := (s1.cp r.ctx p).segs
          let root := !bitOf w0 31
          match segFault segs ns with
          | some o => refuseMsg s1 fn r 0x0302 (0x10 + o)
          | none =>
            if 16384 < storedNodes s1 p + n || (root && 4096 < worstTotal s1 p + worstOf segs 9 ns) then
              refuseMsg s1 fn r 0x0301 noField
            else postSegment s1 fn r p root ns))

/-- SUBGRAPH_RELEASE (R492, R587). -/
def execSubgraphRelease (fn : Fin 9) (s : State) : Host.Outcome State Fault Refusal :=
  next (runOp s fn 0x0302 fun s r =>
    let w0 := wd r.payload 0
    let p := bitsOf w0 18 16
    let h := bitsOf w0 15 0
    let x := s.cp r.ctx p
    let used := (x.segs.any fun g => g.2.nodes.any fun ws => subOf ws == some h) ||
      (s.part p).insts.any fun e => e.2.ctx == r.ctx && e.2.seg == h && e.2.parent.isSome
    checked s fn r (partChecks s fn r p 0 0x16 ++
      [ reservedCheck [0xFFF80000] r.payload 0x16,
        ((match tabFind x.segs h with | some g => g.root | none => true), 0x0303, atWord 0),
        (used, 0x0302, atWord 0) ])
      (okReply (s.setCp r.ctx p { x with segs := tabDel x.segs h }) fn r []))

/-- The unresolved instances that a GRAPH_ABORT names (R588). -/
def abortNames (s : State) (r : Req) (p : Nat) : List (Nat × Inst) :=
  let scope := bitsOf (wd r.payload 0) 31 30
  let seg := bitsOf (wd r.payload 1) 31 16
  (s.part p).insts.filter fun e =>
    let i := e.2
    i.ctx == r.ctx && !i.st.resolved &&
      (scope == 2 || (i.seg == seg &&
        (scope == 1 || (i.idx == bitsOf (wd r.payload 1) 11 0 && i.iter % 2 ^ 32 == wd r.payload 2))))

/-- GRAPH_ABORT: the commit points of the named instances at this instant decide (R536, R589, R590); the instances below a
named CALL or LOOP end with it; the reply waits for those past theirs. DEDUCED, log entry 116. -/
def execGraphAbort (fn : Fin 9) (s : State) : Host.Outcome State Fault Refusal :=
  next (runOp s fn 0x0303 fun s r =>
    let p := bitsOf (wd r.payload 0) 18 16
    checked s fn r (partChecks s fn r p 0 0x16 ++
      [ reservedCheck [0x3FF8FFFF, 0x0000F000] r.payload 0x16, (bitsOf (wd r.payload 0) 31 30 == 3, 0x16, atWord 0) ])
      (let named := abortNames s r p
       let short := (named.filter (·.2.st.short)).map (·.1)
       let past := (named.filter fun e => !e.2.st.short).map (·.1)
       let status := if named = [] then 0x0303 else if short = [] then 0x0001 else 0
       let below := (descendants nestFuel (s.part p).insts short).filter fun m =>
         match s.inst? p m with | some j => j.st.short | none => false
       let s2 := abandonSet s p (short ++ below) .aborted 0
       if past = [] then reply s2 fn r.no r.seq r.opcode r.ctx status (if named = [] then noField else 0) [short.length, 0]
       else (beginOp s2 fn r past short.length past.length).1))

/-- CPL_RING_SET (R547, R591). -/
def execCplRingSet (fn : Fin 9) (s : State) : Host.Outcome State Fault Refusal :=
  next (runOp s fn 0x0304 fun s r =>
    let w0 := wd r.payload 0
    let p := bitsOf w0 18 16
    let lg := bitsOf w0 4 0
    let base := wd64 r.payload 2
    let cons := wd64 r.payload 4
    checked s fn r (partChecks s fn r p 0 0x16 ++
      [ reservedCheck [0xFFF8FFE0, 0xFFFFFFFF] r.payload 0x16, (lg < 6 || 16 < lg, 0x16, atWord 0),
        (base % 4096 != 0, 0x16, atWord 2), (cons % 4 != 0, 0x16, atWord 4) ])
      (let x := s.cp r.ctx p
       okReply (s.setCp r.ctx p { x with ring := some ⟨base, lg, cons, 0⟩, broken := false }) fn r []))

/-- GRAPH_QUERY (R593). -/
def execGraphQuery (fn : Fin 9) (s : State) : Host.Outcome State Fault Refusal :=
  next (runOp s fn 0x0305 fun s r =>
    let p := bitsOf (wd r.payload 0) 18 16
    checked s fn r (partChecks s fn r p 0 0x16 ++ [ reservedCheck [0xFFF8FFFF] r.payload 0x16 ])
      (okReply s fn r [inFlight s p, storedNodes s p, storedSegs s p, worstTotal s p]))

end Sys2Proof.Machine
end

