-- ==== Sys2Proof/Machine/Power.lean ====
section
/-! DEFINITION. Activity states, the envelope, throttling and the sideband outputs (R881, R887 to R890, R937 to R971, R1083). -/

namespace Sys2Proof.Machine

/-! Activity states (R940 to R947). -/

/-- A COPY that runs writes memory of partition p. -/
def copyWrites (s : State) (p : Nat) (i : Inst) : Bool :=
  i.ty == 1 && i.st == .running && i.dstKind == 0 && i.cMode == 0 &&
    (s.ctx i.ctx).maps.any fun m =>
      m.part == p && m.born ≤ i.mapVer && (match m.died with | none => true | some d => i.mapVer < d) &&
        overlap m.dva (65536 * m.units.length) i.dst i.length

/-- A load writes memory of partition p. -/
def loadWrites (s : State) (p : Nat) : Bool :=
  s.loads.any fun e => !bitOf (wd e.2.words 0) 31 && (s.ctx e.2.ctx).parts.contains p

/-- A node that keeps its partition busy (R940). A WAIT, COND, LOOP or CALL that runs does not: the CP only waits with it (R942).
DEDUCED, log entry 97. -/
def busyNode (i : Inst) : Bool := i.st == .ready || (i.st == .running && !([2, 4, 5, 6].contains i.ty)) || i.st == .committing

/-- Partition p is idle (R940). -/
def partIdle (s : State) (p : Nat) : Bool :=
  let P := s.part p
  P.inService && P.reset.isNone && P.saveOp.isNone && !P.frozen &&
    !(P.insts.any fun e => busyNode e.2) &&
    !loadWrites s p && !(s.parts.any fun q => q.2.insts.any fun e => copyWrites s p e.2)

/-- Exit time and idle time before entry of A1 to A3, in µs. -/
def exitUs (k : Nat) : Nat := if k = 1 then 1 else if k = 2 then 30 else 1500

/-- Idle time before entry, in µs. -/
def entryUs (k : Nat) : Nat := if k = 1 then 10 else if k = 2 then 200 else 10000

/-- An unresolved WAIT on memory or COND limits the target to A2 (R942). -/
def limitsA2 (P : Part) : Bool :=
  P.insts.any fun e => !e.2.st.resolved && ((e.2.ty == 2 && e.2.kind) || e.2.ty == 4)

/-- The target state of partition p lies at k or deeper (R941, R942). -/
def targetAt (s : State) (p k : Nat) : Bool :=
  let P := s.part p
  partIdle s p && exitUs k ≤ (s.fn (s.ownerOf p)).latUs && !(k == 3 && limitsA2 P) &&
    (match P.idleAt with | some t => t + us (entryUs k) ≤ P.count | none => false)

/-- ACTIVITY_STEP_DOWN (R941 to R943): one state deeper, where module power after the step is at least E − 45 W. -/
def execActivityStepDown (p : Fin 8) (powerAfterMw : Nat) (s : State) : Host.Outcome State Fault Refusal :=
  let P := s.part p
  let k := P.act + 1
  next (if !s.running || 3 < k || !targetAt s p k || powerAfterMw + 45000 < s.power.e then s
    else
      let s1 := s.setPart p { P with act := k, actAt := P.count, hbm := { P.hbm with selfRefresh := k == 3, wokenAt := none } }
      noFiller s1 p)

/-- ACTIVITY_EXIT (R944): back to A0; the heartbeat check starts again after A3 (R982). DEDUCED, log entry 98. -/
def execActivityExit (p : Fin 8) (s : State) : Host.Outcome State Fault Refusal :=
  let P := s.part p
  next (if P.act = 0 || 3 < P.act then s
    else s.setPart p { P with act := 0, actAt := P.count, idleAt := none, beatAt := if P.act = 3 then P.count else P.beatAt,
                              hbm := { P.hbm with selfRefresh := false, wokenAt := none } })

/-! A4 (R950 to R954). -/

/-- A generation of a context that is bound. -/
def genBound (g : WGen) : Bool := g.bound != []

/-- The conditions of R950. DEDUCED, log entry 99. -/
def mayEnterA4 (s : State) : Bool :=
  (s.fn 0).allowA4 && 350000 ≤ minLat s &&
    !(s.parts.any fun e => e.2.insts.any fun i => !i.2.st.resolved) &&
    !(s.ctxs.any fun e => e.2.allocs != [] || e.2.bindings.any fun b => b.2.gens.any fun g =>
      !genBound g.2 || (tabFind s.nvws.images g.2.image).isNone) &&
    allParts.all fun p => (s.part p).act == 3 && (s.part p).actAt + us 10000000 ≤ (s.part p).count

/-- A4_ENTRY (R951): compute, HBM and link islands go off; every port goes quiet. Fence words, counts, mappings, generation records and
what the frames of context 0 hold are kept; the Twilight island keeps the die counts (R643). -/
def execA4Entry (s : State) : Host.Outcome State Fault Refusal :=
  next (if !s.ready || !s.running || s.power.a4 || !mayEnterA4 s then s
    else
      let s1 := allParts.foldl (fun s p =>
        let P := s.part p
        resetTiles (s.setPart p { P with act := 4, actAt := P.count, idleAt := none,
                                         hbm := { P.hbm with mem := memZero P.hbm.mem 0 (64 * systemLine), poison := [], ue := [], ce := [] } }) p) s
      let s2 := allPorts.foldl (fun s k => if (s.port k).st == .up then quietPort s k .down else s) s1
      { s2 with power := { s2.power with a4 := true, a4Ports := fpSaved s }
                keptCounts := some (s.hub, allParts.map fun p => (s.part p).count) })

/-- Reload the bound generations of a context on partition p from the weight store. DEDUCED, log entry 100. -/
def reloadBound (s : State) (c p : Nat) : State :=
  ((s.ctx c).bindings.flatMap fun b => b.2.gens.map fun g => (b.1, g.1, g.2)).foldl (fun s e =>
    if !e.2.2.bound.contains p then s
    else reloadOn s c e.1 e.2.1 p e.2.2) s

/-- A partition leaves A4: memory zero but for its bound generations and the context-0 frames, dumps in them included, which are
restored (R951, R952), codebooks and banks rewritten, in A0. -/
def wakePart (s : State) (p : Nat) : State :=
  let s1 := (s.ctxsOn p).foldl (fun s c => reloadBound (s.setCp c p (restoreCp (s.cp c p))) c p) (zeroFrames s p (64 * systemLine))
  let P := s1.part p
  s1.setPart p { P with act := 0, actAt := P.count, idleAt := none, beatAt := P.count, dcpAt := P.count,
                        hbm := { P.hbm with soft := P.hbm.softKeep } }

/-- The die counters are reloaded from the Twilight island: they read as if they had never stopped (R643). -/
def reloadCounts (s : State) : State :=
  match s.keptCounts with
  | none => s
  | some (t, l) =>
    { s with keptCounts := none
             parts := tabMap s.parts fun p P => { P with count := (wd l p + (s.hub - t)) % 2 ^ 64 } }

/-- A4_EXIT (R643, R952, R953): ports retrain from saved settings. -/
def execA4Exit (s : State) : Host.Outcome State Fault Refusal :=
  next (if !s.power.a4 || !s.running then s
    else
      let s0 := reloadCounts s
      let s1 := allParts.foldl wakePart { s0 with power := { s0.power with a4 := false, a4Waking := false, a4Ports := [] } }
      allPorts.foldl (fun s k => if s.plan.isSome && (s.port k).st == .down && !(s.port k).disable then startPort s k else s) s1)

/-! Envelope (R955 to R966). -/

/-- The next envelope in mW (R957): cap, demand, floor. -/
def nextE (e d cap f : Nat) : Nat :=
  if cap < e then max cap (e - 1500)
  else if e < d then min (min d (e + 1500)) cap
  else max d (max (e - 1500) (min e f))

/-- Data of a power event: die or stack, temperature or current, E and D in W (R978). -/
def powerData (s : State) (unit v : Nat) : List Nat := [unit, v, s.power.e / 1000, s.power.dMw / 1000]

/-- ENVELOPE_UPDATE: every 10 µs (R957, R958, R962, R975); filler ends everywhere once D has reached E (R961). -/
def execEnvelopeUpdate (m : Measured) (s : State) : Host.Outcome State Fault Refusal :=
  let w := s.power
  let cap := w.capSteps * 25000
  let e := nextE w.e m.dMw cap (w.floorPct * m.aMw / 100)
  let short := m.dMw + m.fillerMw < e
  let s1 := { s with power := { w with
    e, dMw := m.dMw, avgMw := m.aMw, powerW := m.powerW, inputMv := m.inputMv, input10ma := m.input10ma, maxDieC := m.maxDieC,
    maxHbmC := m.maxHbmC, outletC := m.outletC, inletC := m.inletC, fillerMw := m.fillerMw, hold := e < m.dMw,
    capActive := e == cap && e < m.dMw, short, nextAt := s.hub + us 10 } }
  next (if !s.ready || !s.running || s.hub < w.nextAt then s
    else if short && !w.short then logEvent s1 { code := 0x1301, data := powerData s1 0 (m.powerW) }
    else if e ≤ m.dMw then allParts.foldl noFiller s1
    else s1)

/-- FILLER_START (R961, R962, R964, R968): on a tile of an A0 partition that holds no node, while D is below E. -/
def execFillerStart (p : Fin 8) (t : Fin 16) (s : State) : Host.Outcome State Fault Refusal :=
  let P := s.part p
  let x := s.tile p t
  next (if P.inService && P.reset.isNone && P.act == 0 && P.duty == 16 && x.run.isNone && s.power.dMw < s.power.e then
      s.setTile p t { x with filler := true }
    else s)

/-! Protection (R967 to R971). -/

/-- A duty step of R967 is in force on some die. -/
def throttled (s : State) : Bool := allParts.any fun p => (s.part p).duty < 16

/-- THERM_N follows its conditions (R890, R967, R970). -/
def setThermN (s : State) : State := { s with pins := { s.pins with thermN := !(throttled s || s.pins.outletHot) } }

/-- THERMAL_THROTTLE_STEP: 1/16 down every 100 µs above 105 °C, up every 1 ms at or below 103 °C; filler leaves the die (R967,
R968). -/
def execThermalThrottleStep (p : Fin 8) (hot cool : Bool) (s : State) : Host.Outcome State Fault Refusal :=
  let P := s.part p
  next (if !s.pins.rails then s
    else if hot then
      if P.throttling && P.count < P.throttleAt + us 100 then s
      else
        let s1 := s.setPart p { P with duty := P.duty - 1, throttling := true, throttleAt := P.count }
        let s2 := noFiller s1 p
        let s3 := if P.throttling then s2 else logOrKeep s2 { code := 0x1300, part := some p, data := powerData s2 p s2.power.maxDieC }
        setThermN s3
    else if cool && P.duty < 16 then
      if P.count < P.throttleAt + us 1000 then s
      else setThermN (s.setPart p { P with duty := P.duty + 1, throttling := P.duty + 1 < 16, throttleAt := P.count })
    else s)

/-- COOLANT_OUTLET_HIGH (R970). -/
def execCoolantOutletHigh (s : State) : Host.Outcome State Fault Refusal :=
  next (if !s.pins.rails || s.pins.outletHot then s
    else
      let s1 := setThermN { s with pins := { s.pins with outletHot := true } }
      logOrKeep s1 { code := 0x2302, data := powerData s1 0 s1.power.outletC })

/-- THERM_N_RELEASE: the outlet has fallen by its hysteresis (R890). -/
def execThermNRelease (s : State) : Host.Outcome State Fault Refusal :=
  next (setThermN { s with pins := { s.pins with outletHot := false } })

/-- INPUT_OVERVOLTAGE (R1067). -/
def execInputOvervoltage (s : State) : Host.Outcome State Fault Refusal := next (shutOff s 0x5307)

/-- INPUT_UNDERVOLTAGE (R1067). -/
def execInputUndervoltage (s : State) : Host.Outcome State Fault Refusal := next (shutOff s 0x5306)

/-! Management sideband. -/

/-- The sensors of R881: 38 measured values (coolant inlet and outlet, nine dies, 24 stacks, input voltage and current, module
power), the activity state, the state of each fabric port, the wear of each NVWS stack. DESIGN CHOICE, log entry 139. -/
def sensorValues (s : State) (measured : List Nat) : List Nat :=
  (List.range 38).map (wd measured) ++ [pwrStatus s / 2 ^ 29] ++ allPorts.map (fun k => portCode (s.port k).st) ++
    [0, 1, 2, 3].map (wearOf s.nvws)

/-- PLDM_SENSOR_REFRESH (R881); in Recovery PLDM has no sensors (R900). -/
def execPldmSensorRefresh (values : List Nat) (s : State) : Host.Outcome State Fault Refusal :=
  next (if s.mcRuns && s.boot.stage != 7 then { s with sensors := sensorValues s values } else s)

/-- SMBUS_ALERT_RESPONSE: ALERT_N is released (R880, R1083). -/
def execSmbusAlertResponse (s : State) : Host.Outcome State Fault Refusal :=
  next (if s.mcRuns then { s with pins := { s.pins with alertN := true } } else s)

/-- What the TAP does now, by the instruction that it holds: code 0 BYPASS, 1 IDCODE, 2 SAMPLE/PRELOAD, 3 EXTEST. Another acts as BYPASS
below debug level 2, and EXTEST as SAMPLE/PRELOAD at all times when RESET_N is not asserted (R888, R889). DESIGN CHOICE, log entry
103. -/
def jtagActs (s : State) : Nat :=
  if 4 ≤ s.jtag && s.dbgLevel != 2 then 0 else if s.jtag = 3 && s.pins.resetN then 2 else s.jtag

/-- JTAG_INSTRUCTION (R887 to R889): the instruction selects its data register, which is IDCODE's word or BYPASS's 0; what the boundary
register or a debug register then holds is not given (DESIGN CHOICE, log entry 103). -/
def execJtagInstruction (code : Nat) (s : State) : Host.Outcome State Fault Refusal :=
  let s1 := { s with jtag := code }
  let f := s1.takeFree
  next (if jtagActs s1 = 1 then { s1 with jtagDr := jtagIdcode }
    else if jtagActs s1 = 0 then { s1 with jtagDr := 0 }
    else { f.2 with jtagDr := f.1 })

end Sys2Proof.Machine
end

