-- ==== Sys2Proof/Machine/Security.lean ====
section
/-! DEFINITION. Debug challenge and unlock, attestation quotes and certificates (R1051 to R1060). -/

namespace Sys2Proof.Machine

/-- The 56 bytes of a challenge reply (R1055). -/
def challengeBytes (serial : Nat) (c : Challenge) : List Byte :=
  natLe 4 c.level ++ natLe 4 0 ++ natLe 8 serial ++ c.nonce ++ natLe 8 c.expires

/-- 32 free bytes: a fresh nonce (DESIGN CHOICE, log entry 3). -/
def freeBytes32 (k : Nat) : List Byte := (List.range 32).map fun j => BitVec.ofNat 8 (Config.freeNat k / 256 ^ j)

/-- DEBUG_CHALLENGE (R1055, R1056): it replaces the live one. -/
def execDebugChallenge (fn : Fin 9) (s : State) : Host.Outcome State Fault Refusal :=
  next (runOp s fn 0x0901 fun s r =>
    let l := bitsOf (wd r.payload 0) 1 0
    checked s fn r [ reservedCheck [0xFFFFFFFC] r.payload 0x16, (l == 0 || l == 3, 0x16, atWord 0) ]
      (let c : Challenge := { level := l, nonce := freeBytes32 s.free, expires := s.hub + us 600000000 }
       okReply { s with sec := { s.sec with chal := some c }, free := s.free + 1 } fn r
         (bytesWords 14 (challengeBytes s.sec.serial c))))

/-- Set the debug level; at level 0 no trace record is made (R1100). -/
def setDebug (s : State) (l : Nat) : State := { s with dbgLevel := l, trcEn := s.trcEn && l != 0 }

/-- A failed unlock kills the challenge, changes nothing else and is logged (R1059). -/
def unlockFails (s : State) (k : Nat) (r : Req) (l status : Nat) : State :=
  refuseMsg (logEvent { s with sec := { s.sec with chal := none } } { code := 0x12FA, data := [l] }) k r status noField

/-- An unlock succeeds (R1048, R1057). -/
def unlockOk (s : State) (k : Nat) (r : Req) (l : Nat) (reply56 : List Byte) : State :=
  let s1 := extendMr { s with sec := { s.sec with chal := none, ever := true, unlocks := min (s.sec.unlocks + 1) 255 } } 4 reply56
  okReply (logEvent (setDebug s1 l) { code := 0x12F9, data := [l] }) k r []

/-- DEBUG_UNLOCK (R1056 to R1059). With LEVEL 0 it carries no address, and the address word is reserved (R1103). `token` is what host memory returned for the token's 7,944 bytes.
DEDUCED, log entry 105. -/
def execDebugUnlock (fn : Fin 9) (token : HostRd) (s : State) : Host.Outcome State Fault Refusal :=
  next (runOp s fn 0x0902 fun s r =>
    let l := bitsOf (wd r.payload 0) 1 0
    checked s fn r [ reservedCheck [0xFFFFFFFC, 0xFFFFFFFF] r.payload 0x16, (l == 3, 0x16, atWord 0),
                     (l == 0 && wd r.payload 2 != 0, 0x16, atWord 2), (l == 0 && wd r.payload 3 != 0, 0x16, atWord 3) ]
      (if l = 0 then okReply (setDebug { s with sec := { s.sec with chal := none } } 0) fn r []
       else if l = 2 && liveCtxs s != [] then unlockFails s fn r l 0x0922
       else
         match token, s.sec.chal with
         | .data t, some c =>
           let m := t.take 56
           let pk := (t.drop 56).take 32
           if !(c.level == l && s.hub < c.expires && m == challengeBytes s.sec.serial c) then unlockFails s fn r l 0x0920
           else if !(Config.sha256 pk == s.sec.dbgDigest && Config.slhVerify pk m ((t.drop 88).take 7856)) then
             unlockFails s fn r l 0x0921
           else unlockOk s fn r l m
         | .data _, none => unlockFails s fn r l 0x0920
         | _, _ => unlockFails s fn r l 0x16))

/-- DEBUG_CHALLENGE_EXPIRY (R1056). -/
def execDebugChallengeExpiry (s : State) : Host.Outcome State Fault Refusal :=
  next (match s.sec.chal with
    | some c => if c.expires ≤ s.hub then { s with sec := { s.sec with chal := none } } else s
    | none => s)

/-- The 384-byte body of a quote (R1052). -/
def quoteBody (s : State) (c : Nat) (nonce : List Byte) : List Byte :=
  let x := s.ctx c
  let n (g : Nat) : Nat := s.sec.counters.getD g 0
  natLe 4 0x4C515431 ++ natLe 4 (2 ^ 24 + s.dbgLevel % 4 * 2 ^ 22 + b2n s.sec.ever * 2 ^ 21 + c) ++ natLe 8 s.sec.serial ++ nonce ++
    natLe 4 (bunVersion s.sec.running) ++ natLe 4 (n 0 * 2 ^ 24 + n 1 * 65536 + n 2 * 256) ++ natLe 8 s.hub ++ s.sec.mr.flatten ++
    (if c = 0 then List.replicate 32 0 else x.cmr) ++
    natLe 4 (if c = 0 then 0 else 256 * x.parts.foldl (fun a p => a + 2 ^ p) 0 + x.epoch % 256) ++ List.replicate 28 0

/-- Size of a quote with its signature. -/
def quoteSize : Nat := 17472

/-- Reserved words and KIND of ATTEST_QUOTE. -/
def quoteChecks (r : Req) : List (Bool × Nat × Nat) :=
  [ reservedCheck ([0x3FFFFFFF, 0xFFFFFFFF] ++ List.replicate 11 0 ++ [0xFFFFFFFF]) r.payload 0x16,
    (2 ≤ bitsOf (wd r.payload 0) 31 30, 0x16, atWord 0) ]

/-- ATTEST_QUOTE with KIND 0 (R1051, R1052, R1054): the quote is taken now and signed until ATTEST_QUOTE_DONE. -/
def execAttestQuote (fn : Fin 9) (s : State) : Host.Outcome State Fault Refusal :=
  next (runMsg s fn 0x0903 (fun r => bitsOf (wd r.payload 0) 31 30 != 1) fun s r =>
    let w := r.payload
    checked s fn r (quoteChecks r ++ [ (decide (wd w 12 < quoteSize), 0x16, atWord 12) ])
      (let b := beginOp s fn r [] 0 0
       { b.1 with quotes := tabSet b.1.quotes b.2 ⟨b.2, quoteBody s r.ctx (wordsBytes ((w.drop 2).take 8)), wd64 w 10⟩ }))

/-- ATTEST_QUOTE_DONE (R1052, R1054): body and signature go to host memory. A quote whose context was torn down has replied
CTX_GONE (R572). -/
def execAttestQuoteDone (opId : Nat) (s : State) : Host.Outcome State Fault Refusal :=
  next (match tabFind s.quotes opId with
    | none => s
    | some q =>
      let s1 := { s with quotes := tabDel s.quotes opId }
      match tabFind s1.ops q.op with
      | none => s1
      | some o =>
        endOp (s1.post o.ctx q.addr (q.body ++ Config.slhSign q.body) false) q.op 0 [quoteSize])

/-- The certificate chain, each certificate behind its length (R1053). -/
def certChain (s : State) : List Byte :=
  ([0, 1, 2].map Config.cert ++ [s.sec.akCert]).flatMap fun c => natLe 4 c.length ++ c

/-- ATTEST_QUOTE with KIND 1 (R1053, R1054). -/
def execAttestCertChain (fn : Fin 9) (s : State) : Host.Outcome State Fault Refusal :=
  next (runMsg s fn 0x0903 (fun r => bitsOf (wd r.payload 0) 31 30 == 1) fun s r =>
    let w := r.payload
    let chain := certChain s
    checked s fn r (quoteChecks r ++ [ (decide (wd w 12 < chain.length), 0x16, atWord 12) ])
      (okReply (s.post r.ctx (wd64 w 10) chain false) fn r [chain.length]))

end Sys2Proof.Machine
end

