-- ==== Sys2Proof/Machine/Dispatch.lean ====
section
/-! DEFINITION. The dispatcher: one arm per command, each a direct call of its meaning. -/

namespace Sys2Proof.Machine

/-- The effect of a command on everything but the queue. -/
def exec (i : Instr) (s : State) : Host.Outcome State Fault Refusal :=
  match i with
  | .nop p t => Sys2Proof.Machine.execNop p t s
  | .endKernel p t => Sys2Proof.Machine.execEndKernel p t s
  | .loop p t => Sys2Proof.Machine.execLoop p t s
  | .sli p t => Sys2Proof.Machine.execSli p t s
  | .salu p t => Sys2Proof.Machine.execSalu p t s
  | .sld p t => Sys2Proof.Machine.execSld p t s
  | .sst p t => Sys2Proof.Machine.execSst p t s
  | .reservedOpcode p t => Sys2Proof.Machine.execReservedOpcode p t s
  | .imageOverrun p t => Sys2Proof.Machine.execImageOverrun p t s
  | .vadd p t => Sys2Proof.Machine.execVadd p t s
  | .vsub p t => Sys2Proof.Machine.execVsub p t s
  | .vmul p t => Sys2Proof.Machine.execVmul p t s
  | .vfma p t => Sys2Proof.Machine.execVfma p t s
  | .vmin p t => Sys2Proof.Machine.execVmin p t s
  | .vmax p t => Sys2Proof.Machine.execVmax p t s
  | .vabs p t => Sys2Proof.Machine.execVabs p t s
  | .vneg p t => Sys2Proof.Machine.execVneg p t s
  | .vand p t => Sys2Proof.Machine.execVand p t s
  | .vor p t => Sys2Proof.Machine.execVor p t s
  | .vxor p t => Sys2Proof.Machine.execVxor p t s
  | .vshl p t => Sys2Proof.Machine.execVshl p t s
  | .vshr p t => Sys2Proof.Machine.execVshr p t s
  | .vsra p t => Sys2Proof.Machine.execVsra p t s
  | .vmov p t => Sys2Proof.Machine.execVmov p t s
  | .vbcast p t => Sys2Proof.Machine.execVbcast p t s
  | .viota p t => Sys2Proof.Machine.execViota p t s
  | .vext p t => Sys2Proof.Machine.execVext p t s
  | .vins p t => Sys2Proof.Machine.execVins p t s
  | .vperm p t => Sys2Proof.Machine.execVperm p t s
  | .vpack p t => Sys2Proof.Machine.execVpack p t s
  | .vcmp p t => Sys2Proof.Machine.execVcmp p t s
  | .vsel p t => Sys2Proof.Machine.execVsel p t s
  | .mlog p t => Sys2Proof.Machine.execMlog p t s
  | .mpop p t => Sys2Proof.Machine.execMpop p t s
  | .mfirst p t => Sys2Proof.Machine.execMfirst p t s
  | .cvt p t => Sys2Proof.Machine.execCvt p t s
  | .vld p t => Sys2Proof.Machine.execVld p t s
  | .vst p t => Sys2Proof.Machine.execVst p t s
  | .red p t => Sys2Proof.Machine.execRed p t s
  | .mmul p t => Sys2Proof.Machine.execMmul p t s
  | .mwait p t => Sys2Proof.Machine.execMwait p t s
  | .matrixPassStart p t conf sp => Sys2Proof.Machine.execMatrixPassStart p t conf sp s
  | .matrixCommandComplete p t => Sys2Proof.Machine.execMatrixCommandComplete p t s
  | .dma p t => Sys2Proof.Machine.execDma p t s
  | .dwait p t => Sys2Proof.Machine.execDwait p t s
  | .dmaDescriptorStart p t => Sys2Proof.Machine.execDmaDescriptorStart p t s
  | .dmaDescriptorRetire p t => Sys2Proof.Machine.execDmaDescriptorRetire p t s
  | .dmaBankStarvation p t sp => Sys2Proof.Machine.execDmaBankStarvation p t sp s
  | .kvapp p t => Sys2Proof.Machine.execKvapp p t s
  | .kvappComplete p t => Sys2Proof.Machine.execKvappComplete p t s
  | .kvwait p t => Sys2Proof.Machine.execKvwait p t s
  | .kvgather p t => Sys2Proof.Machine.execKvgather p t s
  | .sfn p t => Sys2Proof.Machine.execSfn p t s
  | .sglu p t => Sys2Proof.Machine.execSglu p t s
  | .smpr p t => Sys2Proof.Machine.execSmpr p t s
  | .mmulg p t => Sys2Proof.Machine.execMmulg p t s
  | .gsend p t => Sys2Proof.Machine.execGsend p t s
  | .gsendRetire p t => Sys2Proof.Machine.execGsendRetire p t s
  | .gctlQuery p t => Sys2Proof.Machine.execGctlQuery p t s
  | .gctlRelease p t => Sys2Proof.Machine.execGctlRelease p t s
  | .svuPhase1Element p t => Sys2Proof.Machine.execSvuPhase1Element p t s
  | .svuStreamGroup p inst svu => Sys2Proof.Machine.execSvuStreamGroup p inst svu s
  | .kernelImageLoadDone p inst => Sys2Proof.Machine.execKernelImageLoadDone p inst s
  | .kernelDispatch p inst => Sys2Proof.Machine.execKernelDispatch p inst s
  | .svuKernelDispatch p inst => Sys2Proof.Machine.execSvuKernelDispatch p inst s
  | .copyLinear p inst src => Sys2Proof.Machine.execCopyLinear p inst src s
  | .copyNvwsStream p inst src => Sys2Proof.Machine.execCopyNvwsStream p inst src s
  | .copyFabric p inst src => Sys2Proof.Machine.execCopyFabric p inst src s
  | .copyRdma p inst src => Sys2Proof.Machine.execCopyRdma p inst src s
  | .kvExport p inst => Sys2Proof.Machine.execKvExport p inst s
  | .kvImport p inst src => Sys2Proof.Machine.execKvImport p inst src s
  | .waitFence p inst => Sys2Proof.Machine.execWaitFence p inst s
  | .waitMemoryPoll p inst rd => Sys2Proof.Machine.execWaitMemoryPoll p inst rd s
  | .condPoll p inst rd => Sys2Proof.Machine.execCondPoll p inst rd s
  | .waitTimeout p inst => Sys2Proof.Machine.execWaitTimeout p inst s
  | .signal p inst => Sys2Proof.Machine.execSignal p inst s
  | .loopIterationStart p inst rd => Sys2Proof.Machine.execLoopIterationStart p inst rd s
  | .call p inst => Sys2Proof.Machine.execCall p inst s
  | .send p inst => Sys2Proof.Machine.execSend p inst s
  | .sendArm p inst => Sys2Proof.Machine.execSendArm p inst s
  | .epoch p inst => Sys2Proof.Machine.execEpoch p inst s
  | .event p inst => Sys2Proof.Machine.execEvent p inst s
  | .join p inst => Sys2Proof.Machine.execJoin p inst s
  | .nodeCommit p inst cons => Sys2Proof.Machine.execNodeCommit p inst cons s
  | .completionRecordWrite p ctx cons => Sys2Proof.Machine.execCompletionRecordWrite p ctx cons s
  | .nodeBudget p inst => Sys2Proof.Machine.execNodeBudget p inst s
  | .nodeIo p inst => Sys2Proof.Machine.execNodeIo p inst s
  | .sendAckTimeout p inst => Sys2Proof.Machine.execSendAckTimeout p inst s
  | .deadlockCheck => Sys2Proof.Machine.execDeadlockCheck s
  | .slotBoundary p => Sys2Proof.Machine.execSlotBoundary p s
  | .graceExpiry p => Sys2Proof.Machine.execGraceExpiry p s
  | .regulatorRefill p => Sys2Proof.Machine.execRegulatorRefill p s
  | .cmiReqCtrlGo fn => Sys2Proof.Machine.execCmiReqCtrlGo fn s
  | .mcpTakeRequest fn => Sys2Proof.Machine.execMcpTakeRequest fn s
  | .cmiRspValidClear fn => Sys2Proof.Machine.execCmiRspValidClear fn s
  | .cmiResponseDelivery fn => Sys2Proof.Machine.execCmiResponseDelivery fn s
  | .identityQuery fn => Sys2Proof.Machine.execIdentityQuery fn s
  | .ctxCreate fn => Sys2Proof.Machine.execCtxCreate fn s
  | .ctxDestroy fn => Sys2Proof.Machine.execCtxDestroy fn s
  | .ctxDrainEnd ctx clean => Sys2Proof.Machine.execCtxDrainEnd ctx clean s
  | .ctxZeroingEnd ctx => Sys2Proof.Machine.execCtxZeroingEnd ctx s
  | .ctxQuery fn => Sys2Proof.Machine.execCtxQuery fn s
  | .fenceGrant fn => Sys2Proof.Machine.execFenceGrant fn s
  | .fenceRevoke fn => Sys2Proof.Machine.execFenceRevoke fn s
  | .connOpen fn => Sys2Proof.Machine.execConnOpen fn s
  | .connReady handle => Sys2Proof.Machine.execConnReady handle s
  | .connClose fn => Sys2Proof.Machine.execConnClose fn s
  | .memAlloc fn => Sys2Proof.Machine.execMemAlloc fn s
  | .memFree fn => Sys2Proof.Machine.execMemFree fn s
  | .memFreeZeroDone ctx handle => Sys2Proof.Machine.execMemFreeZeroDone ctx handle s
  | .memMap fn => Sys2Proof.Machine.execMemMap fn s
  | .memUnmap fn => Sys2Proof.Machine.execMemUnmap fn s
  | .bar2WindowSet fn => Sys2Proof.Machine.execBar2WindowSet fn s
  | .svuProgLoad fn => Sys2Proof.Machine.execSvuProgLoad fn s
  | .kvTableSet fn => Sys2Proof.Machine.execKvTableSet fn s
  | .graphPost fn nodes => Sys2Proof.Machine.execGraphPost fn nodes s
  | .subgraphRelease fn => Sys2Proof.Machine.execSubgraphRelease fn s
  | .graphAbort fn => Sys2Proof.Machine.execGraphAbort fn s
  | .cplRingSet fn => Sys2Proof.Machine.execCplRingSet fn s
  | .graphQuery fn => Sys2Proof.Machine.execGraphQuery fn s
  | .weightKeyImport fn => Sys2Proof.Machine.execWeightKeyImport fn s
  | .weightLoad fn image => Sys2Proof.Machine.execWeightLoad fn image s
  | .install fn image => Sys2Proof.Machine.execInstall fn image s
  | .weightShardArrival load chunk shard => Sys2Proof.Machine.execWeightShardArrival load chunk shard s
  | .weightShardTimeout load chunk => Sys2Proof.Machine.execWeightShardTimeout load chunk s
  | .weightLoadComplete load => Sys2Proof.Machine.execWeightLoadComplete load s
  | .weightDrop fn => Sys2Proof.Machine.execWeightDrop fn s
  | .weightDropComplete ctx binding generation => Sys2Proof.Machine.execWeightDropComplete ctx binding generation s
  | .nvwsImageErase fn => Sys2Proof.Machine.execNvwsImageErase fn s
  | .weightQuery fn => Sys2Proof.Machine.execWeightQuery fn s
  | .weightRepairComplete ctx binding generation src => Sys2Proof.Machine.execWeightRepairComplete ctx binding generation src s
  | .codebookLoad fn => Sys2Proof.Machine.execCodebookLoad fn s
  | .codebookSlotWriteDone p ctx kindA slot => Sys2Proof.Machine.execCodebookSlotWriteDone p ctx kindA slot s
  | .codebookWaitLimit ctx slot => Sys2Proof.Machine.execCodebookWaitLimit ctx slot s
  | .codebookRelease fn => Sys2Proof.Machine.execCodebookRelease fn s
  | .codebookQuery fn => Sys2Proof.Machine.execCodebookQuery fn s
  | .sfuSlotWrite fn => Sys2Proof.Machine.execSfuSlotWrite fn s
  | .sfuTableWrite fn => Sys2Proof.Machine.execSfuTableWrite fn s
  | .sfuBankPrepare fn => Sys2Proof.Machine.execSfuBankPrepare fn s
  | .sfuBankCopyDone p ctx => Sys2Proof.Machine.execSfuBankCopyDone p ctx s
  | .sfuPrepareWaitLimit ctx => Sys2Proof.Machine.execSfuPrepareWaitLimit ctx s
  | .sfuBankSwitch fn => Sys2Proof.Machine.execSfuBankSwitch fn s
  | .sfuBankQuery fn => Sys2Proof.Machine.execSfuBankQuery fn s
  | .powerLatencySet fn => Sys2Proof.Machine.execPowerLatencySet fn s
  | .powerCapSet fn => Sys2Proof.Machine.execPowerCapSet fn s
  | .slewFloorSet fn => Sys2Proof.Machine.execSlewFloorSet fn s
  | .powerQuery fn => Sys2Proof.Machine.execPowerQuery fn s
  | .schedTableSet fn => Sys2Proof.Machine.execSchedTableSet fn s
  | .regulatorSet fn => Sys2Proof.Machine.execRegulatorSet fn s
  | .preemptGraceSet fn => Sys2Proof.Machine.execPreemptGraceSet fn s
  | .schedQuery fn => Sys2Proof.Machine.execSchedQuery fn s
  | .logRead fn => Sys2Proof.Machine.execLogRead fn s
  | .escalationSet fn => Sys2Proof.Machine.execEscalationSet fn s
  | .serviceRestore fn => Sys2Proof.Machine.execServiceRestore fn s
  | .partitionReset fn => Sys2Proof.Machine.execPartitionReset fn s
  | .jobPatienceSet fn => Sys2Proof.Machine.execJobPatienceSet fn s
  | .debugChallenge fn => Sys2Proof.Machine.execDebugChallenge fn s
  | .debugUnlock fn token => Sys2Proof.Machine.execDebugUnlock fn token s
  | .attestQuote fn => Sys2Proof.Machine.execAttestQuote fn s
  | .attestCertChain fn => Sys2Proof.Machine.execAttestCertChain fn s
  | .stateSave fn clean => Sys2Proof.Machine.execStateSave fn clean s
  | .fullStateSaveDone p => Sys2Proof.Machine.execFullStateSaveDone p s
  | .duskDumpRead fn => Sys2Proof.Machine.execDuskDumpRead fn s
  | .testModeEnter fn => Sys2Proof.Machine.execTestModeEnter fn s
  | .testModeExit fn => Sys2Proof.Machine.execTestModeExit fn s
  | .hbmRepairQuery fn => Sys2Proof.Machine.execHbmRepairQuery fn s
  | .softPpr fn => Sys2Proof.Machine.execSoftPpr fn s
  | .hardPpr fn => Sys2Proof.Machine.execHardPpr fn s
  | .spareRow fn => Sys2Proof.Machine.execSpareRow fn s
  | .hbmRepairDone took => Sys2Proof.Machine.execHbmRepairDone took s
  | .trainingSavedClear fn => Sys2Proof.Machine.execTrainingSavedClear fn s
  | .ptFenceSelWrite fn p value => Sys2Proof.Machine.execPtFenceSelWrite fn p value s
  | .fpControlDisable port => Sys2Proof.Machine.execFpControlDisable port s
  | .portDisableDone port => Sys2Proof.Machine.execPortDisableDone port s
  | .fpControlEnable port => Sys2Proof.Machine.execFpControlEnable port s
  | .dbgResumeGo p => Sys2Proof.Machine.execDbgResumeGo p s
  | .registerWrite fn offset width value => Sys2Proof.Machine.execRegisterWrite fn offset width value s
  | .msixUnmask fn vector => Sys2Proof.Machine.execMsixUnmask fn vector s
  | .bar0AccessInvalid fn offset width write => Sys2Proof.Machine.execBar0AccessInvalid fn offset width write s
  | .bar2Read fn offset len => Sys2Proof.Machine.execBar2Read fn offset len s
  | .bar2Write fn offset bytes => Sys2Proof.Machine.execBar2Write fn offset bytes s
  | .functionLevelReset fn => Sys2Proof.Machine.execFunctionLevelReset fn s
  | .pcieHotReset => Sys2Proof.Machine.execPcieHotReset s
  | .vfEnableChange enable numVfs => Sys2Proof.Machine.execVfEnableChange enable numVfs s
  | .pcieLinkTrained gts lanes => Sys2Proof.Machine.execPcieLinkTrained gts lanes s
  | .atsInvalidation fn addr => Sys2Proof.Machine.execAtsInvalidation fn addr s
  | .atsTranslationCompletion fn p inst addr ok => Sys2Proof.Machine.execAtsTranslationCompletion fn p inst addr ok s
  | .rdmaWriteInbound conn key addr bytes => Sys2Proof.Machine.execRdmaWriteInbound conn key addr bytes s
  | .rdmaReadInbound conn key addr len => Sys2Proof.Machine.execRdmaReadInbound conn key addr len s
  | .rdmaWriteImmInbound conn key addr bytes imm => Sys2Proof.Machine.execRdmaWriteImmInbound conn key addr bytes imm s
  | .rdmaRetransmitTimeout conn => Sys2Proof.Machine.execRdmaRetransmitTimeout conn s
  | .ethFrameDiscard port => Sys2Proof.Machine.execEthFrameDiscard port s
  | .flitReceive port lp flit corrected fecOk => Sys2Proof.Machine.execFlitReceive port lp flit corrected fecOk s
  | .ackProgressTimeout port lp => Sys2Proof.Machine.execAckProgressTimeout port lp s
  | .laneLockLoss port lp => Sys2Proof.Machine.execLaneLockLoss port lp s
  | .retrainComplete port lp ok => Sys2Proof.Machine.execRetrainComplete port lp ok s
  | .portTrainingRetry port => Sys2Proof.Machine.execPortTrainingRetry port s
  | .identitySend port lp => Sys2Proof.Machine.execIdentitySend port lp s
  | .identityReceived port lp block => Sys2Proof.Machine.execIdentityReceived port lp block s
  | .absentLimitExpiry port => Sys2Proof.Machine.execAbsentLimitExpiry port s
  | .packetForward port lp => Sys2Proof.Machine.execPacketForward port lp s
  | .reduceHoldExpiry port lp => Sys2Proof.Machine.execReduceHoldExpiry port lp s
  | .armCancelExpiry p => Sys2Proof.Machine.execArmCancelExpiry p s
  | .writeArrival port lp => Sys2Proof.Machine.execWriteArrival port lp s
  | .addArrival port lp => Sys2Proof.Machine.execAddArrival port lp s
  | .signalArrival port lp => Sys2Proof.Machine.execSignalArrival port lp s
  | .fabricAckArrival port lp => Sys2Proof.Machine.execFabricAckArrival port lp s
  | .fabricCopyAckTimeout p inst => Sys2Proof.Machine.execFabricCopyAckTimeout p inst s
  | .abort port lp => Sys2Proof.Machine.execAbort port lp s
  | .patrolScrubRead p => Sys2Proof.Machine.execPatrolScrubRead p s
  | .hbmCaParityError p pc => Sys2Proof.Machine.execHbmCaParityError p pc s
  | .hbmSelfRefreshReturn p => Sys2Proof.Machine.execHbmSelfRefreshReturn p s
  | .cpHeartbeatCheck p => Sys2Proof.Machine.execCpHeartbeatCheck p s
  | .sundownComplete p clean => Sys2Proof.Machine.execSundownComplete p clean s
  | .partitionComputeReset p => Sys2Proof.Machine.execPartitionComputeReset p s
  | .partitionReinit p trained => Sys2Proof.Machine.execPartitionReinit p trained s
  | .partitionResetEnd p => Sys2Proof.Machine.execPartitionResetEnd p s
  | .tileHang p t => Sys2Proof.Machine.execTileHang p t s
  | .tileStopFail p t => Sys2Proof.Machine.execTileStopFail p t s
  | .dcpWatchdog p => Sys2Proof.Machine.execDcpWatchdog p s
  | .mcpWatchdog => Sys2Proof.Machine.execMcpWatchdog s
  | .hubCoreFail core => Sys2Proof.Machine.execHubCoreFail core s
  | .pwrEnRise => Sys2Proof.Machine.execPwrEnRise s
  | .pwrEnFall => Sys2Proof.Machine.execPwrEnFall s
  | .resetNAssert => Sys2Proof.Machine.execResetNAssert s
  | .resetNDeassert => Sys2Proof.Machine.execResetNDeassert s
  | .standbyPowerUp => Sys2Proof.Machine.execStandbyPowerUp s
  | .railsInRegulation => Sys2Proof.Machine.execRailsInRegulation s
  | .dawnEnd ok => Sys2Proof.Machine.execDawnEnd ok s
  | .sunriseEnd temps railsMv => Sys2Proof.Machine.execSunriseEnd temps railsMv s
  | .thermalSettle => Sys2Proof.Machine.execThermalSettle s
  | .trainingItemDone item marginOk => Sys2Proof.Machine.execTrainingItemDone item marginOk s
  | .partitionZeroed p => Sys2Proof.Machine.execPartitionZeroed p s
  | .morningCoreVerify p core digestOk => Sys2Proof.Machine.execMorningCoreVerify p core digestOk s
  | .nvwsMountDone ok => Sys2Proof.Machine.execNvwsMountDone ok s
  | .readiness => Sys2Proof.Machine.execReadiness s
  | .savedRecordWrite item tempC railMv => Sys2Proof.Machine.execSavedRecordWrite item tempC railMv s
  | .fwSvnRaise => Sys2Proof.Machine.execFwSvnRaise s
  | .thermalThrottleStep p hot cool => Sys2Proof.Machine.execThermalThrottleStep p hot cool s
  | .thermalTrip => Sys2Proof.Machine.execThermalTrip s
  | .coolantOutletHigh => Sys2Proof.Machine.execCoolantOutletHigh s
  | .overcurrent => Sys2Proof.Machine.execOvercurrent s
  | .inputOvervoltage => Sys2Proof.Machine.execInputOvervoltage s
  | .inputUndervoltage => Sys2Proof.Machine.execInputUndervoltage s
  | .refclkLoss => Sys2Proof.Machine.execRefclkLoss s
  | .envelopeUpdate m => Sys2Proof.Machine.execEnvelopeUpdate m s
  | .fillerStart p t => Sys2Proof.Machine.execFillerStart p t s
  | .activityStepDown p powerAfterMw => Sys2Proof.Machine.execActivityStepDown p powerAfterMw s
  | .activityExit p => Sys2Proof.Machine.execActivityExit p s
  | .a4Entry => Sys2Proof.Machine.execA4Entry s
  | .a4Exit => Sys2Proof.Machine.execA4Exit s
  | .firmwareBundleUpdate bundle => Sys2Proof.Machine.execFirmwareBundleUpdate bundle s
  | .cablingPlanWrite record => Sys2Proof.Machine.execCablingPlanWrite record s
  | .vfMapWrite record => Sys2Proof.Machine.execVfMapWrite record s
  | .ethAddressRecordWrite record => Sys2Proof.Machine.execEthAddressRecordWrite record s
  | .pldmSensorRefresh values => Sys2Proof.Machine.execPldmSensorRefresh values s
  | .smbusAlertResponse => Sys2Proof.Machine.execSmbusAlertResponse s
  | .jtagInstruction code => Sys2Proof.Machine.execJtagInstruction code s
  | .standbyPowerLoss => Sys2Proof.Machine.execStandbyPowerLoss s
  | .rampStartDelay => Sys2Proof.Machine.execRampStartDelay s
  | .thermNRelease => Sys2Proof.Machine.execThermNRelease s
  | .debugChallengeExpiry => Sys2Proof.Machine.execDebugChallengeExpiry s
  | .attestQuoteDone opId => Sys2Proof.Machine.execAttestQuoteDone opId s
  | .bar2Resize fn log2GiB => Sys2Proof.Machine.execBar2Resize fn log2GiB s
  | .rdmaAckArrival conn nak bytes => Sys2Proof.Machine.execRdmaAckArrival conn nak bytes s
  | .congestionNotificationPacket conn => Sys2Proof.Machine.execCongestionNotificationPacket conn s
  | .arpNdRequest port addr => Sys2Proof.Machine.execArpNdRequest port addr s
  | .ethLinkUp port => Sys2Proof.Machine.execEthLinkUp port s

end Sys2Proof.Machine
end

