-- ==== Sys2Proof/Machine/Tick.lean ====
section
/-! DEFINITION. The passing of time: one count of the 25 MHz reference clock (R641, R642). -/

namespace Sys2Proof.Machine

/-- The die count since which a partition has been idle (R940, R941). -/
def noteIdle (s : State) (p : Nat) : State :=
  let P := s.part p
  if !partIdle s p then (if P.idleAt.isNone then s else s.setPart p { P with idleAt := none })
  else if P.idleAt.isSome then s
  else s.setPart p { P with idleAt := some P.count }

/-- One count: the hub counter and the counter of each of the eight dies advance by 1, modulo 2^64 (R641, R642). A command takes
no time; whatever is due at a time happens in a command of its own. DESIGN CHOICE, log entry 1. -/
def tick (s : State) : State :=
  let s1 := { allParts.foldl noteIdle s with hub := (s.hub + 1) % 2 ^ 64 }
  allParts.foldl (fun s p => s.setPart p { s.part p with count := ((s.part p).count + 1) % 2 ^ 64 }) s1

end Sys2Proof.Machine
end

