-- ==== Sys2Proof/WellFormed.lean ====
section
/-! DEFINITION. Commands that a real interface can present: the checks on operands that the types do not make. -/

namespace Sys2Proof

/-- A register write has a width that PCIe's BAR0 takes and a value of that width (R21). -/
def regWriteOk (width : Nat) (v : W64) : Bool := (width == 4 && v.toNat < 2 ^ 32) || width == 8

/-- A memory access over PCIe carries 1 to 4,096 bytes (a PCIe request's limit). -/
def pcieLenOk (n : Nat) : Bool := 1 ≤ n && n ≤ 4096

/-- A flit is 256 bytes (R763). -/
def flitOk (flit : List Byte) : Bool := flit.length == 256

/-- An identity block is 32 bytes (R835). -/
def identityOk (block : List Byte) : Bool := block.length == 32

/-- A measurement fits the registers that show it (R975). -/
def measuredOk (m : Measured) : Bool :=
  m.powerW < 65536 && m.inputMv < 65536 && m.input10ma < 65536 && m.maxDieC < 256 && m.maxHbmC < 256 && m.outletC < 256 &&
    m.inletC < 256

/-- A trained PCIe link has 1, 2, 4, 8 or 16 lanes (R849). -/
def lanesOk (n : Nat) : Bool := [1, 2, 4, 8, 16].contains n

/-- Temperatures and rail voltages of the eight compute dies (R921). -/
def diesOk (a b : List Nat) : Bool := a.length == 8 && b.length == 8

/-- One of the 24 cores that Sunrise loads (R899), the MCP among them. -/
def hubCoreOk (n : Nat) : Bool := n < 24

/-- A command is well formed. Every constructor is named, so that a new one cannot slip past. -/
def Instr.wf : Instr → Bool
  | .registerWrite _ _ width v => regWriteOk width v
  | .bar0AccessInvalid _ _ width _ => pcieLenOk width
  | .bar2Read _ _ len => pcieLenOk len
  | .bar2Write _ _ bytes => pcieLenOk bytes.length
  | .flitReceive _ _ flit _ _ => flitOk flit
  | .identityReceived _ _ block => identityOk block
  | .envelopeUpdate m => measuredOk m
  | .pcieLinkTrained _ lanes => lanesOk lanes
  | .sunriseEnd temps railsMv => diesOk temps railsMv
  | .hubCoreFail core => hubCoreOk core
  | .nop _ _ | .endKernel _ _ | .loop _ _ | .sli _ _ | .salu _ _ | .sld _ _ | .sst _ _ | .reservedOpcode _ _
  | .imageOverrun _ _ | .vadd _ _ | .vsub _ _ | .vmul _ _ | .vfma _ _ | .vmin _ _ | .vmax _ _ | .vabs _ _ | .vneg _ _
  | .vand _ _ | .vor _ _ | .vxor _ _ | .vshl _ _ | .vshr _ _ | .vsra _ _ | .vmov _ _ | .vbcast _ _ | .viota _ _
  | .vext _ _ | .vins _ _ | .vperm _ _ | .vpack _ _ | .vcmp _ _ | .vsel _ _ | .mlog _ _ | .mpop _ _ | .mfirst _ _
  | .cvt _ _ | .vld _ _ | .vst _ _ | .red _ _ | .mmul _ _ | .mwait _ _ | .matrixPassStart _ _ _ _
  | .matrixCommandComplete _ _ | .dma _ _ | .dwait _ _ | .dmaDescriptorStart _ _ | .dmaDescriptorRetire _ _
  | .dmaBankStarvation _ _ _ | .kvapp _ _ | .kvappComplete _ _ | .kvwait _ _ | .kvgather _ _ | .sfn _ _ | .sglu _ _
  | .smpr _ _ | .mmulg _ _ | .gsend _ _ | .gsendRetire _ _ | .gctlQuery _ _ | .gctlRelease _ _ | .svuPhase1Element _ _
  | .svuStreamGroup _ _ _ | .kernelImageLoadDone _ _ | .kernelDispatch _ _ | .svuKernelDispatch _ _ | .copyLinear _ _ _
  | .copyNvwsStream _ _ _ | .copyFabric _ _ _ | .copyRdma _ _ _ | .kvExport _ _ | .kvImport _ _ _ | .waitFence _ _
  | .waitMemoryPoll _ _ _ | .condPoll _ _ _ | .waitTimeout _ _ | .signal _ _ | .loopIterationStart _ _ _ | .call _ _
  | .send _ _ | .sendArm _ _ | .epoch _ _ | .event _ _ | .join _ _ | .nodeCommit _ _ _ | .completionRecordWrite _ _ _
  | .nodeBudget _ _ | .nodeIo _ _ | .sendAckTimeout _ _ | .deadlockCheck | .slotBoundary _ | .graceExpiry _
  | .regulatorRefill _ | .cmiReqCtrlGo _ | .mcpTakeRequest _ | .cmiRspValidClear _ | .cmiResponseDelivery _
  | .identityQuery _ | .ctxCreate _ | .ctxDestroy _ | .ctxDrainEnd _ _ | .ctxZeroingEnd _ | .ctxQuery _ | .fenceGrant _
  | .fenceRevoke _ | .connOpen _ | .connReady _ | .connClose _ | .memAlloc _ | .memFree _ | .memFreeZeroDone _ _
  | .memMap _ | .memUnmap _ | .bar2WindowSet _ | .svuProgLoad _ | .kvTableSet _ | .graphPost _ _ | .subgraphRelease _
  | .graphAbort _ | .cplRingSet _ | .graphQuery _ | .weightKeyImport _ | .weightLoad _ _ | .install _ _
  | .weightShardArrival _ _ _ | .weightShardTimeout _ _ | .weightLoadComplete _ | .weightDrop _
  | .weightDropComplete _ _ _ | .nvwsImageErase _ | .weightQuery _ | .weightRepairComplete _ _ _ _ | .codebookLoad _
  | .codebookSlotWriteDone _ _ _ _ | .codebookWaitLimit _ _ | .codebookRelease _ | .codebookQuery _ | .sfuSlotWrite _
  | .sfuTableWrite _ | .sfuBankPrepare _ | .sfuBankCopyDone _ _ | .sfuPrepareWaitLimit _ | .sfuBankSwitch _
  | .sfuBankQuery _ | .powerLatencySet _ | .powerCapSet _ | .slewFloorSet _ | .powerQuery _ | .schedTableSet _
  | .regulatorSet _ | .preemptGraceSet _ | .schedQuery _ | .logRead _ | .escalationSet _ | .serviceRestore _
  | .partitionReset _ | .jobPatienceSet _ | .debugChallenge _ | .debugUnlock _ _ | .attestQuote _ | .attestCertChain _
  | .stateSave _ _ | .fullStateSaveDone _ | .duskDumpRead _ | .testModeEnter _ | .testModeExit _ | .hbmRepairQuery _
  | .softPpr _ | .hardPpr _ | .spareRow _ | .hbmRepairDone _ | .trainingSavedClear _ | .ptFenceSelWrite _ _ _
  | .fpControlDisable _ | .portDisableDone _ | .fpControlEnable _ | .dbgResumeGo _ | .msixUnmask _ _
  | .functionLevelReset _ | .pcieHotReset | .vfEnableChange _ _ | .atsInvalidation _ _
  | .atsTranslationCompletion _ _ _ _ _ | .rdmaWriteInbound _ _ _ _ | .rdmaReadInbound _ _ _ _
  | .rdmaWriteImmInbound _ _ _ _ _ | .rdmaRetransmitTimeout _ | .ethFrameDiscard _ | .ackProgressTimeout _ _
  | .laneLockLoss _ _ | .retrainComplete _ _ _ | .portTrainingRetry _ | .identitySend _ _ | .absentLimitExpiry _
  | .packetForward _ _ | .reduceHoldExpiry _ _ | .armCancelExpiry _ | .writeArrival _ _ | .addArrival _ _
  | .signalArrival _ _ | .fabricAckArrival _ _ | .fabricCopyAckTimeout _ _ | .abort _ _ | .patrolScrubRead _
  | .hbmCaParityError _ _ | .hbmSelfRefreshReturn _ | .cpHeartbeatCheck _ | .sundownComplete _ _
  | .partitionComputeReset _ | .partitionReinit _ _ | .partitionResetEnd _ | .tileHang _ _ | .tileStopFail _ _
  | .dcpWatchdog _ | .mcpWatchdog | .pwrEnRise | .pwrEnFall | .resetNAssert | .resetNDeassert | .standbyPowerUp
  | .railsInRegulation | .dawnEnd _ | .thermalSettle | .trainingItemDone _ _ | .partitionZeroed _
  | .morningCoreVerify _ _ _ | .nvwsMountDone _ | .readiness | .savedRecordWrite _ _ _ | .fwSvnRaise
  | .thermalThrottleStep _ _ _ | .thermalTrip | .coolantOutletHigh | .overcurrent | .inputOvervoltage
  | .inputUndervoltage | .refclkLoss | .fillerStart _ _ | .activityStepDown _ _ | .activityExit _ | .a4Entry | .a4Exit
  | .firmwareBundleUpdate _ | .cablingPlanWrite _ | .vfMapWrite _ | .ethAddressRecordWrite _ | .pldmSensorRefresh _
  | .smbusAlertResponse | .jtagInstruction _ | .standbyPowerLoss | .rampStartDelay | .thermNRelease
  | .debugChallengeExpiry | .attestQuoteDone _ | .bar2Resize _ _ | .rdmaAckArrival _ _ _
  | .congestionNotificationPacket _ | .arpNdRequest _ _ | .ethLinkUp _ => true

end Sys2Proof
end

