-- ==== Sys2Proof/Safety.lean ====
section
/-! DEFINITION. What counts as a safe state and a safe step, in the terms that the statements use. -/

namespace Sys2Proof.Machine

/-- A step does not stop the model: it answers a next state. -/
def Safe (s : State) : Prop := ∃ t, step s = .next t

/-- The debug level is one that R1057 and R1059 give, and any level above 0 has left its mark in DBG_STATUS.EVER. -/
def DebugMarked (s : State) : Prop := s.dbgLevel ≤ 2 ∧ (s.dbgLevel ≠ 0 → s.sec.ever = true)

/-- A function's buffers are memories in canonical form. -/
def Fn.memOk (f : Fn) : Bool := f.reqBuf.wf && f.rspBuf.wf

/-- A scratchpad's bytes are a memory in canonical form. -/
def Spad.memOk (d : Spad) : Bool := d.bytes.wf

/-- The memories of a tile are in canonical form. -/
def Tile.memOk (x : Tile) : Bool := x.wm.memOk && x.am.memOk && x.pm.memOk

/-- Every memory of the module is in canonical form. -/
def MemoryCanonical (s : State) : Prop :=
  (∀ e ∈ s.parts, e.2.hbm.mem.wf = true) ∧ (∀ e ∈ s.tiles, e.2.memOk = true) ∧ ∀ e ∈ s.fns, e.2.memOk = true

/-! Terms of the statements about tiles. -/

/-- Tile t of partition p takes the word w of opcode op: it runs r, which has not ended, stands at w, and neither the freeze of a
state save (R1060) nor a parity error of the word (R343) keeps it. -/
abbrev Stands (s : State) (p : Fin 8) (t : Fin 16) (op : Nat) (r : Run) (w : Nat) : Prop :=
  (s.tile p t).run = some r ∧ r.image[r.pc]? = some w ∧ r.ended = false ∧ opcodeOf w = op ∧ (s.part p).frozen = false ∧
    (s.tile p t).badImem.contains r.pc = false

/-- Element j of a register of elements of wid bytes (R300). -/
def lane (wid v j : Nat) : Nat := v / 2 ^ (8 * wid * j) % 2 ^ (8 * wid)

/-- Element j of the second operand: VB, or the low bytes of a scalar where BSCAL is 1 (R314). -/
def bLane (x : Tile) (w wid j : Nat) : Nat :=
  if fBscal w then x.sreg (fSb w) % 2 ^ (8 * wid) else lane wid (x.vreg (fVb w)) j

/-- Element j under the mask: the result where the bit is 1, else the old element or, with MZ, zero (R305). -/
def masked (x : Tile) (w wid j v : Nat) : Nat :=
  if bitOf (x.mreg (fMask w)) j then v else if fMz w then 0 else lane wid (x.vreg (fVd w)) j

/-- An element-wise vector instruction: constructor, opcode, types, whether VB or its scalar is read, further vectors and
scalars that are read, and the element j that it computes from the tile and the word, for elements of wid bytes, n of them. -/
structure ElementWise where
  instr : Fin 8 → Fin 16 → Instr
  op : Nat
  ok : Nat → Bool
  useB : Bool
  vs : Nat → List Nat
  ss : Nat → List Nat
  elem : Tile → Nat → Nat → Nat → Nat → Nat

/-- A two-operand instruction of elements. -/
def ElementWise.two (instr : Fin 8 → Fin 16 → Instr) (op : Nat) (ok : Nat → Bool) (f : Nat → Nat → Nat → Nat → Nat) :
    ElementWise :=
  { instr, op, ok, useB := true, vs := fun w => [fVa w], ss := fun _ => [],
    elem := fun x w wid _ j => f (fTy w) w (lane wid (x.vreg (fVa w)) j) (bLane x w wid j) }

/-- A one-operand instruction of elements. -/
def ElementWise.one (instr : Fin 8 → Fin 16 → Instr) (op : Nat) (f : Nat → Nat → Nat → Nat) : ElementWise :=
  { instr, op, ok := anyTy, useB := false, vs := fun w => [fVa w], ss := fun _ => [],
    elem := fun x w wid _ j => f (fTy w) w (lane wid (x.vreg (fVa w)) j) }

/-- The element-wise instructions (R310 to R315, R318). -/
def elementWise : List ElementWise :=
  [.two .vadd 0x10 anyTy vAddE, .two .vsub 0x11 anyTy vSubE, .two .vmul 0x12 anyTy vMulE,
   .two .vmin 0x14 anyTy vMinE, .two .vmax 0x15 anyTy vMaxE, .one .vabs 0x16 vAbsE, .one .vneg 0x17 vNegE,
   .two .vand 0x18 anyTy fun _ _ a b => Nat.land a b, .two .vor 0x19 anyTy fun _ _ a b => Nat.lor a b,
   .two .vxor 0x1A anyTy fun _ _ a b => Nat.xor a b,
   .two .vshl 0x1B intTy fun ty _ a b => a * 2 ^ shCount ty b, .two .vshr 0x1C intTy fun ty _ a b => a / 2 ^ shCount ty b,
   .two .vsra 0x1D intTy fun ty _ a b => uNat (tyBits ty) (sInt (tyBits ty) a / 2 ^ shCount ty b),
   .one .vmov 0x1E fun _ _ a => a,
   { instr := .vfma, op := 0x13, ok := isFpType, useB := true, vs := fun w => [fVa w, fVc w], ss := fun _ => []
     elem := fun x w wid _ j =>
       fFma (ffmtOf (fTy w)) (fRnd w) (lane wid (x.vreg (fVa w)) j) (bLane x w wid j) (lane wid (x.vreg (fVc w)) j) },
   { instr := .vbcast, op := 0x1F, ok := anyTy, useB := false, vs := fun _ => [], ss := fun w => [fScal w]
     elem := fun x w _ _ _ => x.sreg (fScal w) },
   { instr := .viota, op := 0x20, ok := (· == 3), useB := false, vs := fun _ => [], ss := fun w => [fScal w]
     elem := fun x w _ _ j => x.sreg (fScal w) + j },
   { instr := .vperm, op := 0x23, ok := anyTy, useB := true, vs := fun w => [fVa w], ss := fun _ => []
     elem := fun x w wid n j => lane wid (x.vreg (fVa w)) (bLane x w wid j % n) }]

/-- The registers that an element-wise word reads are free of parity errors: its vectors and scalars, VB or the scalar that
stands for it, MASK, and VD where masked-off elements keep their value (R305, R343). -/
abbrev ElementWise.clean (c : ElementWise) (x : Tile) (w : Nat) : Prop :=
  x.regBad (c.vs w ++ (if c.useB && !fBscal w then [fVb w] else []) ++ (if fMask w != 0 && !fMz w then [fVd w] else []))
    [fMask w] (c.ss w ++ (if c.useB && fBscal w then [fSb w] else [])) = false

/-- Element code i of width `bits` from bit `from_` of a register. -/
def packed (v from_ bits i : Nat) : Nat := v / 2 ^ (from_ + bits * i) % 2 ^ bits

/-- The tile moves on with registers y: the state after a word of tile t of partition p that has its effect. -/
def movedOn (s : State) (p : Fin 8) (t : Fin 16) (r : Run) (y : Tile) : State :=
  s.setTile p t (y.advance r (s.part p).count)

/-- An entry of the DMA queue that a GSEND made. -/
def DmaEnt.isGsend (e : DmaEnt) : Bool :=
  match e.job with
  | .gsend .. => true
  | _ => false

/-! Terms of the statements about nodes. -/

/-- Node n of partition p, as it stands in s (i), is READY and may dispatch, no damage forbids its re-run and its header passes; u is
the state in which its work begins, after the command boundary and with the node RUNNING and latched (j). -/
abbrev Dispatches (s : State) (p : Fin 8) (n : Nat) (i : Inst) (u : State) (j : Inst) : Prop :=
  s.inst? p n = some i ∧ mayDispatch s p n i = true ∧ (i.rerun && i.noRerun) = false ∧
    (i.firstAt = none → headerBad (boundary s p) p i = false) ∧ u = startRun (boundary s p) p n i ∧ u.inst? p n = some j

/-- The state after a dispatch whose work gave u: a trace record where the trace is on and the node still runs (R1099). -/
def traced (u : State) (p : Fin 8) (n : Nat) (i : Inst) : State :=
  match u.inst? p n with
  | some k => if k.st = .running then traceRec u 0x0280 p i.ctx i.seg i.idx i.iter else u
  | none => u

/-- No dry resource holds back the command that takes the state s to t (R610, R611, R616). -/
abbrev Unheld (s t : State) : Prop := heldBy s t = []

/-- A range of device memory that node n names reads as `bytes` without poison, no closed resource in the way, which leaves the state v
(R607, R616, R673). -/
def NodeReads (u : State) (p : Fin 8) (n : Nat) (i : Inst) (a len : Nat) (bytes : List Byte) (v : State) : Prop :=
  closedHbm u p i.ctx i.mapVer a len n = none ∧
  ∃ m : List PByte, readHbm u p i.ctx i.mapVer a len 18 = .ok (m, v) ∧ m.any (·.2) = false ∧ bytes = m.map (·.1)

/-- A COPY passes the checks of its dispatch: fields, route, regulators and ranges (R508, R548, R616, R803, R818, R1117). -/
def CopyPasses (u : State) (p : Fin 8) (n : Nat) (j : Inst) : Prop :=
  copyBad j = false ∧
    (j.dstKind = 3 → j.overFabric = true → u.inSlice (bitsOf (wd j.words 7) 31 19) = true ∧
      routeRefused u p (bitsOf (wd j.words 7) 31 19) = false) ∧
    copyClosed u p n j = false ∧ ∀ r ∈ copyRanges u p j, r = .ok

/-- The source bytes of a COPY and the state after reading them: device memory, what host memory returned, once every page of the source
is translated where ATS is on, or a stream of the weight store (R509, R747, R748, R865). -/
def CopyReads (u : State) (p : Fin 8) (n : Nat) (j : Inst) (src : HostRd) (bytes : List Byte) (v : State) : Prop :=
  (j.srcKind = 0 ∧ NodeReads u p n j j.src j.length bytes v) ∨
  (j.srcKind = 1 ∧ (∃ d, src = .data d ∧ bytes = d.take j.length) ∧
    (if j.xlAsked then [] else missingPages u (j.fn u) j.src j.length) = [] ∧
    v = charge (if j.xlAsked then u.modInst p n fun k => { k with xlAsked := false } else u) p 8 j.length) ∨
  (j.srcKind = 2 ∧ src ≠ .error ∧ ∃ (img : Nat) (key : List Byte) (r : List Nat), streamOf u j = some (img, key, r) ∧
    nvRead (tabGet { header := [], regions := [], hashes := [] } u.nvws.images img) key (wd64 r 2 + j.src % 2 ^ 48) j.length =
      .ok bytes ∧
    v = charge u p 10 (1048576 * (chunksOf (wd64 r 2 + j.src % 2 ^ 48) j.length).length))

/-- The condition word of a WAIT, COND or LOOP as one read returns it, in host memory once its page is translated where ATS is on, and
the state after the read (R512, R513, R865). -/
def CondReads (u : State) (p : Fin 8) (n : Nat) (i : Inst) (rd : HostRd) (word : Nat) (v : State) : Prop :=
  (i.cHost = true ∧ missingPages u (u.ctx i.ctx).owner i.cAddr i.cWidth = [] ∧ ∃ d, rd = .data d ∧ word = leNat (d.take i.cWidth) ∧
    v = u.modInst p n fun j => { j with reruns := 0 }) ∨
  (i.cHost = false ∧ ∃ (m : List PByte) (w : State), readDva u p i.ctx i.mapVer i.cAddr i.cWidth 18 = .ok (m, w) ∧
    m.any (·.2) = false ∧ word = leNat (m.map (·.1)) ∧
    v = w.modInst p n fun j => { j with reruns := 0 })

/-- The destination of a COPY takes its bytes, which leaves the state u: device memory (the node ends), host memory, where ATS is off or
has every page of it (it ends) and else once the pages asked for have come, WRITE packets on the fabric (it ends when no acknowledgement is missing), or one RDMA write on a READY connection (its acknowledgement
ends it) (R509, R799, R853, R877). -/
def CopyArrives (v : State) (p : Fin 8) (n : Nat) (j : Inst) (bs : List Byte) (u : State) : Prop :=
  (j.dstKind = 0 ∧ ∃ w, writeHbm v p j.ctx j.mapVer j.dst (good bs) = .ok w ∧ u = endExec w p n) ∨
  (j.dstKind = 1 ∧ missingPages v (j.fn v) j.dst bs.length = [] ∧ u = endExec
    (charge (if bs = [] then v else v.post j.ctx j.dst bs (v.fn (j.fn v)).relaxed) p 8 bs.length) p n) ∨
  (j.dstKind = 1 ∧ ∃ g gs, missingPages v (j.fn v) j.dst bs.length = g :: gs ∧
    u = (askPages v (j.fn v) (g :: gs)).modInst p n fun k => { k with hostWait := some bs, xlWait := g :: gs }) ∨
  (j.dstKind = 3 ∧ j.overFabric = true ∧ (sendAll v p n true j (copyPackets j bs)).2.2 = [] ∧
    u = (sendAll v p n true j (copyPackets j bs)).1.modInst p n fun k =>
      { k with acks := (sendAll v p n true j (copyPackets j bs)).2.1, sentAt := (v.part p).count,
               unsent := unsentOf v p (copyPackets j bs)
               ended := (sendAll v p n true j (copyPackets j bs)).2.1 == [] && unsentOf v p (copyPackets j bs) == [] }) ∨
  (j.dstKind = 3 ∧ j.overFabric = false ∧ ∃ c : Conn, tabFind v.conns (wd j.words 7) = some c ∧ c.ctx = j.ctx ∧ c.st = .ready ∧
    u = charge { v with
      ethOut := v.ethOut ++ [{ conn := wd j.words 7, kind := if bitOf (wd c.words 0) 28 then 1 else 0, key := wd c.words 10,
                               addr := j.dst, bytes := bs,
                               imm := if bitOf (wd c.words 0) 28 then bitsOf (wd c.words 11) 11 0 else 0
                               ctx := j.ctx, epoch := (v.ctx j.ctx).epoch }]
      conns := tabSet v.conns (wd j.words 7) { c with
        outst := c.outst ++ [((p : Nat), n)], sentAt := if c.outst = [] then v.hub else c.sentAt } } p 9 bs.length)

/-- Request r of function k, with opcode op, is the next that the MCP runs, it may run now, and its context is still the function's: u is
the state with the request taken off the list (R567, R576, R954). -/
def Asked (s : State) (k op : Nat) (r : Req) (u : State) : Prop :=
  s.taken = (k, r) :: u.taken ∧ r.opcode = op ∧ s.mcpReady = true ∧ s.stopped = false ∧
  (s.power.a4 = false ∨ needsPart op = false) ∧
  (r.ctx = 0 ∨ (s.ctx r.ctx).st ≠ .free ∧ (s.ctx r.ctx).owner = k ∧ (op = 0x0103 ∨ (s.ctx r.ctx).st = .open)) ∧
  u = { s with taken := u.taken }

/-- No payload word has a bit of its mask set. -/
def NoBits (r : Req) (masks : List Nat) : Prop := reservedAt masks r.payload 0 = none

/-- Partition p is the function's and the context's (R1107). -/
def PartOk (u : State) (k : Nat) (r : Req) (p : Nat) : Prop := u.ownerOf p = k ∧ p ∈ (u.ctx r.ctx).parts

/-- The long operation that a request begins, in the table under the next number. -/
def longOp (u : State) (k : Nat) (r : Req) (todo : List Nat) (a b : Nat) : State :=
  { u with ops := tabSet u.ops u.nextOp { fn := k, req := r.no, seq := r.seq, opcode := r.opcode, ctx := r.ctx, payload := r.payload,
                                            todo, a, b },
           nextOp := u.nextOp + 1 }

/-- The same, with the wait limit of its message. -/
def limitedOp (u : State) (k : Nat) (r : Req) (todo : List Nat) (limit : Nat) : State :=
  let v := longOp u k r todo 0 0
  { v with ops := tabMap v.ops fun m o => if m = u.nextOp then { o with deadline := some (waitUntil u limit) } else o }

/-- Every field of a packet fits into its place of the header (the table of R777). -/
def PacketFits (q : Packet) : Prop :=
  q.ptype < 2 ^ 4 ∧ q.tc < 2 ^ 2 ∧ q.vc < 2 ∧ q.dstDie < 2 ^ 3 ∧ q.dstSpace < 2 ^ 2 ∧ q.destModule < 2 ^ 13 ∧
  q.srcModule < 2 ^ 13 ∧ q.txn < 2 ^ 12 ∧ q.destCtx < 2 ^ 6 ∧ q.srcCtx < 2 ^ 6 ∧ q.srcEpoch < 2 ^ 8 ∧ q.len < 2 ^ 11 ∧
  q.dstTile < 2 ^ 4 ∧ q.op < 2 ^ 4 ∧ q.status < 2 ^ 8 ∧ q.addrHi < 2 ^ 16 ∧ q.addrLo < 2 ^ 32 ∧ q.rtag < 2 ^ 16 ∧ q.low < 2 ^ 16

end Sys2Proof.Machine
end

