-- ==== Sys2Proof/Certificates/Slice0/Obligations.lean ====
section
/-! DEFINITION. The statements for the provers. -/

open Sys2Proof Sys2Proof.Machine

/-- The block takes one command at a time from the front of its queue and runs it with the rest of the queue. The queue is the
model's own (DESIGN CHOICE, log entry 1).
On an empty queue a step is one count of the reference clock: the hub counter and the counter of each of the eight dies
advance by 1 modulo 2^64 (the values of R641 and R642), and beside the note of idleness of each partition nothing else
changes. That such a step is the clock's is the model's choice (DESIGN CHOICE, log entry 1). -/
def Obligations.StepRunsFrontCommand : Prop :=
  (∀ (s : State) (c : Instr), step { s with pending := c :: s.pending } = exec c s) ∧
  (∀ s : State, s.pending = [] → ∃ t, step s = .next t ∧ t.hub = (s.hub + 1) % 2 ^ 64 ∧
    (∀ p < 8, (t.part p).count = ((s.part p).count + 1) % 2 ^ 64) ∧
    (∀ p < 8, { t.part p with count := (s.part p).count, idleAt := (s.part p).idleAt } = s.part p) ∧
    { t with hub := s.hub, parts := s.parts } = s)

/-- NOP, SLI, SALU, SLD and SST complete: the word's own effect on the scalar registers or on the scratchpad that SPACE names,
and the tile moves to the next word. Nothing else changes: the next state is written out. SLD and SST use byte address
S[SBASE] + OFFSET, a multiple of 4 inside the scratchpad, and SST stores the four bytes of its scalar there, merged into a line that
reads without an error. -/
def Obligations.ScalarWordsComplete : Prop :=
  ∀ (s : State) (p : Fin 8) (t : Fin 16) (r : Run) (w : Nat),
    let x := s.tile p t
    let moved (y : Tile) : State := movedOn s p t r y
    let sp := if bitOf w 37 then Spc.pm else Spc.am
    let a := x.sreg (bitsOf w 36 32) + bitsOf w 20 0
    (Stands s p t 0x00 r w → bitsOf w 55 0 = 0 → exec (.nop p t) s = .next (moved x)) ∧
    (Stands s p t 0x03 r w → bitsOf w 55 37 = 0 →
      exec (.sli p t) s = .next (moved (x.setS (bitsOf w 36 32) (bitsOf w 31 0)))) ∧
    (Stands s p t 0x04 r w → bitsOf w 55 48 = 0 → bitsOf w 47 44 < 9 →
      x.regBad [] [] (if bitOf w 43 then [bitsOf w 37 33] else [bitsOf w 37 33, bitsOf w 32 28]) = false →
      exec (.salu p t) s = .next (moved (x.setS (bitsOf w 42 38) (saluFn (bitsOf w 47 44) (x.sreg (bitsOf w 37 33))
        (if bitOf w 43 then bitsOf w 27 0 else x.sreg (bitsOf w 32 28)))))) ∧
    (Stands s p t 0x05 r w → sldReserved w = false → x.badS.contains (bitsOf w 36 32) = false → a % 4 = 0 →
      a + 4 ≤ Spc.size sp → (x.spad sp).readErr a 4 = none →
      exec (.sld p t) s = .next (moved (x.setS (bitsOf w 42 38) (memWord (x.spad sp).bytes a)))) ∧
    (Stands s p t 0x06 r w → sldReserved w = false →
      x.badS.contains (bitsOf w 36 32) = false → x.badS.contains (bitsOf w 42 38) = false → a % 4 = 0 →
      a + 4 ≤ Spc.size sp → (x.spad sp).mergeErr a 4 = none →
      exec (.sst p t) s = .next (moved (x.setSpad sp ((x.spad sp).write a (natLe 4 (x.sreg (bitsOf w 42 38))) false))))

/-- SST changes four bytes: for every address, outside the four bytes from S[SBASE] + OFFSET the scratchpad that SPACE names reads
as before, and inside they read as the scalar's bytes, lowest first; the two other scratchpads and every register but the
loop counters' scalars are unchanged. -/
def Obligations.ScalarStoreTouchesFourBytes : Prop :=
  ∀ (s : State) (p : Fin 8) (t : Fin 16) (r : Run) (w : Nat),
    let x := s.tile p t
    let sp := if bitOf w 37 then Spc.pm else Spc.am
    let a := x.sreg (bitsOf w 36 32) + bitsOf w 20 0
    Stands s p t 0x06 r w → sldReserved w = false →
      x.badS.contains (bitsOf w 36 32) = false → x.badS.contains (bitsOf w 42 38) = false → a % 4 = 0 →
      a + 4 ≤ Spc.size sp → (x.spad sp).mergeErr a 4 = none → (x.spad sp).bytes.wf = true →
      ∃ u, exec (.sst p t) s = .next u ∧
        (∀ b, b < a ∨ a + 4 ≤ b → memByte ((u.tile p t).spad sp).bytes b = memByte (x.spad sp).bytes b) ∧
        (∀ k < 4, memByte ((u.tile p t).spad sp).bytes (a + k) =
          BitVec.ofNat 8 (x.sreg (bitsOf w 42 38) / 256 ^ k)) ∧
        (∀ q, q ≠ sp → (u.tile p t).spad q = x.spad q) ∧
        (u.tile p t).v = x.v ∧ (u.tile p t).m = x.m ∧
        (∀ k, (∀ f ∈ r.loops, f.idx ≠ k) → (u.tile p t).sreg k = x.sreg k)

/-- The scalar unit computes in 32-bit two's complement: each FN of SALU is the operation of that name on 32-bit words, wrapping,
and the shifts take bits [4:0] of the second operand. -/
def Obligations.ScalarUnitWraps : Prop :=
  ∀ a b : BitVec 32,
    BitVec.ofNat 32 (saluFn 0 a.toNat b.toNat) = a + b ∧ BitVec.ofNat 32 (saluFn 1 a.toNat b.toNat) = a - b ∧
    BitVec.ofNat 32 (saluFn 2 a.toNat b.toNat) = a * b ∧ BitVec.ofNat 32 (saluFn 3 a.toNat b.toNat) = a &&& b ∧
    BitVec.ofNat 32 (saluFn 4 a.toNat b.toNat) = a ||| b ∧ BitVec.ofNat 32 (saluFn 5 a.toNat b.toNat) = a ^^^ b ∧
    BitVec.ofNat 32 (saluFn 6 a.toNat b.toNat) = a <<< (b.toNat % 32) ∧
    BitVec.ofNat 32 (saluFn 7 a.toNat b.toNat) = a >>> (b.toNat % 32) ∧
    BitVec.ofNat 32 (saluFn 8 a.toNat b.toNat) = a.sshiftRight (b.toNat % 32)

/-- LOOP enters its body with iteration 0 in IDX_SREG; and the word before the end of a body, here a NOP, starts the next iteration
with its number in IDX_SREG while iterations are left, and leaves the loop after the last (where the loop around it does not end at the same word). -/
def Obligations.LoopRunsBodyCountTimes : Prop :=
  ∀ (s : State) (p : Fin 8) (t : Fin 16) (r : Run) (w : Nat),
    let x := s.tile p t
    (Stands s p t 0x02 r w → bitsOf w 55 37 = 0 → bitsOf w 31 16 ≠ 0 → bitsOf w 15 0 ≠ 0 → r.loops.length < 4 →
      r.pc + 1 + bitsOf w 31 16 ≤ (match r.loops with | f :: _ => f.stop | [] => r.image.length) →
      exec (.loop p t) s = .next (s.setTile p t
        { x.setS (bitsOf w 36 32) 0 with
          run := some { r with
            pc := r.pc + 1, progress := (s.part p).count,
            loops := ⟨r.pc + 1, r.pc + 1 + bitsOf w 31 16, bitsOf w 15 0, 0, bitsOf w 36 32⟩ :: r.loops } })) ∧
    (∀ (f : LoopFrame) (fs : List LoopFrame), Stands s p t 0x00 r w → bitsOf w 55 0 = 0 → r.loops = f :: fs →
      r.pc + 1 = f.stop → f.iter + 1 < f.count →
      exec (.nop p t) s = .next (s.setTile p t
        { x.setS f.idx (f.iter + 1) with
          run := some { r with
            pc := f.start, progress := (s.part p).count,
            loops := { f with iter := f.iter + 1 } :: fs } })) ∧
    (∀ (f : LoopFrame) (fs : List LoopFrame), Stands s p t 0x00 r w → bitsOf w 55 0 = 0 → r.loops = f :: fs →
      r.pc + 1 = f.stop → f.count ≤ f.iter + 1 → (∀ g ∈ fs.head?, r.pc + 1 ≠ g.stop) →
      exec (.nop p t) s = .next (s.setTile p t
        { x with run := some { r with pc := r.pc + 1, progress := (s.part p).count, loops := fs } }))

/-- END, once the tile's queues of matrix commands, DMA descriptors and KV appends are empty, ends the tile's part of the kernel and
hands what the tile collected to the node instance; while one of them holds an entry, the word waits. -/
def Obligations.EndWaitsAndHandsOver : Prop :=
  ∀ (s : State) (p : Fin 8) (t : Fin 16) (r : Run) (w : Nat) (i : Inst),
    let x := s.tile p t
    Stands s p t 0x01 r w → bitsOf w 55 0 = 0 → s.inst? p r.inst = some i →
    ((x.mq = [] ∧ x.dq = [] ∧ x.kvq = []) →
      ∃ u, exec (.endKernel p t) s = .next u ∧ (u.tile p t).run = some { r with ended := true } ∧
        (∃ j, u.inst? p r.inst = some j ∧ j.endedTiles = setIns i.endedTiles t ∧ j.astat = flagsOr i.astat r.astat ∧
          j.conflicts = min (i.conflicts + r.conflicts) 65535 ∧ j.pubs = tabSet i.pubs t r.pubs ∧
          j.gnamed = tabSet i.gnamed t r.gnamed ∧ j.greleased = tabSet i.greleased t r.greleased ∧
          (j.ended = true ↔ ∀ k ∈ i.tiles, k = (t : Nat) ∨ k ∈ i.endedTiles)) ∧
        (u.tile p t).wm = x.wm ∧ (u.tile p t).am = x.am ∧ (u.tile p t).pm = x.pm) ∧
    ((x.mq ≠ [] ∨ x.dq ≠ [] ∨ x.kvq ≠ []) → exec (.endKernel p t) s = .next s)

/-- A reserved opcode, a program that runs past its last word and a word with a reserved bit (here NOP) end the kernel with
SEQ_ILLEGAL, event code 0x3240, whose data are the tile and the word's index. -/
def Obligations.IllegalWordsEndKernel : Prop :=
  ∀ (s : State) (p : Fin 8) (t : Fin 16) (r : Run) (w op : Nat),
    (Stands s p t op r w → ((0x07 ≤ op ∧ op ≤ 0x0F) ∨ (0x25 ≤ op ∧ op ≤ 0x2F) ∨ (0x35 ≤ op ∧ op ≤ 0x37) ∨ op = 0x3B ∨
        (0x3D ≤ op ∧ op ≤ 0x3F) ∨ op = 0x47 ∨ (0x4B ≤ op ∧ op ≤ 0x4F) ∨ 0x53 ≤ op) →
      exec (.reservedOpcode p t) s = .next (failNode s p r.inst 0x3240 [t, r.pc])) ∧
    ((s.tile p t).run = some r → r.ended = false → (s.part p).frozen = false → r.image.length ≤ r.pc →
      exec (.imageOverrun p t) s = .next (failNode s p r.inst 0x3240 [t, r.pc])) ∧
    (Stands s p t 0x00 r w → bitsOf w 55 0 ≠ 0 →
      exec (.nop p t) s = .next (failNode s p r.inst 0x3240 [t, r.pc]))

/-- Every element-wise vector instruction (the list `elementWise` of Safety.lean: VADD, VSUB, VMUL, VMIN, VMAX, VABS, VNEG, VAND, VOR, VXOR,
VSHL, VSHR, VSRA, VMOV, VFMA, VBCAST, VIOTA and VPERM) completes: element j of VD is the instruction's function of the operands' elements j
where the mask bit is 1, zero under MZ or the old element where it is 0, and the tile moves on; nothing else changes. -/
def Obligations.VectorElementsUnderMask : Prop :=
  ∀ c ∈ elementWise, ∀ (s : State) (p : Fin 8) (t : Fin 16) (r : Run) (w wid n : Nat),
    Stands s p t c.op r w → vType (fTy w) = some (wid, n) → bitOf w 5 = false → c.ok (fTy w) = true →
    c.clean (s.tile p t) w →
    ∃ v < 2 ^ 8192,
      exec (c.instr p t) s = .next (movedOn s p t r ((s.tile p t).setV (fVd w) v)) ∧
      ∀ j < n, lane wid v j = masked (s.tile p t) w wid j (c.elem (s.tile p t) w wid n j % 2 ^ (8 * wid))

/-- Integer elements (TYPE 3 INT32, TYPE 4 INT8): sums, differences, magnitudes and negations wrap when SAT is 0 and saturate to the
type's range when SAT is 1, a product is the low bits of the exact product, and a shift count is the low 5 bits for INT32 and the low 3 bits
for INT8, with which VSHL, VSHR and VSRA shift. -/
def Obligations.IntegerElementsWrapOrSaturate : Prop :=
  ∀ (ty n w a b : Nat), (ty = 3 ∧ n = 32) ∨ (ty = 4 ∧ n = 8) → a < 2 ^ n → b < 2 ^ n →
    let A := (BitVec.ofNat n a).toInt
    let B := (BitVec.ofNat n b).toInt
    let sat (z : Int) : Int := max (-2 ^ (n - 1)) (min (2 ^ (n - 1) - 1) z)
    vMulE ty w a b = (BitVec.ofNat n a * BitVec.ofNat n b).toNat ∧
    shCount ty b = b % (if ty = 3 then 2 ^ 5 else 2 ^ 3) ∧
    (fSat w = false →
      vAddE ty w a b = (BitVec.ofInt n (A + B)).toNat ∧ vSubE ty w a b = (BitVec.ofInt n (A - B)).toNat ∧
      vNegE ty w a = (BitVec.ofInt n (-A)).toNat ∧ vAbsE ty w a = (BitVec.ofInt n A.natAbs).toNat) ∧
    (fSat w = true →
      vAddE ty w a b = (BitVec.ofInt n (sat (A + B))).toNat ∧ vSubE ty w a b = (BitVec.ofInt n (sat (A - B))).toNat ∧
      vNegE ty w a = (BitVec.ofInt n (sat (-A))).toNat ∧ vAbsE ty w a = (BitVec.ofInt n (sat A.natAbs)).toNat)

/-- VEXT, VINS and VPACK complete: VEXT puts element LANE of VA into scalar SCAL; VINS puts the low bytes of scalar SCAL into element
LANE of VD, every element of VD being under MASK and MZ; VPACK gathers the elements whose mask bit is 1, fills up from VC and counts them in scalar
SCAL. With LANE at or beyond the element count the written value is free (DESIGN CHOICE, log entry 7): the word still completes. -/
def Obligations.VectorLaneWordsComplete : Prop :=
  ∀ (s : State) (p : Fin 8) (t : Fin 16) (r : Run) (w wid n : Nat), vType (fTy w) = some (wid, n) → bitOf w 5 = false →
    let x := s.tile p t
    let moved (s : State) (y : Tile) : State := movedOn s p t r y
    let kept := (List.range n).filter fun i => bitOf (x.mreg (fMask w)) i
    (Stands s p t 0x21 r w → x.regBad [fVa w] [] [] = false → fLane w < n →
      exec (.vext p t) s = .next (moved s (x.setS (fScal w) (lane wid (x.vreg (fVa w)) (fLane w))))) ∧
    (Stands s p t 0x21 r w → x.regBad [fVa w] [] [] = false → n ≤ fLane w → ∃ v,
      exec (.vext p t) s = .next (moved { s with free := s.free + 1 } (x.setS (fScal w) v))) ∧
    (Stands s p t 0x22 r w → x.regBad [fVd w] [fMask w] [fScal w] = false → fLane w < n → ∃ v < 2 ^ 8192,
      exec (.vins p t) s = .next (moved s (x.setV (fVd w) v)) ∧
      ∀ j < n, lane wid v j = masked x w wid j
        (if j = fLane w then x.sreg (fScal w) % 2 ^ (8 * wid) else lane wid (x.vreg (fVd w)) j)) ∧
    (Stands s p t 0x22 r w → x.regBad [fVd w] [fMask w] [fScal w] = false → n ≤ fLane w → ∃ v < 2 ^ 8192, ∃ new : Nat → Nat,
      exec (.vins p t) s = .next (moved { s with free := s.free + 1 } (x.setV (fVd w) v)) ∧
      ∀ j < n, lane wid v j = masked x w wid j (new j)) ∧
    (Stands s p t 0x24 r w → x.regBad [fVa w, fVc w] [fMask w] [] = false → ∃ v < 2 ^ 8192,
      exec (.vpack p t) s = .next (moved s ((x.setV (fVd w) v).setS (fScal w) kept.length)) ∧
      ∀ j < n, lane wid v j = match kept[j]? with
        | some i => lane wid (x.vreg (fVa w)) i
        | none => lane wid (x.vreg (fVc w)) j)

/-- VCMP, VSEL, MLOG, MPOP and MFIRST complete. VCMP sets bit i of MD, i below the element count, where the predicate holds of the
elements i, under MASK and MZ, and clears the bits from the count on; VSEL takes VA where the mask bit is 1, else VB; MLOG is
the logic function of all 1,024 bits; MPOP counts, and MFIRST finds the lowest of, the set bits of MA below the count. Where MD
is M0, which ignores writes, nothing but the program counter changes. -/
def Obligations.MaskWordsComplete : Prop :=
  ∀ (s : State) (p : Fin 8) (t : Fin 16) (r : Run) (w wid n : Nat), vType (fTy w) = some (wid, n) → bitOf w 5 = false →
    let x := s.tile p t
    let moved (y : Tile) : State := movedOn s p t r y
    let withM (m : Nat) : Tile :=
      if fMd w = 0 then x
      else { x with m := tabSet x.m (fMd w) (BitVec.ofNat 1024 m), badM := setDel x.badM (fMd w) }
    let set := (List.range n).filter fun i => bitOf (x.mreg (fMa w)) i
    (Stands s p t 0x30 r w → fPred w ≠ 7 →
      x.regBad ([fVa w] ++ if fBscal w then [] else [fVb w])
        ([fMask w] ++ if fMask w != 0 && !fMz w then [fMd w] else []) (if fBscal w then [fSb w] else []) = false →
      ∃ m < 2 ^ 1024, exec (.vcmp p t) s = .next (moved (withM m)) ∧
        ∀ i < 1024, bitOf m i = (decide (i < n) && if bitOf (x.mreg (fMask w)) i
          then predHolds (fPred w) (cmpElem (fTy w) (lane wid (x.vreg (fVa w)) i) (bLane x w wid i))
          else !fMz w && bitOf (x.mreg (fMd w)) i)) ∧
    (Stands s p t 0x31 r w →
      x.regBad ([fVa w] ++ if fBscal w then [] else [fVb w]) [fMask w] (if fBscal w then [fSb w] else []) = false →
      ∃ v < 2 ^ 8192, exec (.vsel p t) s = .next (moved (x.setV (fVd w) v)) ∧
        ∀ j < n, lane wid v j = if bitOf (x.mreg (fMask w)) j then lane wid (x.vreg (fVa w)) j else bLane x w wid j) ∧
    (Stands s p t 0x32 r w → x.regBad [] [fMa w, fMb w] [] = false →
      ∃ m < 2 ^ 1024, exec (.mlog p t) s = .next (moved (withM m)) ∧
        ∀ i < 1024, bitOf m i =
          let a := bitOf (x.mreg (fMa w)) i
          let b := bitOf (x.mreg (fMb w)) i
          if fMfn w = 0 then a && b else if fMfn w = 1 then a || b else if fMfn w = 2 then a != b else a && !b) ∧
    (Stands s p t 0x33 r w → x.regBad [] [fMa w] [] = false →
      exec (.mpop p t) s = .next (moved (x.setS (fScal w) set.length))) ∧
    (Stands s p t 0x34 r w → x.regBad [] [fMa w] [] = false →
      exec (.mfirst p t) s = .next (moved (x.setS (fScal w) (set.headD n))))

/-- VLD and VST complete. VLD reads 1,024 bytes from S[SBASE] + OFFSET into VD under the mask. VST writes there the bytes of VD whose
element's mask bit is 1, where no line that it writes in part reads with an error: every other byte of the scratchpad, and both
other scratchpads, read as before. -/
def Obligations.VectorLoadStoreBytes : Prop :=
  ∀ (s : State) (p : Fin 8) (t : Fin 16) (r : Run) (w wid n : Nat), vType (fTy w) = some (wid, n) →
    bitsOf w 36 21 = 0 →
    let x := s.tile p t
    let sp := if bitOf w 42 then Spc.pm else Spc.am
    let a := x.sreg (bitsOf w 41 37) + bitsOf w 20 0
    a % 64 = 0 → a + 1024 ≤ Spc.size sp →
    (Stands s p t 0x39 r w →
      x.regBad (if fMask w != 0 && !fMz w then [fVd w] else []) [fMask w] [bitsOf w 41 37] = false →
      (x.spad sp).readErr a 1024 = none →
      ∃ v < 2 ^ 8192, exec (.vld p t) s = .next (movedOn s p t r (x.setV (fVd w) v)) ∧
        ∀ j < n, lane wid v j = masked x w wid j (leNat (memRead (x.spad sp).bytes (a + wid * j) wid))) ∧
    (Stands s p t 0x3A r w → x.regBad [fVd w] [fMask w] [bitsOf w 41 37] = false → (x.spad sp).bytes.wf = true →
      storeErr (x.spad sp) a (fun i => bitOf (x.mreg (fMask w)) (i / wid)) = none →
      ∃ d, exec (.vst p t) s = .next (movedOn s p t r (x.setSpad sp d)) ∧
        ∀ b, memByte d.bytes b =
          if a ≤ b ∧ b < a + 1024 ∧ bitOf (x.mreg (fMask w)) ((b - a) / wid) = true
          then BitVec.ofNat 8 (x.vreg (fVd w) / 256 ^ (b - a)) else memByte (x.spad sp).bytes b)

/-- CVT completes. Between formats that are not MX, each of the 1024 / max(bytes) element codes of VD that the mask enables is the
conversion of VA's element (a value of the same format is kept, a NaN becomes the canonical one), a masked-off code is zero under
MZ or kept. To an MX format, which takes no mask, the codes and the scale bytes in VC are the blocks that the conversion of each
32 values gives. The narrower side uses the part of its register that PART names.
RED completes. With AM 1 the records of the n / G segments stand one after the other from AM address 64 × ADDR; with AM 0 the one
segment's result is in scalar SD, and for ARGMAX, which SD 31 does not take, its index in SD + 1. With RUN 1 the result before is combined into the new one. -/
def Obligations.ConversionsAndReductionsComplete : Prop :=
  (∀ (s : State) (p : Fin 8) (t : Fin 16) (r : Run) (w : Nat),
    let x := s.tile p t
    let src := bitsOf w 20 17
    let dst := bitsOf w 16 13
    let part := bitsOf w 12 10
    let sw := fmtBits src
    let dw := fmtBits dst
    let n := 1024 / max (fmtBytes src) (fmtBytes dst)
    let code (i : Nat) : Nat := packed (x.vreg (fVa w)) (if sw < dw then part * (n * sw) else 0) sw i
    let val (i : Nat) : FV :=
      if isMx src then mxVal src (code i) (regByte (x.vreg (fVb w)) ((if sw < dw then part * n / 32 else 0) + i / 32))
      else elemVal src (code i)
    let db := if dw < sw then part * (n * dw) else 0
    Stands s p t 0x38 r w → bitsOf w 9 0 = 0 → src < 0xD → dst < 0xD → fTy w = 0 → (sw = dw → part = 0) →
    (sw ≠ dw → (part + 1) * (n * min sw dw) ≤ 8192) → (isMx dst = true → fMask w = 0) →
    x.regBad ([fVa w, fVd w] ++ (if isMx src then [fVb w] else []) ++ (if isMx dst then [fVc w] else [])) [fMask w] [] =
      false →
    (isMx dst = false → ∃ v < 2 ^ 8192, exec (.cvt p t) s = .next (movedOn s p t r (x.setV (fVd w) v)) ∧
      ∀ i < n, packed v db dw i =
        if bitOf (x.mreg (fMask w)) i then
          (if src = dst then (if (elemVal src (code i)).isNan then convert dst 0 false .nan else code i)
           else convert dst (fRnd w) (fSat w) (val i)) % 2 ^ dw
        else if fMz w then 0 else packed (x.vreg (fVd w)) db dw i) ∧
    (isMx dst = true → ∃ v < 2 ^ 8192, ∃ c < 2 ^ 8192,
      exec (.cvt p t) s = .next (movedOn s p t r ((x.setV (fVd w) v).setV (fVc w) c)) ∧
      (src ≠ dst → ∀ q < n / 32,
        let blk := mxBlock dst (fRnd w) (fSat w) ((List.range 32).map fun j => val (32 * q + j))
        regByte c ((if dw < sw then part * n / 32 else 0) + q) = blk.1 % 256 ∧
        ∀ j < 32, packed v db dw (32 * q + j) = wd blk.2 j % 2 ^ dw))) ∧
  (∀ (s : State) (p : Fin 8) (t : Fin 16) (r : Run) (w wid n : Nat), vType (fTy w) = some (wid, n) →
    let x := s.tile p t
    let ty := fTy w
    let rop := bitsOf w 48 46
    let run := bitOf w 45
    let sd := bitsOf w 36 32
    let sb := bitsOf w 31 27
    let g := 2 ^ (bitsOf w 26 24 + 4)
    let k := bitsOf w 23 18 + 1
    let a := 64 * bitsOf w 14 0
    let size := if rop ≤ 2 then 4 else if rop = 3 then 8 else 8 * k
    let elems := List.zip ((vElems wid n (x.vreg (fVa w))).map (redElem ty)) (vMask n (x.mreg (fMask w)))
    let seg (j : Nat) : List (Nat × Bool) := (elems.drop (g * j)).take g
    let res (j : Nat) : List Nat := segWords rop ty k (if 3 ≤ rop then x.sreg sb else 0) (seg j)
    let some_ (j : Nat) : Nat := ((seg j).filter (·.2)).length
    Stands s p t 0x3C r w → ty ≠ 4 → bitOf w 52 = false → bitOf w 43 = false → bitsOf w 17 15 = 0 → rop < 5 → g ≤ n →
    (rop = 2 → ty ≠ 3) → (rop = 3 → sd ≠ 31) →
    (bitOf w 44 = true → x.regBad [fVa w] [fMask w] (if 3 ≤ rop then [sb] else []) = false →
      a + n / g * size ≤ Spc.size .am → (run = true → x.am.readErr a (n / g * size) = none) →
      (run = false → x.am.mergeErr a (n / g * size) = none) →
      exec (.red p t) s = .next (movedOn s p t r { x with am := x.am.write a (wordsBytes ((List.range (n / g)).map fun j =>
        if run then redRun rop ty k (some_ j) (memWords x.am.bytes (a + size * j) (size / 4)) (res j) else res j).flatten) false })) ∧
    (bitOf w 44 = false → g = n → rop ≠ 4 →
      x.regBad [fVa w] [fMask w]
        ((if 3 ≤ rop then [sb] else []) ++ (if run then (if rop = 3 then [sd, sd + 1] else [sd]) else [])) = false →
      let old := if rop = 3 then [x.sreg sd, x.sreg (sd + 1)] else [x.sreg sd]
      let out := if run then redRun rop ty k (some_ 0) old (res 0) else res 0
      exec (.red p t) s = .next (movedOn s p t r
        (if rop = 3 then (x.setS sd (wd out 0)).setS (sd + 1) (wd out 1) else x.setS sd (wd out 0)))))

/-- SFN, SGLU and SMPR complete: element j of VD is, under the mask, the function of the operands' elements j, the built-in in native or
compatibility mode, the activation of VA times VB, or the micro-program of the slot in the bank that the kernel has latched.
The built-in functions give the spec's results for special operands in native mode: a NaN gives the canonical NaN, EXP of +Inf is +Inf
and of −Inf +0, and TANH keeps a zero with its sign, for FP32 codes. -/
def Obligations.SpecialFunctionsComplete : Prop :=
  (∀ (s : State) (p : Fin 8) (t : Fin 16) (r : Run) (w wid n : Nat), vType (fTy w) = some (wid, n) → fTy w < 3 →
    fVc w = 0 → bitsOf w 19 0 = 0 →
    let x := s.tile p t
    let k := bitsOf w 24 21
    let cm := bitOf w 20
    let a (j : Nat) : Nat := lane wid (x.vreg (fVa w)) j
    let b (j : Nat) : Nat := lane wid (x.vreg (fVb w)) j
    let clean (vs : List Nat) : Prop :=
      x.regBad (vs ++ if fMask w != 0 && !fMz w then [fVd w] else []) [fMask w] [] = false
    let bank := if r.bank = 0 then (s.cp r.ctx p).bank0 else (s.cp r.ctx p).bank1
    let f := ffmtOf (fTy w)
    let on (es : List Nat) : List Nat := evaluated (vMask n (x.mreg (fMask w))) es
    (Stands s p t 0x48 r w → fVb w = 0 → (cm = true → k < 13) → clean [fVa w] →
      romBad x cm k (fTy w) (on (vElems wid n (x.vreg (fVa w)))) = false →
      ∃ v < 2 ^ 8192, exec (.sfn p t) s = .next (movedOn s p t r (x.setV (fVd w) v)) ∧
        ∀ j < n, lane wid v j = masked x w wid j
          ((if cm then sfuCompatE k (fTy w) (a j) else sfuNativeE k (fTy w) (a j)) % 2 ^ (8 * wid))) ∧
    (Stands s p t 0x49 r w → k < 3 → clean [fVa w, fVb w] →
      romBad x cm (actFn k) (fTy w) (on (vElems wid n (x.vreg (fVa w)))) = false →
      ∃ v < 2 ^ 8192, exec (.sglu p t) s = .next (movedOn s p t r (x.setV (fVd w) v)) ∧
        ∀ j < n, lane wid v j = masked x w wid j
          ((if cm then sgluCompatE k (fTy w) (a j) (b j) else sgluNativeE k (fTy w) (a j) (b j)) % 2 ^ (8 * wid))) ∧
    (Stands s p t 0x4A r w → cm = false → bitOf r.mpMask k = true → clean [fVa w, fVb w] →
      (∀ j < n, bitOf (x.mreg (fMask w)) j = true →
        mpBad x r.bank k (tabGet {} bank.slots k) (toF32 (f.decode (a j))) (toF32 (f.decode (b j))) = false) →
      ∃ v < 2 ^ 8192, exec (.smpr p t) s = .next (movedOn s p t r (x.setV (fVd w) v)) ∧
        ∀ j < n, lane wid v j = masked x w wid j ((f.encode 0 false
          (ofF32 (mpRun (tabGet {} bank.slots k) (toF32 (f.decode (a j))) (toF32 (f.decode (b j)))))).1 % 2 ^ (8 * wid)))) ∧
  ((∀ fn ty x, fn < 16 → ty < 3 → ((ffmtOf ty).decode x).isNan = true →
    some (sfuNativeE fn ty x) = (ffmtOf ty).nan) ∧
  sfuNativeE 0 0 0x7F800000 = 0x7F800000 ∧ sfuNativeE 0 0 0xFF800000 = 0 ∧
  sfuNativeE 7 0 0 = 0 ∧ sfuNativeE 7 0 0x80000000 = 0x80000000)

/-- The words that put work into a tile's queues complete: MMUL and MMULG, once header, sub-problem descriptors (and extension) read
well and no check of R166 refuses them, add one command behind at most three; with GACC the command takes its buffers by LIVE and
SEL and the run notes the tensor id. DMA adds its descriptor behind at most seven. With the queue full the word waits.
MWAIT, DWAIT and KVWAIT move on exactly when at most COUNT matrix commands, DMA descriptors or KV appends of the tile are
outstanding, and change nothing else; before, they wait. -/
def Obligations.QueueAndWaitWordsComplete : Prop :=
  (∀ (s : State) (p : Fin 8) (t : Fin 16) (r : Run) (w : Nat),
    let x := s.tile p t
    let da := 64 * bitsOf w 14 0
    let ga := 64 * bitsOf w 29 15
    let g := memWords x.am.bytes ga 16
    (∀ c : MCmd, Stands s p t 0x40 r w → bitsOf w 55 52 = 0 → bitsOf w 33 15 = 0 → x.mq.length < 4 →
      x.regBad [] [] (offRegs w) = false → readCmd x w = .ok c → c.refusal (bitOf w 39) (bitOf w 45) da = none →
      exec (.mmul p t) s = .next (movedOn s p t r { x with mq := x.mq ++ [c] })) ∧
    (∀ c0 : MCmd, Stands s p t 0x50 r w → bitsOf w 55 52 = 0 → bitsOf w 33 30 = 0 → x.mq.length < 4 →
      x.regBad [] [] (offRegs w) = false → x.am.readErr ga 64 = none → readCmd x w = .ok c0 → gradBad c0 g = false →
      let n := maskBytes (bitsOf (wd g 0) 30 29) (subM (c0.subs.headD []))
      let ma := bitsOf (wd g 1) 20 0
      let gacc := bitOf (wd g 0) 31
      let id := bitsOf (wd g 0) 7 0
      let b := if gacc then gaccBufs x r g else (none, 0)
      let c : MCmd := { c0 with gext := some g, mask := memRead x.am.bytes ma n, gsrc := b.1, gdst := b.2 }
      x.am.readErr ma n = none → c.refusal (bitOf w 39) (bitOf w 45) da = none →
      exec (.mmulg p t) s = .next (movedOn s p t
        (if gacc then { r with gnamed := setIns r.gnamed id
                               gbufs := tabSet r.gbufs id (bitsOf (wd g 2) 19 0, bitsOf (wd g 3) 19 0) } else r)
        { x with mq := x.mq ++ [c] })) ∧
    (Stands s p t 0x42 r w → bitsOf w 55 52 = 0 → bitsOf w 39 15 = 0 → x.dq.length < 8 →
      x.regBad [] [] ((if bitOf w 51 then [bitsOf w 50 46] else []) ++ (if bitOf w 45 then [bitsOf w 44 40] else [])) = false →
      x.am.readErr da 64 = none →
      let d := memWords x.am.bytes da 16
      let so := if bitOf w 51 then x.sreg (bitsOf w 50 46) else 0
      let dof := if bitOf w 45 then x.sreg (bitsOf w 44 40) else 0
      dmaBad (s.cp r.ctx p).cbW (r.cbMask % 256) d (addr48 d 2 + so) (addr48 d 4 + dof) = false →
      exec (.dma p t) s = .next (movedOn s p t r { x with dq := x.dq ++ [{ job := .desc d so dof }] })) ∧
    (Stands s p t 0x40 r w → bitsOf w 55 52 = 0 → bitsOf w 33 15 = 0 → 4 ≤ x.mq.length → exec (.mmul p t) s = .next s) ∧
    (Stands s p t 0x42 r w → bitsOf w 55 52 = 0 → bitsOf w 39 15 = 0 → 8 ≤ x.dq.length → exec (.dma p t) s = .next s)) ∧
  (∀ (s : State) (p : Fin 8) (t : Fin 16) (r : Run) (w : Nat), bitsOf w 55 3 = 0 →
    let x := s.tile p t
    let count := bitsOf w 2 0
    (Stands s p t 0x41 r w → count < 4 →
      exec (.mwait p t) s = .next (if x.mq.length ≤ count then movedOn s p t r x else s)) ∧
    (Stands s p t 0x43 r w →
      exec (.dwait p t) s = .next (if x.dq.length ≤ count then movedOn s p t r x else s)) ∧
    (Stands s p t 0x45 r w → count < 4 →
      exec (.kvwait p t) s = .next (if x.kvq.length ≤ count then movedOn s p t r x else s)))

/-- A matrix pass runs: MATRIX_PASS_START streams the next pass of the first command with a pass left, once that command is clear of the
earlier ones (R187); a load writes the shadow weights and swaps the two sets (R126); the tile takes the pass's results, the command
counts the pass and gathers its flags. The pass's arithmetic is that of runPass, done as a whole here (DEDUCED, log entry 24); the number of bank conflicts comes as an operand and is counted first
(DESIGN CHOICE, log entry 28). MATRIX_COMMAND_COMPLETE then retires the oldest command when all its passes have streamed, its
status joining the kernel's. -/
def Obligations.MatrixPassesRunAndRetire : Prop :=
  ∀ (s : State) (p : Fin 8) (t : Fin 16) (r : Run) (sp : Spc),
    let x := s.tile p t
    (s.part p).frozen = false → x.run = some r →
    (∀ (conf i f : Nat) (c : MCmd) (y : Tile),
      let s1 := countConflicts s p t conf sp
      nextPass x.mq = some i → x.mq[i]? = some c →
      runPass (s1.tile p t) (s1.cp r.ctx p).cbW (s1.cp r.ctx p).cbA r.cbMask c = .ok (y, f) →
      exec (.matrixPassStart p t conf sp) s = .next (s1.setTile p t (Tile.touch
        { y with mq := y.mq.set i { c with pass := c.pass + 1, flags := flagsOr c.flags f } }
        (s1.part p).count))) ∧
    (∀ (c : MCmd) (rest : List MCmd), x.mq = c :: rest → c.total ≤ c.pass →
      exec (.matrixCommandComplete p t) s = .next (s.setTile p t
        { x with mq := rest, run := some { r with astat := flagsOr r.astat c.flags, progress := (s.part p).count } }))

/-- An integer pair accumulates exactly in each group of 32 and saturates to 32 bits: one group onto an accumulator gives the sum of the
products and the accumulator where it fits, else the nearer bound with ISAT. -/
def Obligations.IntegerGroupSaturates : Prop :=
  ∀ (acc : BitVec 32) (xs ws : List Int),
    let v := acc.toInt + ((List.zip xs ws).map fun e => e.1 * e.2).sum
    (-2 ^ 31 ≤ v → v < 2 ^ 31 → intStep acc.toNat xs ws = ((BitVec.ofInt 32 v).toNat, 0)) ∧
    (2 ^ 31 ≤ v → intStep acc.toNat xs ws = (0x7FFFFFFF, isatFlag)) ∧
    (v < -2 ^ 31 → intStep acc.toNat xs ws = (0x80000000, isatFlag))

/-- The tile DMA queue: DMA_DESCRIPTOR_START makes the first entry that has not started active while fewer than four are, and moves its
bytes as a whole, where no dry regulator holds it back (DEDUCED, log entries 16 and 25; a GSEND's elements move one by one later); DMA_DESCRIPTOR_RETIRE takes the oldest entry that is done out of the queue, once no unit of its partition waits for a refill;
DMA_BANK_STARVATION counts one conflict of the kernel that runs on the tile, whichever background access waited. -/
def Obligations.DmaQueueMovesAndRetires : Prop :=
  ∀ (s : State) (p : Fin 8) (t : Fin 16) (r : Run),
    let x := s.tile p t
    (s.part p).frozen = false → x.run = some r →
    (∀ (i : Nat) (e : DmaEnt) (u : State), x.dq.findIdx? (fun e => !e.active) = some i → x.dq[i]? = some e →
      activeDma x.dq < 4 →
      dmaMove ⟨p, t, r, x⟩ (s.setTile p t { x with dq := x.dq.set i { e with active := true, done := !e.isGsend } }) e.job =
        ⟨u, none⟩ → Unheld s (u.setTile p t (Tile.touch (u.tile p t) (s.part p).count)) →
      exec (.dmaDescriptorStart p t) s = .next (u.setTile p t (Tile.touch (u.tile p t) (s.part p).count))) ∧
    (∀ (e : DmaEnt) (rest : List DmaEnt), x.dq = e :: rest → e.isGsend = false → e.done = true → owes s p [0, 1] = false →
      exec (.dmaDescriptorRetire p t) s = .next (s.setTile p t (Tile.touch { x with dq := rest } (s.part p).count))) ∧
    (∀ sp : Spc,
      exec (.dmaBankStarvation p t sp) s = .next (nodeEventOnce
        (s.setTile p t { x with run := some { r with conflicts := min (r.conflicts + 1) 65535 } }) p r.inst 0x1220
        [t, Spc.code sp]))

/-- A COPY of COUNT 1 between two scratchpads of a tile moves ROW_BYTES bytes: inside the destination range the destination reads as the
source did, outside it every byte reads as before, and the third scratchpad is unchanged. The bytes of the source carry no poison
and no parity error, a destination line that is written in part reads well, and both ranges lie inside their scratchpads. -/
def Obligations.DmaCopyMovesRow : Prop :=
  ∀ (s : State) (p : Fin 8) (t : Fin 16) (r : Run) (d : List Nat) (so dof ss ds : Nat),
    let x := s.tile p t
    let sa := addr48 d 2 + so
    let da := addr48 d 4 + dof
    dOp d = 0 → dSs d = ss → dDs d = ds → 1 ≤ ss → ss ≤ 3 → 1 ≤ ds → ds ≤ 3 → ss ≠ ds → dCount d = 1 → 1 ≤ dRow d →
    sa + dRow d ≤ Spc.size (spaceOf ss) → da + dRow d ≤ Spc.size (spaceOf ds) →
    (x.spad (spaceOf ss)).readErr sa (dRow d) = none → (x.spad (spaceOf ds)).mergeErr da (dRow d) = none →
    (x.spad (spaceOf ds)).bytes.wf = true →
    ∃ u, dmaMove ⟨p, t, r, x⟩ s (.desc d so dof) = ⟨u, none⟩ ∧
      (∀ b, memByte ((u.tile p t).spad (spaceOf ds)).bytes b =
        if da ≤ b ∧ b < da + dRow d then memByte (x.spad (spaceOf ss)).bytes (sa + (b - da))
        else memByte (x.spad (spaceOf ds)).bytes b) ∧
      (∀ q, q ≠ spaceOf ds → (u.tile p t).spad q = x.spad q)

/-- The KV path completes. KVAPP, once its descriptor, sequence descriptor and pages pass every check, writes its rows (at issue: DEDUCED,
log entry 25), records its LEN publication where the descriptor asks for one, and stands in the queue of appends until
KVAPP_COMPLETE takes it out, once no unit of the partition waits for a refill. KVGATHER, checked the same way, becomes an entry of the DMA queue. Each where no dry regulator holds
it back (R611). -/
def Obligations.KvAppendAndGatherComplete : Prop :=
  ∀ (s s1 s2 : State) (p : Fin 8) (t : Fin 16) (r : Run) (w : Nat) (qb : List Byte) (pages : List (Nat × KvPage)),
    let x := s.tile p t
    let a := 64 * bitsOf w 14 0
    let d := memWords x.am.bytes a 16
    let seq := addr48 d 4
    let g := bitsOf (wd d 0) 11 0
    let off := wd d 1 + (if bitOf w 45 then x.sreg (bitsOf w 44 40) else 0)
    let q := bytesWords 16 qb
    let count := bitsOf (wd d 2) 12 0
    (Stands s p t 0x44 r w → bitsOf w 55 46 = 0 → bitsOf w 39 15 = 0 → x.kvq.length < 4 →
      x.regBad [] [] (if bitOf w 45 then [bitsOf w 44 40] else []) = false → x.am.readErr a 64 = none → appReserved d = false →
      kvRead s p r.inst r.ctx r.mapVer seq 64 t = .ok (qb, s1) → seqBad q g = false →
      let pos := off + (if bitOf (wd d 0) 30 then seqLen q else 0)
      let k : KvReq := ⟨d, q, seq, g, pos, count⟩
      let publish := bitOf (wd d 0) 31
      appInvalid r k publish = false → r.pt ≠ none →
      (publish = true → checkRange s1 p r.ctx r.mapVer seq 4 true = none) →
      kvPages s1 p t r q g pos (pos + count) true = .ok (pages, s2) → appendNonfinite x.am k pages = none →
      ∀ u, Mv.each ⟨s2, none⟩ count (fun s j => appendRow ⟨p, t, r, x⟩ s k pages j) = ⟨u, none⟩ →
      let v := movedOn u p t (if publish then { r with pubs := tabSet r.pubs seq ⟨pos + count, g⟩ } else r)
        { u.tile p t with kvq := (u.tile p t).kvq ++ [⟨seq, g, pos, count⟩] }
      Unheld s v → exec (.kvapp p t) s = .next v) ∧
    (∀ (e : KvEnt) (rest : List KvEnt), (s.part p).frozen = false → owes s p [0, 1] = false → x.kvq = e :: rest →
      exec (.kvappComplete p t) s = .next (s.setTile p t (Tile.touch { x with kvq := rest } (s.part p).count))) ∧
    (Stands s p t 0x46 r w → bitsOf w 55 46 = 0 → bitsOf w 39 15 = 0 → x.dq.length < 8 →
      x.regBad [] [] (if bitOf w 45 then [bitsOf w 44 40] else []) = false → x.am.readErr a 64 = none →
      gatherReserved d = false → count ≠ 0 → count ≤ 4096 → off % 64 = 0 →
      kvRead s p r.inst r.ctx r.mapVer seq 64 t = .ok (qb, s1) → seqBad q g = false →
      let stop := max off (min (off + count) (seqLen q))
      let sp := if bitOf (wd d 8) 0 then 2 else 1
      let nsb := (rangeFrom (off / 64) ((stop + 63) / 64)).foldl (fun a l =>
        a + (pageRows off stop l * seqRow q + 4095) / 4096) 0
      leaves sp (bitsOf (wd d 7) 21 0) (4 * (if stop ≤ off then 0 else nsb) + 32) = false →
      leaves sp (bitsOf (wd d 6) 21 0) 0 = false → r.pt ≠ none →
      kvPages s1 p t r q g off stop false = .ok (pages, s2) →
      leaves sp (bitsOf (wd d 6) 21 0) (gatherBytes s2 p t r d q off stop pages) = false →
      let v := movedOn s2 p t r { s2.tile p t with dq := x.dq ++ [{ job := .gather d q off stop }] }
      Unheld s v → exec (.kvgather p t) s = .next v)

/-- The gradient words complete. GCTL QUERY puts into its scalar the buffer address of the tensor id, or 0xFFFF_FFFF where it has none;
GCTL RELEASE notes the id for the kernel's commit; GSEND, once its descriptor, layer descriptor and hyper-parameters pass every
check and no dry regulator holds it back, becomes an entry of the DMA queue. -/
def Obligations.GradientWordsComplete : Prop :=
  ∀ (s s1 s2 : State) (p : Fin 8) (t : Fin 16) (r : Run) (w : Nat) (lb hb : List Byte),
    let x := s.tile p t
    let id := bitsOf w 7 0
    let buf (b : Nat × Nat) (second : Bool) : Nat := if second then b.2 else b.1
    (Stands s p t 0x52 r w → bitsOf w 55 13 = 0 →
      exec (.gctlQuery p t) s = .next (movedOn s p t r (x.setS (bitsOf w 12 8)
        (if id ∈ r.gnamed then buf (tabGet (0, 0) r.gbufs id) (!x.sel.contains id)
         else if id ∈ x.live then buf (tabGet (0, 0) x.gbuf id) (x.sel.contains id)
         else 0xFFFFFFFF)))) ∧
    (Stands s p t 0x52 r w → bitsOf w 14 13 = 1 → bitsOf w 55 15 = 0 →
      exec (.gctlRelease p t) s = .next (movedOn s p t { r with greleased := setIns r.greleased id } x)) ∧
    (let a := 64 * bitsOf w 14 0
     let d := memWords x.am.bytes a 16
     let src := if bitOf (wd d 0) 31 then gQuery x r (bitsOf (wd d 0) 7 0) else bitsOf (wd d 1) 19 0
     let ma := bitsOf (wd d 8) 20 0
     let mn := maskBytes (bitsOf (wd d 0) 30 29) (bitsOf (wd d 3) 31 16)
     let l := bytesWords 16 lb
     Stands s p t 0x51 r w → bitsOf w 55 15 = 0 → x.dq.length < 8 → x.am.readErr a 64 = none → gsendBad d src = false →
      x.am.readErr ma mn = none → kvRead s p r.inst r.ctx r.mapVer (addr48 d 4) 64 t = .ok (lb, s1) →
      lyFault s1 p r.ctx r.mapVer l = false → bitsOf (wd d 9) 11 0 < lyChunks l →
      wd d 6 + bitsOf (wd d 3) 31 16 ≤ lyRows l → 4 * (wd d 7 + bitsOf (wd d 3) 15 0) ≤ lyRowBytes l →
      kvRead s1 p r.inst r.ctx r.mapVer (lyHp l) 64 t = .ok (hb, s2) →
      let v := movedOn s2 p t r { s2.tile p t with
        dq := x.dq ++ [{ job := .gsend d l (bytesWords 16 hb) (memRead x.am.bytes ma mn) src 0 }] }
      Unheld s v → exec (.gsend p t) s = .next v)

/-- The SVU phases complete where no dry regulator holds them back (R611). SVU_PHASE1_ELEMENT sends the next trained
element of the oldest active GSEND that has one to its SVU, which runs the layer's program on it and writes two words of the layer state; GSEND_RETIRE takes a GSEND without elements left out of
the queue as every SVU it reached writes its statistics entry; SVU_STREAM_GROUP runs the next group of an SVU of a dispatched SVU kernel
where no element of phase 1 waits for that SVU and every page that it writes may be written, and keeps its writes for the commit point. -/
def Obligations.SvuStepsComplete : Prop :=
  ∀ (s : State) (p : Fin 8) (t : Fin 16), (s.part p).frozen = false →
    let x := s.tile p t
    (∀ (r : Run) (i k src row col q dpa : Nat) (d l hp : List Nat) (mask : List Byte) (e : DmaEnt) (ins : List Nat)
        (s1 s2 s3 : State), x.run = some r →
      x.dq.findIdx? DmaEnt.sends = some i → x.dq[i]? = some e → e.job = .gsend d l hp mask src k →
      gsendElem d mask k = some (row, col) →
      let pa := src + row * bitsOf (wd d 2) 19 0 + 4 * col
      let o := (wd d 6 + row) * lyRowBytes l + 4 * (wd d 7 + col)
      let plane (j : Nat) : Nat := lyAddr l j o
      let P := lyParity l
      let s0 := if q = p then s else charge s p 1 4
      let ln := (wd d 7 + col) % 32
      let acc := tabGet (List.replicate 256 0) e.acc (svuOf q dpa)
      let out := svuRun (tabGet [] (s1.ctx r.ctx).progs (lyProg l false))
        { a := (List.range 8).map (fun j => wd acc (32 * j + ln)), i := memWord x.pm.bytes pa :: ins, h := hp }
      x.pm.readErr pa 4 = none → translate s r.ctx r.mapVer (plane (3 * P)) false = .ok (q, dpa) →
      (q = p ∨ closedFor (s.part p) 1 r.inst = false) →
      svuWords s0 p r.ctx r.mapVer [plane (3 * P), plane (3 * P + 1), plane (3 * P + 2)] = .ok (some ins, s1) →
      writeDva s1 p r.ctx r.mapVer (plane (4 - 3 * P)) (good (natLe 4 (wd out.o 0))) = .ok s2 →
      writeDva s2 p r.ctx r.mapVer (plane (5 - 3 * P)) (good (natLe 4 (wd out.o 1))) = .ok s3 →
      let v := s3.setTile p t { s3.tile p t with
        dq := (s3.tile p t).dq.set i { e with
          job := .gsend d l hp mask src (k + 1)
          acc := tabSet e.acc (svuOf q dpa)
            ((List.range 8).foldl (fun a j => a.set (32 * j + ln) (wd out.a j)) acc) } }
      Unheld s v → exec (.svuPhase1Element p t) s = .next v) ∧
    (∀ (r : Run) (k src : Nat) (d l hp : List Nat) (mask : List Byte) (e : DmaEnt) (rest : List DmaEnt) (u : State),
      x.run = some r → x.dq = e :: rest → e.job = .gsend d l hp mask src k → e.active = true → gsendElem d mask k = none →
      e.acc.foldl (fun (m : Mv) sv => m.bind fun s =>
        match writeHbm { s with free := s.free + 1 } p r.ctx r.mapVer (lyStat l + 64 * (768 * bitsOf (wd d 9) 11 0 + sv.1))
            (good (wordsBytes (statTotals sv.2 ++ [lyStep l]) ++ freeTail s.free)) with
        | .error er => ⟨s, some (.acc er)⟩
        | .ok s1 => ⟨s1, none⟩) ⟨s, none⟩ = ⟨u, none⟩ → owes s p [0, 1] = false →
      let v := u.setTile p t (Tile.touch { u.tile p t with dq := rest } (s.part p).count)
      Unheld s v → exec (.gsendRetire p t) s = .next v) ∧
    (∀ (n : Nat) (i : Inst) (svu : Fin 768) (u : Nat) (ws : List (Nat × List Byte)) (s1 : State),
      s.inst? p n = some i → i.svu = true → i.st = .running → i.ended = false →
      let k := tabGet 0 i.svuDone svu
      let per := svuPerUnit i.svuDesc
      (svuUnits s p i svu)[k / per]? = some u →
      phase1Waits s svu = false → svuGroup s p i (u + k % per * (32 * svuElem i.svuDesc)) = .ok (some ws, s1) →
      groupFault s1 p i ws = none →
      let j : Inst := { i with svuDone := tabSet i.svuDone svu (k + 1), svuOut := i.svuOut ++ ws }
      let v := s1.setInst p n { j with ended := decide (svuTotal s1 p j ≤ svuDoneAll j) }
      Unheld s v → exec (.svuStreamGroup p n svu) s = .next v)

/-- A kernel starts: KERNEL_DISPATCH of a READY node, on a first dispatch once its fields, its ranges, the five leading SLI words of its
image, its codebook slots and its micro-program slots pass, latches arguments and image, takes its references and puts the
kernel on every tile of its mask; a re-run starts from what is latched. The image is the one loaded ahead where every tile of the
mask holds it, else it is read now (DEDUCED, log entry 48).
KERNEL_IMAGE_LOAD_DONE puts the image of a WAITING or READY kernel into the free half of its tiles' instruction memory, and
changes no other part of a tile; SVU_KERNEL_DISPATCH starts an SVU kernel: a re-run from its latched descriptor, a STREAM kernel once its ranges and
its program pass and its hyper-parameters read well, a LAYER kernel once its layer and the totals of its statistics pass. Each where
no dry regulator holds it back (R611). -/
def Obligations.KernelsDispatch : Prop :=
  (∀ (s u : State) (p : Fin 8) (n : Nat) (i j : Inst), Dispatches s p n i u j →
    i.ty = 0 → bitOf (wd i.words 6) 31 = false →
    (j.refs = true → Unheld s (traced (startTiles u p n) p n i) →
      exec (.kernelDispatch p n) s = .next (traced (startTiles u p n) p n i)) ∧
    (∀ (args image : List Nat) (v0 v : State), j.refs = false → kernelBad j = false →
      namedRange u p j j.imageAddr (8 * j.imageWords) false = .ok →
      ((bitOf (wd j.words 6) 30 = false ∧ args = (List.range 4).map (fun k => wd j.words (10 + k)) ∧ v0 = u) ∨
        (bitOf (wd j.words 6) 30 = true ∧ namedRange u p j (wd64 j.words 10) 16 false = .ok ∧
          ∃ rb, NodeReads u p n j (wd64 j.words 10) 16 rb v0 ∧ args = bytesWords 4 rb)) →
      ((loadedImage v0 p n j = some image ∧ v = v0) ∨
        (loadedImage v0 p n j = none ∧
          ∃ ib, NodeReads v0 p n j j.imageAddr (8 * j.imageWords) ib v ∧ image = words64 j.imageWords ib)) →
      let args' := if bitOf (wd j.words 6) 29 then args.take 3 ++ [j.iter % 2 ^ 32] else args
      (image.take 5).all (fun w => opcodeOf w == 3) = true → cbMissing (v.cp j.ctx p) j.cbMask = none →
      sfuMissing (v.cp j.ctx p) j.bank j.mpMask = none →
      let y := traced (startTiles (takeRefs (v.modInst p n fun k => { k with image, args := args' }) p n j) p n) p n i
      Unheld s y → exec (.kernelDispatch p n) s = .next y)) ∧
  (∀ (s : State) (p : Fin 8) (n : Nat) (i : Inst),
    (∀ (m : List PByte) (v : State), s.inst? p n = some i → i.ty = 0 → i.svu = false → i.refs = false →
      (i.st = .waiting ∨ i.st = .ready) → kernelBad i = false → (s.part p).frozen = false →
      closedHbm s p i.ctx (s.ctx i.ctx).mapVer i.imageAddr (8 * i.imageWords) n = none →
      readHbm s p i.ctx (s.ctx i.ctx).mapVer i.imageAddr (8 * i.imageWords) 18 = .ok (m, v) → m.any (·.2) = false →
      let y := i.tiles.foldl (fun s t => s.setTile p t
        { (s.tile p t).setWords (1 - (s.tile p t).half) (words64 i.imageWords (m.map (·.1))) with loaded := some n }) v
      Unheld s y → exec (.kernelImageLoadDone p n) s = .next y) ∧
    (∀ (u : State) (j : Inst), Dispatches s p n i u j → i.svu = true →
      (j.svuDesc ≠ [] → Unheld s (traced (svuStart u p n j.svuDesc j.svuLayer j.svuHp j.svuTot) p n i) →
        exec (.svuKernelDispatch p n) s =
          .next (traced (svuStart u p n j.svuDesc j.svuLayer j.svuHp j.svuTot) p n i)) ∧
      (∀ (db : List Byte) (v : State), j.svuDesc = [] → bitsOf (wd j.words 6) 28 0 = 0 → wd j.words 7 = 0 →
        bitsOf (wd j.words 14) 31 13 = 0 → wd j.words 15 = 0 →
        namedRange u p j j.imageAddr 64 false = .ok → NodeReads u p n j j.imageAddr 64 db v →
        let d := bytesWords 16 db
        svuDescBad d = false →
        (∀ (m : List PByte) (w : State), svuIsLayer d = false → (∀ r ∈ streamRanges v p j d, r = .ok) → streamBad v p j d = false →
          closedHbm v p j.ctx j.mapVer (addr48 d 2) 64 n = none →
          readHbm v p j.ctx j.mapVer (addr48 d 2) 64 16 = .ok (m, w) → m.any (·.2) = false →
          let y := traced (svuStart w p n d [] (bytesWords 16 (m.map (·.1))) []) p n i
          Unheld s y → exec (.svuKernelDispatch p n) s = .next y) ∧
        (∀ (m h : List PByte) (w w2 w3 : State) (tot : List Nat), svuIsLayer d = true →
          closedHbm v p j.ctx j.mapVer (addr48 d 4) 64 n = none →
          readHbm v p j.ctx j.mapVer (addr48 d 4) 64 16 = .ok (m, w) → m.any (·.2) = false →
          let l := bytesWords 16 (m.map (·.1))
          lyFault w p j.ctx j.mapVer l = false →
          (bitOf (wd d 0) 29 = true → checkRange w p j.ctx j.mapVer (addr48 d 4) 8 true = none) →
          closedHbm w p j.ctx j.mapVer (lyStat l) (49152 * lyChunks l) n = none →
          closedHbm w p j.ctx j.mapVer (lyHp l) 64 n = none →
          layerTotals w p j l = .ok (some tot, w2) → readHbm w2 p j.ctx j.mapVer (lyHp l) 64 16 = .ok (h, w3) →
          h.any (·.2) = false →
          let y := traced (svuStart w3 p n d l (bytesWords 16 (h.map (·.1))) tot) p n i
          Unheld s y → exec (.svuKernelDispatch p n) s = .next y))))

/-- At every dispatch of a kernel, a re-run included, each tile of its mask holds zero in all vector, mask and scalar registers, M0 reads as
all ones, no line of its scratchpads is marked as written by the kernel, its queues are empty, and it stands at word 0 of the
kernel's image whose five leading words carry the arguments and the tile number, and which stands from word 0 on in the half of its
instruction memory in use (R505). Where another context ran there before, its scratchpads are zero. -/
def Obligations.DispatchedTileIsClean : Prop :=
  ∀ (x : Tile) (n t now : Nat) (i : Inst) (cb mp : Nat),
    let y := loadTile x n t now i cb mp
    (∀ k, y.vreg k = 0) ∧ (∀ k, y.sreg k = 0) ∧ (∀ k, 1 ≤ k → y.mreg k = 0) ∧ y.mreg 0 = 2 ^ 1024 - 1 ∧
    (∀ sp, (y.spad sp).kw = []) ∧ y.mq = [] ∧ y.dq = [] ∧ y.kvq = [] ∧
    (∃ r, y.run = some r ∧ r.inst = n ∧ r.pc = 0 ∧ r.loops = [] ∧ r.ended = false ∧ r.image.length = i.image.length ∧
      (∀ k, k < 5 → k < i.image.length → bitsOf (wd r.image k) 31 0 = if k < 4 then wd i.args k % 2 ^ 32 else t % 2 ^ 32) ∧
      (∀ k, 5 ≤ k → k < i.image.length → wd r.image k = wd i.image k) ∧
      (y.words y.half).take i.image.length = r.image) ∧
    (x.lastCtx ≠ some i.ctx → ∀ sp, (y.spad sp).bytes = [] ∧ (y.spad sp).poison = []) ∧
    (x.lastCtx = some i.ctx → ∀ sp, (y.spad sp).bytes = (x.spad sp).bytes)

/-- COPY nodes move their bytes at dispatch (DEDUCED, log entry 25): once the checks pass, the source reads well and the destination takes
the bytes, COPY_LINEAR, COPY_NVWS_STREAM, COPY_FABRIC and COPY_RDMA, each for its kinds of source and destination, are done with the
dispatch, where no dry regulator holds it back (R611). KV_EXPORT sends the records of its groups and pages in the same way where they fit into LENGTH; KV_IMPORT, once every record
passes, has written the pages and leaves the publication of LEN to its commit. -/
def Obligations.CopiesMoveTheirBytes : Prop :=
  ∀ (s u : State) (p : Fin 8) (n : Nat) (i j : Inst) (src : HostRd), Dispatches s p n i u j → i.ty = 1 → CopyPasses u p n j →
    (∀ (bs : List Byte) (v u1 : State) (c : Instr), i.cMode = 0 → CopyReads u p n j src bs v → CopyArrives v p n j bs u1 →
      (c = .copyLinear p n src ∧ i.srcKind ≠ 2 ∧ i.dstKind ≠ 3 ∨ c = .copyNvwsStream p n src ∧ i.srcKind = 2 ∨
        c = .copyFabric p n src ∧ i.srcKind ≠ 2 ∧ i.dstKind = 3 ∧ i.overFabric = true ∨
        c = .copyRdma p n src ∧ i.srcKind ≠ 2 ∧ i.dstKind = 3 ∧ i.overFabric = false) →
      Unheld s (traced u1 p n i) → exec c s = .next (traced u1 p n i)) ∧
    (∀ (qb bs : List Byte) (s1 s2 u1 : State), i.cMode = 1 → kvRead u p n j.ctx j.mapVer j.src 64 0 = .ok (qb, s1) →
      seqBad (bytesWords 16 qb) (bitsOf (wd j.words 6) 11 0 + bitsOf (wd j.words 15) 11 0 - 1) = false →
      exportAll s1 p n j (bytesWords 16 qb) = .ok s2 bs → bs.length ≤ j.length → CopyArrives s2 p n j bs u1 →
      Unheld s (traced u1 p n i) → exec (.kvExport p n) s = .next (traced u1 p n i)) ∧
    (∀ (bs qb rest : List Byte) (v s1 s2 : State) (top : Nat), i.cMode = 2 → CopyReads u p n j src bs v →
      kvRead v p n j.ctx j.mapVer j.dst 64 0 = .ok (qb, s1) → seqBad (bytesWords 16 qb) 0 = false →
      importAll s1 p n j (bytesWords 16 qb) (bs.length / 64 + 1) bs 0 = (.ok s2 rest, top) →
      let y := traced (s2.modInst p n fun k =>
        { k with ended := true, writes := if bs = [] then [] else [⟨j.ctx, j.mapVer, j.dst, 4, top⟩] }) p n i
      Unheld s y → exec (.kvImport p n src) s = .next y)

/-- WAIT, COND and their timeout. WAIT_FENCE dispatches the node with its grant latched, at its first dispatch, and releases it at once
where the fence word suffices. WAIT_MEMORY_POLL and COND_POLL read the condition word, at the dispatch and again when the interval has passed: a WAIT
ends where the condition holds, else it asks again after 1 µs; a COND takes its choice, or asks again where its word says "not
yet". WAIT_TIMEOUT fails a node whose TIMEOUT has passed, with event 0x3283.
A condition compares the masked word with its reference: OP 0 equal, 1 not equal, 2 at or above, 3 below, unsigned. -/
def Obligations.WaitsAndConditionsPoll : Prop :=
  (∀ (s : State) (p : Fin 8) (n : Nat) (i : Inst),
    (∀ (u : State) (j : Inst), Dispatches s p n i u j → i.ty = 2 → i.kind = false → (j.rerun = false → waitFenceBad u p j = false) →
      let cf := waitFenceOf j
      let v := if j.rerun then u else u.modInst p n fun k => { k with grant := some (cf.1, (u.ctx cf.1).epoch) }
      exec (.waitFence p n) s = .next (traced (v.modInst p n (releaseWait cf.1 cf.2 (fenceWord v cf.1 cf.2))) p n i)) ∧
    (∀ (rd : HostRd) (w : Nat) (v : State), s.inst? p n = some i → pollDue s p i = true → CondReads s p n i rd w v →
      (i.ty = 2 → i.kind = true → exec (.waitMemoryPoll p n rd) s =
        .next (if condHolds i w then endExec v p n else pollAgain v p n 1)) ∧
      (i.ty = 4 → exec (.condPoll p n rd) s = .next (if i.kind && Nat.land w i.cMask = i.cIdle then pollAgain v p n i.pollUs
        else v.modInst p n fun k => { k with choice := some (condHolds i w), ended := true }))) ∧
    (∀ (u v : State) (j : Inst) (rd : HostRd) (w : Nat), Dispatches s p n i u j → pollDue s p i = false →
      (∀ r ∈ condRange u p j, r = .ok) → CondReads u p n j rd w v →
      (i.ty = 2 → i.kind = true → condBad j false true = false → exec (.waitMemoryPoll p n rd) s =
        .next (traced (if condHolds j w then endExec v p n else pollAgain v p n 1) p n i)) ∧
      (i.ty = 4 → condBad j j.kind true = false → exec (.condPoll p n rd) s =
        .next (traced (if j.kind && Nat.land w j.cMask = j.cIdle then pollAgain v p n j.pollUs
          else v.modInst p n fun k => { k with choice := some (condHolds j w), ended := true }) p n i))) ∧
    (∀ at_ lim, s.inst? p n = some i → i.firstAt = some at_ → i.timeout = some lim → (i.ty = 2 ∨ i.ty = 4) → i.st = .running →
      i.ended = false → (s.part p).frozen = false → at_ + lim ≤ (s.part p).count →
      exec (.waitTimeout p n) s = .next (failNode s p n 0x3283 i.data))) ∧
  (∀ (i : Inst) (w : Nat), condHolds i w = true ↔
    (bitsOf (wd i.words 6) 29 28 = 0 ∧ w &&& i.cMask = i.cRef) ∨ (bitsOf (wd i.words 6) 29 28 = 1 ∧ w &&& i.cMask ≠ i.cRef) ∨
    (bitsOf (wd i.words 6) 29 28 = 2 ∧ i.cRef ≤ w &&& i.cMask) ∨ (bitsOf (wd i.words 6) 29 28 = 3 ∧ w &&& i.cMask < i.cRef))

/-- CALL makes the instances of its stored subgraph; a CALL or LOOP that runs again goes on with the instances that it had (DEDUCED, log entry
88). LOOP_ITERATION_START starts the next iteration of a LOOP once the instances of the one
before are gone, by count or while the condition holds, and ends the LOOP when COUNT iterations have started or the condition
fails.
SIGNAL, EPOCH, EVENT and JOIN end their execution at dispatch, their work being their commit's: SIGNAL latches the epoch of another
context's grant at its first dispatch, and asks for the translations of the host memory that it is to write, EPOCH needs its generation LOADED and undamaged here.
SEND stages its source bytes, from device memory or from a scratchpad of the partition, and SEND_ARM those of an arm, which needs no
route; both leave the release to their commit and go where no dry regulator holds them back (R611). -/
def Obligations.ShortNodesRun : Prop :=
  (∀ (s : State) (p : Fin 8) (n : Nat) (i : Inst) (ns : List (List Nat)),
    (∀ (u : State) (j : Inst), Dispatches s p n i u j → i.ty = 6 → j.rerun = true →
      exec (.call p n) s = .next (traced (if hasNodes u p n then u else endExec u p n) p n i)) ∧
    (∀ (u : State) (j : Inst), Dispatches s p n i u j → i.ty = 6 → j.rerun = false → bitsOf (wd j.words 6) 31 16 = 0 →
      (j.words.drop 7).all (· == 0) = true → subgraphOf u j.ctx p (bitsOf (wd j.words 6) 15 0) = some ns →
      exec (.call p n) s = .next (traced (instantiate u p j.ctx (bitsOf (wd j.words 6) 15 0) ns (some n) j.iter) p n i)) ∧
    (∀ rd : HostRd, s.inst? p n = some i → i.ty = 5 → pollDue s p i = true → i.choice = none →
      hasNodes s p n = false →
      let seg := bitsOf (wd i.words 6) 15 0
      let go (v : State) : State := instantiate (v.modInst p n fun k => { k with started := k.started + 1 }) p i.ctx seg ns
        (some n) i.started
      let stop (v : State) : State := v.modInst p n fun k => { k with ended := true, choice := some true }
      (wd i.words 7 ≤ i.started → exec (.loopIterationStart p n rd) s = .next (stop s)) ∧
      (i.started < wd i.words 7 → i.kind = false → subgraphOf s i.ctx p seg = some ns →
        exec (.loopIterationStart p n rd) s = .next (go s)) ∧
      (∀ (w : Nat) (v : State), i.started < wd i.words 7 → i.kind = true → CondReads s p n i rd w v →
        subgraphOf v i.ctx p seg = some ns →
        exec (.loopIterationStart p n rd) s = .next (if condHolds i w then go v else stop v))) ∧
    (∀ (rd : HostRd) (u : State) (j : Inst), Dispatches s p n i u j → i.ty = 5 → pollDue s p i = false → j.rerun = true →
      (j.choice ≠ none → exec (.loopIterationStart p n rd) s = .next (traced (endExec u p n) p n i)) ∧
      (j.choice = none → hasNodes u p n = true → exec (.loopIterationStart p n rd) s = .next (traced u p n i))) ∧
    (∀ (rd : HostRd) (u : State) (j : Inst), Dispatches s p n i u j → i.ty = 5 → pollDue s p i = false →
      (j.rerun = true → j.choice = none ∧ hasNodes u p n = false) → loopBad j = false →
      j.kind = false → j.started < wd j.words 7 → subgraphOf u j.ctx p (bitsOf (wd j.words 6) 15 0) = some ns →
      exec (.loopIterationStart p n rd) s = .next (traced (instantiate (u.modInst p n fun k =>
        { k with started := k.started + 1 }) p j.ctx (bitsOf (wd j.words 6) 15 0) ns (some n) j.started) p n i))) ∧
  (∀ (s u : State) (p : Fin 8) (n : Nat) (i j : Inst), Dispatches s p n i u j →
    (i.ty = 3 → (j.rerun = false → signalBad u p j = false) → (j.sTarget = 1 → routeRefused u p j.destModule = false) →
      (j.sTarget = 3 → namedRange u p j (wd64 j.words 8) j.sBytes true = .ok) →
      let c := bitsOf (wd j.words 6) 21 16
      let ps := if j.sTarget = 2 then missingPages u (u.ctx j.ctx).owner (wd64 j.words 8) j.sBytes else []
      exec (.signal p n) s = .next (traced ((askPages u (u.ctx j.ctx).owner ps).modInst p n fun k => { k with
        ended := ps == [], xlWait := ps
        grant := if j.rerun then j.grant
          else if j.sTarget = 0 ∧ c ≠ 0 ∧ c ≠ j.ctx then some (c, (u.ctx c).epoch) else none }) p n i)) ∧
    (∀ (B : Binding) (w : WGen), i.ty = 8 → bitsOf (wd j.words 6) 31 16 = 0 → (j.words.drop 8).all (· == 0) = true →
      tabFind (u.ctx j.ctx).bindings (bitsOf (wd j.words 6) 15 0) = some B → tabFind B.gens (wd j.words 7) = some w →
      w.st = .loaded → (p : Nat) ∉ w.damagedOn →
      exec (.epoch p n) s = .next (traced (endExec u p n) p n i)) ∧
    (i.ty = 9 → bitsOf (wd j.words 6) 31 11 = 0 → (j.words.drop 7).all (· == 0) = true →
      exec (.event p n) s = .next (traced (endExec u p n) p n i)) ∧
    (i.ty = 10 → joinBad j = false → exec (.join p n) s = .next (traced (endExec u p n) p n i))) ∧
  (∀ (s u : State) (p : Fin 8) (n : Nat) (i j : Inst) (c : Instr), Dispatches s p n i u j →
    (c = .send p n ∧ i.ty = 7 ∧ i.isArm s = false ∨ c = .sendArm p n ∧ i.isArm s = true) →
    j.staged = none → sendBad u j = false →
    (j.isArm u = false → routeRefused u p j.destModule = false ∧
      egressClosed u p n j.destModule (bitsOf (wd j.words 7) 18 13) (bitsOf (wd j.words 6) 21 20) (wd64 j.words 10 % 2 ^ 48)
        j.length = none) →
    let a := wd64 j.words 8
    (∀ (bs : List Byte) (v : State), sdSpace j = 0 → namedRange u p j a j.length false = .ok →
      NodeReads u p n j a j.length bs v → Unheld s (traced (stage v p n bs) p n i) →
      exec c s = .next (traced (stage v p n bs) p n i)) ∧
    (let d := (u.tile p (bitsOf (wd j.words 6) 25 22)).spad (spcOf (sdSpace j))
     sdSpace j ≠ 0 → d.readErr a j.length = none → Unheld s (traced (stage u p n (memRead d.bytes a j.length)) p n i) →
      exec c s = .next (traced (stage u p n (memRead d.bytes a j.length)) p n i)))

/-- NODE_COMMIT commits a running node whose execution has ended, on a partition that is not frozen, where no unit of its transfers waits
and no dry regulator holds its own back (R611): a WAIT released with error is
abandoned with FENCE_ERROR; an EPOCH needs its generation LOADED and waits while a node holds the old one; a node with CREC 1 needs a
free entry of its ring, which the consumer count that is read bounds.
COMPLETION_RECORD_WRITE writes record k of the ring, the earliest of its partition and context, at BASE + 32 × (k mod 2^SIZE_LOG2) with
PHASE (k / 2^SIZE_LOG2 + 1) mod 2, where no save holds the partition, fewer than 2^SIZE_LOG2 records are unread and no page of the ring or the count lacks its translation; the ring then stands at k + 1, and a node whose
commit waited with the record ends it. -/
def Obligations.NodesCommitAndRecord : Prop :=
  (∀ (s : State) (p : Fin 8) (n : Nat) (i : Inst) (cons : HostRd), s.inst? p n = some i → i.st = .running → instEnded i = true →
    (s.part p).frozen = false → instOwes s p i = false →
    (i.ty = 2 → i.status = .fenceError → Unheld s (resolveNode s p n .abandoned .fenceError) →
      exec (.nodeCommit p n cons) s = .next (resolveNode s p n .abandoned .fenceError)) ∧
    (let v := failNode s p n 0x32B4 [i.ctx, bitsOf (wd i.words 6) 15 0, wd i.words 7, 0]
     i.ty = 8 → epochLoaded s p i = false → Unheld s v → exec (.nodeCommit p n cons) s = .next v) ∧
    (¬ (i.ty = 2 ∧ i.status = .fenceError) → (i.ty = 8 → epochLoaded s p i = true ∧ epochWaits s p n i = false) →
      (i.crec = false ∨ (s.cp i.ctx p).broken = true ∨ (s.cp i.ctx p).ring = none ∨
        ∃ r bs, (s.cp i.ctx p).ring = some r ∧ cons = .data bs ∧ missingPages s (s.ctx i.ctx).owner r.cons 4 = [] ∧
          (r.k + 2 ^ 32 - leNat (bs.take 4) % 2 ^ 32) % 2 ^ 32 + claimed s p i.ctx n < 2 ^ r.sizeLog2) →
      Unheld s (commitNode s p n) → exec (.nodeCommit p n cons) s = .next (commitNode s p n))) ∧
  (∀ (s : State) (p : Fin 8) (c : Fin 64) (bs : List Byte) (n w : Nat) (ws : List Nat) (rest : List (Nat × Option (List Nat)))
    (r : Ring), (s.cp c p).recs = (n, some (w :: ws)) :: rest → (s.cp c p).ring = some r → (s.cp c p).broken = false → (s.part p).frozen = false →
    (r.k + 2 ^ 32 - leNat (bs.take 4) % 2 ^ 32) % 2 ^ 32 < 2 ^ r.sizeLog2 →
    missingPages s (s.ctx c).owner r.cons 4 = [] → missingPages s (s.ctx c).owner (r.base + 32 * (r.k % 2 ^ r.sizeLog2)) 32 = [] →
    let size := 2 ^ r.sizeLog2
    let rec_ := wordsBytes ((w % 2 ^ 31 + 2 ^ 31 * ((r.k / size + 1) % 2)) :: ws)
    let u := s.setCp c p { s.cp c p with recs := rest, ring := some { r with k := r.k + 1 } }
    let t : State := { u with hostOut := s.hostOut ++
      [{ addr := r.base + 32 * (r.k % size), bytes := rec_, relaxed := false, ctx := c, epoch := (s.ctx c).epoch }] }
    exec (.completionRecordWrite p c (.data bs)) s =
      .next (if (s.inst? p n).any (·.held) then commitEnd t p n else t))

/-- On a partition that no save holds, NODE_BUDGET kills a KERNEL, COPY, SEND or EPOCH that has not committed BUDGET after its dispatch, with event 0x3281; NODE_IO kills a COPY
whose outside read failed, with 0x3282, and lets a condition be asked again; SEND_ACK_TIMEOUT ends a commit's step 3 after 2 ms with
0x2285; FABRIC_COPY_ACK_TIMEOUT fails a fabric COPY after 2 ms.
DEADLOCK_CHECK remembers the cycles of blocked contexts that it finds; a cycle that the check before saw too loses its youngest WAIT,
which fails with event 0x3284; with no cycle seen twice nothing else changes. -/
def Obligations.TimeoutsErrorsAndDeadlocks : Prop :=
  (∀ (s : State) (p : Fin 8) (n : Nat) (i : Inst), s.inst? p n = some i → (s.part p).frozen = false →
    (scheduled i.ty = true → i.st = .running → i.dispAt + i.budget ≤ (s.part p).count →
      exec (.nodeBudget p n) s = .next (killNode s p n 0x3281 i.data)) ∧
    (i.st = .running → readsOutside i = true →
      exec (.nodeIo p n) s = .next (if i.ty = 1 then killNode s p n 0x3282 i.data else condIo s p n i)) ∧
    (i.st = .committing → i.held = false → i.step3 = true → i.sentAt + 50000 ≤ (s.part p).count → i.arm = none →
      exec (.sendAckTimeout p n) s = .next (commitRest ((nodeEvent (dropTxns s p n) p n 0x2285 i.data).modInst p n
        fun j => { j with acks := [], arm := none, ackBad := true }) p n)) ∧
    (i.ty = 1 → i.st = .running → i.acks ≠ [] → i.sentAt + 50000 ≤ (s.part p).count →
      exec (.fabricCopyAckTimeout p n) s = .next (copyFail ((dropTxns s p n).modInst p n fun j => { j with acks := [] }) p n 0))) ∧
  (∀ s : State,
    ((∀ c ∈ findCycles s, c ∉ s.cycles) → exec .deadlockCheck s = .next { s with cycles := findCycles s }) ∧
    (∀ (c : List Nat) (p n : Nat) (i : Inst), findCycles s = [c] → c ∈ s.cycles → youngest s c = some (p, n) →
      s.inst? p n = some i → exec .deadlockCheck s = .next { failNode s p n 0x3284 i.data with cycles := [c] }))

/-- SLOT_BOUNDARY, once the running slot has had its time, no save holds the partition and its compute part is not in reset, starts the next slot of the table, or after
the last one a new frame, with the next table where one waits; the grace window set last takes effect with the boundary, and names the
running nodes that the schedule holds and the new slot does not allow. Nothing but the partition's schedule changes.
GRACE_EXPIRY, the grace window after a boundary, kills the nodes that the window names and that have run on since, in the order of
their instances, and is then done. -/
def Obligations.ScheduleAndGrace : Prop :=
  (∀ (s : State) (p : Fin 8) (l : List Slot), (s.part p).sched = some l →
    let P := s.part p
    let e := P.frameAt + slotEnd l P.slot
    let held (Q : Part) : List Nat :=
      (P.insts.filter fun x => scheduled x.2.ty && x.2.st == .running && !slotAllows Q x.2.ctx).map (·.1)
    let at_ (Q : Part) : State := s.setPart p { Q with
      graceUs := P.graceNext.getD P.graceUs, graceNext := none
      graces := if held Q = [] then P.graces
        else P.graces ++ [{ start := e, ends := e + 25 * P.graceNext.getD P.graceUs, nodes := held Q }] }
    P.frozen = false → P.computeHeld = false → e ≤ P.count →
    (P.slot + 1 < l.length → exec (.slotBoundary p) s = .next (at_ { P with slot := P.slot + 1 })) ∧
    (l.length ≤ P.slot + 1 → P.schedNext = none → exec (.slotBoundary p) s =
      .next (at_ { P with slot := 0, frames := P.frames + 1, frameAt := e })) ∧
    (∀ a m, l.length ≤ P.slot + 1 → P.schedNext = some (a :: m) → exec (.slotBoundary p) s =
      .next (at_ { P with sched := some (a :: m), schedNext := none, slot := 0, frames := 1, frameAt := e })) ∧
    (l.length ≤ P.slot + 1 → P.schedNext = some [] → exec (.slotBoundary p) s =
      .next (at_ { P with sched := none, schedNext := none, slot := 0, frames := 0, frameAt := e }))) ∧
  (∀ (s : State) (p : Fin 8), (s.part p).frozen = false →
    let P := s.part p
    let due (g : Grace) : Bool := g.ends ≤ P.count
    let victims := (P.graces.filter due).flatMap fun g => g.nodes.filter fun n =>
      match tabFind P.insts n with
      | some i => i.st == .running && i.dispAt ≤ g.start
      | none => false
    exec (.graceExpiry p) s =
      .next (victims.foldl (fun u n => preempt u p n) (s.setPart p { P with graces := P.graces.filter fun g => !due g })))

/-- REGULATOR_REFILL, 1 µs of the die counter after the last, and not while the compute part is in reset, adds RATE × base × 1 µs ÷ 256 tokens to each of the eleven balances, exactly, up
to BURST times that amount (in 1/256 byte: 6,250 B for resources 0 and 1, 1,562.5 B for 2 to 7, 500 B for 8, 390.625 B for 9, 7,812.5 B for
10); a RATE that is not 0 and a BURST that wait since the last command boundary take effect with it; a refill that found requests waiting
is counted in THROTTLED, which saturates. The units of 256 bytes that wait then proceed while the balance is above 0, and are
subtracted from it. No other part of the machine changes. -/
def Obligations.RefillAddsTokensUpToBurst : Prop :=
  ∀ (s : State) (p : Fin 8), (s.part p).computeHeld = false → (s.part p).refillAt + 25 ≤ (s.part p).count →
    ∃ u, exec (.regulatorRefill p) s = .next (s.setPart p { s.part p with regs := u, refillAt := (s.part p).refillAt + 25 }) ∧
      (∀ k, 11 ≤ k → tabFind u k = tabFind (s.part p).regs k) ∧
      ∀ k, k < 11 → ∃ r, tabFind u k = some r ∧
        let o := (s.part p).reg k
        let tokens : Int := r.rate * (if k ≤ 1 then 1600000 else if k ≤ 7 then 400000 else if k = 8 then 128000 else if k = 9 then 100000
          else 2000000 : Nat)
        let b := min (o.balance + tokens) (r.burst * tokens)
        let n := if b ≤ 0 then 0 else min o.owed (256 * ((b + 65535) / 65536).toNat)
        r.balance = b - 256 * (n : Int) ∧ r.owed = o.owed - n ∧
        (o.armed = none → r.rate = o.rate ∧ r.burst = o.burst) ∧
        (∀ rate burst, o.armed = some (rate, burst) → rate ≠ 0 → r.rate = rate ∧ r.burst = burst ∧ r.armed = none) ∧
        r.throttled = (if o.waited then min (o.throttled + 1) (2 ^ 32 - 1) else o.throttled) ∧
        (r.waited = true ↔ r.owed ≠ 0)

/-- The mailbox, where BAR0 shows its registers. Writing 1 to GO of a live function sets GO. The MCP takes the request of the function next in turn: GO clears, the request
is outstanding with its sequence number, and one that passes checks 1 to 6 waits for its turn, any other is refused; with sixteen outstanding it
answers MBOX_FULL, uncounted, and a number in use answers SEQ_IN_USE; a refusal of a simple message goes behind the replies to the simple
requests taken before it.
The response buffer. Writing 1 to RSP_VALID of a live function clears it. While it is 0 and the module has not stopped, the oldest
reply that no outstanding earlier one holds back goes to the buffer, and with no such reply the oldest event: RSP_VALID is set, RSP_SEQ
names it, the host is told where IRQ_EN is set, and the request of the reply is outstanding no more. IDENTITY_QUERY answers with the module's identity. -/
def Obligations.MailboxServes : Prop :=
  (∀ (s : State) (k : Fin 9),
    (s.fnLive k = true → s.barUp = true → s.boot.stage ≠ 7 → exec (.cmiReqCtrlGo k) s = .next (s.setFn k { s.fn k with go := true })) ∧
    (s.mcpReady = true → s.stopped = false → nextFn s = some (k : Nat) →
      let f := s.fn k
      let b := copiedBuf s k
      let h := (reqOf b.1).1
      let r : Req := { (reqOf b.1).2 with no := f.reqNo }
      let fresh := ∀ x ∈ f.outst, x.2 ≠ r.seq
      let u : State := { b.2.setFn k { f with
        go := false, rewritten := [], reqNo := f.reqNo + 1, outst := f.outst ++ [(r.no, r.seq)] } with rrLast := k }
      let refused (v : State) (st d : Nat) : State := v.setFn k { v.fn k with replies := f.replies ++
        [{ seq := r.seq, opcode := r.opcode, ctx := r.ctx, status := st, detail := d, payload := [], req := r.no
           after := if longMsg r.opcode then []
             else (s.taken.filter fun x => x.1 == (k : Nat) && !longMsg x.2.opcode).map (·.2.no) ++ repliesAhead s k }] }
      (f.outst.length < 16 → fresh → headerChecks s k h r = none →
        exec (.mcpTakeRequest k) s = .next { u with taken := s.taken ++ [((k : Nat), r)] }) ∧
      (∀ st d, f.outst.length < 16 → fresh → headerChecks s k h r = some (st, d) →
        exec (.mcpTakeRequest k) s = .next (refused u st d)) ∧
      (f.outst.length < 16 → ¬ fresh → exec (.mcpTakeRequest k) s = .next (refused u 0x19 0)) ∧
      (16 ≤ f.outst.length → exec (.mcpTakeRequest k) s =
        .next (refused { b.2.setFn k { f with go := false, rewritten := [], reqNo := f.reqNo + 1 } with rrLast := k } 0x18 noField)))) ∧
  (∀ (s : State) (k : Fin 9),
    (s.fnLive k = true → s.barUp = true → s.boot.stage ≠ 7 → exec (.cmiRspValidClear k) s = .next (s.setFn k { s.fn k with rspValid := false })) ∧
    (∀ r : Reply, (s.fn k).rspValid = false → s.stopped = false →
      (s.fn k).replies.find? (replyMayGo (s.fn k).outst) = some r →
      let f := s.fn k
      let u := s.setFn k { f with
        replies := f.replies.erase r, outst := f.outst.filter (·.1 != r.req), rspValid := true, rspSeq := r.seq,
        rspBuf := memWrite f.rspBuf 0 (wordsBytes (replyWords r)) }
      exec (.cmiResponseDelivery k) s = .next (if f.irqEn then raiseVector u k f.irqVec else u)) ∧
    (∀ (m : EvMsg) (rest : List EvMsg), (s.fn k).rspValid = false → s.stopped = false →
      (s.fn k).replies.find? (replyMayGo (s.fn k).outst) = none →
      (s.fn k).events = m :: rest →
      let f := s.fn k
      let u := s.setFn k { f with
        events := rest, rspValid := true, rspSeq := 0, rspBuf := memWrite f.rspBuf 0 (wordsBytes (eventWords m)) }
      exec (.cmiResponseDelivery k) s = .next (if f.irqEn then raiseVector u k f.irqVec else u)) ∧
    (∀ (r : Req) (u : State), Asked s k 0x0001 r u → exec (.identityQuery k) s = .next (okReply u k r
      [0x01001100 + k.val, u.fnMask k, u.sec.serial % 2 ^ 32, u.sec.serial / 2 ^ 32 % 2 ^ 32, u.moduleId % 2 ^ 13,
       bunVersion u.sec.running])))

/-- Contexts. CTX_CREATE makes a context of owned partitions in service, with the epoch one higher; CTX_QUERY tells state, partitions and
epoch; CTX_DESTROY begins the teardown with its drain limit; CTX_DRAIN_END clears a draining context once nothing of it is outstanding
or its limit has passed, which fences it; CTX_ZEROING_END zeroes what it held.
Fences of other contexts and page tables. FENCE_GRANT adds a grant over existing fence words to an open context, at most 64;
FENCE_REVOKE ends an equal grant at the grantee's next command boundaries; KV_TABLE_SET puts a new page table in force at the
partition's next command boundary. -/
def Obligations.ContextsGrantsAndTables : Prop :=
  (∀ (s u : State) (k : Fin 9) (c : Fin 64) (r : Req),
    (∀ (n : Nat) (v : State), Asked s k 0x0101 r u → NoBits r [0xFFFFFF00] → maskParts (wd r.payload 0 % 256) ≠ [] →
      (∀ p ∈ maskParts (wd r.payload 0 % 256), u.ownerOf p = k ∧ (u.part p).inService = true) →
      (liveCtxs u).length < 63 → u.dbgLevel ≠ 2 →
      freshId u (fun c => (u.ctx c).st != .free) 1 63 u.ctxs.length = some (n, v) →
      let e := ((v.ctx n).epoch + 1) % 256
      exec (.ctxCreate k) s = .next (reply (v.setCtx n
        { st := .open, epoch := e, owner := k, parts := maskParts (wd r.payload 0 % 256), cmr := List.replicate 32 0 })
        k r.no r.seq r.opcode n 0 0 [n + 256 * e])) ∧
    (Asked s k 0x0103 r u → exec (.ctxQuery k) s = .next (okReply u k r
      [(match (u.ctx r.ctx).st with | .draining => 1 | .zeroing => 2 | _ => 0) +
        256 * (u.ctx r.ctx).parts.foldl (fun a p => a + 2 ^ p) 0 + 65536 * (u.ctx r.ctx).epoch])) ∧
    (Asked s k 0x0102 r u → wd r.payload 0 ≤ 1000000 →
      exec (.ctxDestroy k) s = .next (beginTeardown (longOp u k r [] 0 0) r.ctx (wd r.payload 0) (some u.nextOp))) ∧
    ((s.ctx c).st = .draining → (∀ p ∈ (s.ctx c).parts, (s.part p).reset = none) →
      (commitsDone s c = true → hasTxns s c = false → recordWaits s c = false →
        exec (.ctxDrainEnd c true) s = .next (teardownClear s c false)) ∧
      ((s.ctx c).drainBy ≤ s.hub → exec (.ctxDrainEnd c false) s = .next (teardownClear s c true))) ∧
    ((s.ctx c).st = .zeroing → exec (.ctxZeroingEnd c) s = .next (teardownEnd s c))) ∧
  (∀ (s u : State) (k : Fin 9) (r : Req),
    let g := grantOf r.payload
    (NoBits r [0xFFFFFCC0, 0xE000F000] → 1 ≤ g.count → g.count ≤ 4096 →
      (Asked s k 0x0110 r u → g.first + g.count ≤ 512 * (u.ctx r.ctx).parts.length → g.grantee ≠ 0 →
        (u.ctx g.grantee).st = .open → (u.ctx r.ctx).grants.length < 64 →
        exec (.fenceGrant k) s = .next (okReply (u.setCtx r.ctx
          { u.ctx r.ctx with grants := (u.ctx r.ctx).grants ++ [g] }) k r [])) ∧
      (Asked s k 0x0111 r u → g.first + g.count ≤ 512 * (u.ctx r.ctx).parts.length → g ∈ (u.ctx r.ctx).grants →
        let v := (u.ctx g.grantee).parts.foldl boundaryIfIdle (u.setCtx r.ctx
          { u.ctx r.ctx with grants := revokeIn (u.ctx r.ctx).grants g (u.ctx g.grantee).parts })
        exec (.fenceRevoke k) s = .next (okReply (v.setCtx r.ctx
          { v.ctx r.ctx with grants := (v.ctx r.ctx).grants.filter fun g => g.revoked != some [] }) k r []))) ∧
    (let p := bitsOf (wd r.payload 0) 23 21
     let n := bitsOf (wd r.payload 0) 20 0
     Asked s k 0x0230 r u → PartOk u k r p → NoBits r [0xFF000000, 0xFFFFFFFF, 0, 0xFFFF0000] → 1 ≤ n → n ≤ 1048576 →
      wd64 r.payload 2 % 4096 = 0 →
      exec (.kvTableSet k) s = .next (okReply (boundaryIfIdle (u.setCp r.ctx p
        { u.cp r.ctx p with ptNext := some ⟨wd64 r.payload 2, n⟩ }) p) k r [])))

/-- Device memory. MEM_ALLOC takes free pages of a partition; MEM_MAP maps pages of an allocation at a free, aligned range; MEM_UNMAP
takes a mapped range out; MEM_FREE marks an unmapped allocation, and MEM_FREE_ZERO_DONE, once no node holds it, zeroes and returns
its frames and replies. -/
def Obligations.DeviceMemoryIsManaged : Prop :=
  ∀ (s u : State) (k : Fin 9) (r : Req),
    let w := r.payload
    (∀ (h : Nat) (v : State), let p := bitsOf (wd w 0) 18 16
      let n := bitsOf (wd w 1) 20 0
      let big := bitOf (wd w 0) 8
      let pages := pickPages (u.part p).hbm.used (Config.freeNat u.free) big (bitsOf (wd w 0) 5 4) n
      Asked s k 0x0201 r u → PartOk u k r p → NoBits r [0xFFF8FECF, 0xFFE00000] → 1 ≤ n → n ≤ 1048576 → n ≤ pages.length →
      freshId { u with free := u.free + 1 } (fun h => (tabFind (u.ctx r.ctx).allocs h).isSome) 1 4294967295
        (u.ctx r.ctx).allocs.length = some (h, v) →
      let h1 := { (u.part p).hbm with used := setInsAll (u.part p).hbm.used (pages.flatMap (pageUnits big)) }
      exec (.memAlloc k) s = .next (okReply ((v.setPart p { u.part p with hbm := h1 }).setCtx r.ctx
        { u.ctx r.ctx with allocs := tabSet (u.ctx r.ctx).allocs h { part := p, big, pages } }) k r [h])) ∧
    (∀ b : Alloc, let x := u.ctx r.ctx
      let n := bitsOf (wd w 2) 20 0
      let dva := wd64 w 4 % 2 ^ 48
      let size := if b.big then 2097152 else 65536
      Asked s k 0x0203 r u → NoBits r [0, 0x7FE00000, 0xFFE00000, 0xFFFFFFFF, 0, 0xFFFF0000] →
      tabFind x.allocs (wd w 0) = some b → beingFreed u b = false → 1 ≤ n → dva % size = 0 → dva + n * size ≤ 2 ^ 48 →
      meetsMap x dva (n * size) = false → bitsOf (wd w 1) 20 0 + n ≤ b.pages.length →
      exec (.memMap k) s = .next (okReply (remap u r.ctx fun v l => l ++
        [{ dva, units := ((b.pages.drop (bitsOf (wd w 1) 20 0)).take n).flatMap (pageUnits b.big), big := b.big,
           writable := bitOf (wd w 1) 31, part := b.part, handle := wd w 0, born := v }]) k r [])) ∧
    (let x := u.ctx r.ctx
     let n := 65536 * bitsOf (wd w 0) 20 0
     let dva := wd64 w 2 % 2 ^ 48
     let lives := (liveMaps x).filter fun m => m.handle != 0
     Asked s k 0x0204 r u → NoBits r [0xFFE00000, 0xFFFFFFFF, 0, 0xFFFF0000] → dva % 65536 = 0 → 0 < n → dva + n ≤ 2 ^ 48 →
      (∀ i, i < n / 65536 → ∃ m ∈ lives, m.covers x.mapVer (dva + 65536 * i) = true) →
      (∀ m ∈ lives, m.big = true → overlap dva n m.dva (65536 * m.units.length) = true →
        (m.dva < dva → dva % 2097152 = 0) ∧ (dva + n < m.dva + 65536 * m.units.length → (dva + n) % 2097152 = 0)) →
      exec (.memUnmap k) s = .next (okReply (remap u r.ctx fun v l => l.flatMap (cutMap dva n v)) k r [])) ∧
    (∀ b : Alloc, Asked s k 0x0202 r u → tabFind (u.ctx r.ctx).allocs (wd w 0) = some b → beingFreed u b = false →
      (∀ m ∈ liveMaps (u.ctx r.ctx), m.handle ≠ wd w 0) →
      exec (.memFree k) s = .next ((longOp u k r [b.part] 0 0).setCtx r.ctx { u.ctx r.ctx with
        allocs := tabSet (u.ctx r.ctx).allocs (wd w 0) { b with freeing := some u.nextOp } })) ∧
    (∀ (c : Fin 64) (h o : Nat) (a : Alloc), tabFind (s.ctx c).allocs h = some a → a.freeing = some o → beingFreed s a = true →
      stillHeld s c h = false → (s.part a.part).reset = none →
      let v := zeroUnits s a.part (a.pages.flatMap (pageUnits a.big))
      exec (.memFreeZeroDone c h) s =
        .next (endOp (v.setCtx c { v.ctx c with allocs := tabDel (v.ctx c).allocs h }) o 0 []))

/-- Windows of BAR2 and SVU programs. BAR2_WINDOW_SET maps aligned device memory of the context into a free, aligned range of the
function's BAR2, or takes an entry of the context out; SVU_PROG_LOAD stores a program whose words are good on every partition of
the context and extends its measurement. -/
def Obligations.WindowsAndProgramsLoad : Prop :=
  ∀ (s u : State) (k : Fin 9) (r : Req),
    let w := r.payload
    (let f := u.fn k
     let e := bitsOf (wd w 0) 3 0
     Asked s k 0x0210 r u → NoBits r [0x3FFFFFF0, 0xFFFFFFFF] →
      (bitOf (wd w 0) 30 = true → (∀ x, tabFind f.bar2 e = some x → x.ctx = r.ctx) → wd64 w 2 % 2097152 = 0 →
        wd64 w 4 % 2097152 = 0 → wd64 w 6 % 2097152 = 0 → 0 < wd64 w 6 → wd64 w 2 + wd64 w 6 ≤ bar2Bytes f →
        (∀ x ∈ f.bar2, x.1 ≠ e → overlap (wd64 w 2) (wd64 w 6) x.2.off x.2.bytes = false) → wd64 w 4 + wd64 w 6 ≤ 2 ^ 48 →
        let win : Window := { ctx := r.ctx, dva := wd64 w 4, units := wd64 w 6 / 2097152, writable := bitOf (wd w 0) 31,
                              off := wd64 w 2 }
        exec (.bar2WindowSet k) s = .next (okReply (u.setFn k { f with bar2 := tabSet f.bar2 e win }) k r [])) ∧
      (∀ x, bitOf (wd w 0) 30 = false → tabFind f.bar2 e = some x → x.ctx = r.ctx →
        exec (.bar2WindowSet k) s = .next (okReply (u.setFn k { f with bar2 := tabDel f.bar2 e }) k r []))) ∧
    (∀ (h : Nat) (v : State), let n := bitsOf (wd w 0) 6 0
      Asked s k 0x0220 r u → 1 ≤ n → n ≤ 64 → NoBits r [0xFFFFFF80, 0xFFFFFFFF] →
      (∀ x ∈ (w.drop 2).take n, svuWordBad x = false) → (∀ p ∈ (u.ctx r.ctx).parts, (u.part p).svuWords + n ≤ 2048) →
      freshId u (fun h => (tabFind (u.ctx r.ctx).progs h).isSome) 1 65535 (u.ctx r.ctx).progs.length = some (h, v) →
      exec (.svuProgLoad k) s = .next (okReply (extendCmr ((v.ctx r.ctx).parts.foldl
          (fun s p => s.setPart p { s.part p with svuWords := (s.part p).svuWords + n })
          (v.setCtx r.ctx { v.ctx r.ctx with progs := tabSet (v.ctx r.ctx).progs h ((w.drop 2).take n) })) r.ctx 0x0220
        (wordsBytes w)) k r [h]))

/-- HBM repair in test. HBM_REPAIR QUERY tells what is left; SOFT_PPR, HARD_PPR and SPARE_ROW begin, one at a time, where a resource is
left, else they answer REPAIR_NO_SPARE; HBM_REPAIR_DONE uses it up, and answers what is left with the row reading as zero, or that the
repair failed. -/
def Obligations.RowRepairsRun : Prop :=
  ∀ (s u : State) (k : Fin 9) (r : Req),
    let w := r.payload
    let p := repStack w / 3
    (Asked s k 0x0A03 r u → s.hbmOp = none → NoBits r [0x07E00EFF, 0xFC0C0000] → repStack w < 24 → bitsOf (wd w 1) 25 24 ≠ 3 →
      (u.part p).inTest = true →
      let begun (kind : Nat) : State := if noSpare (u.part p).hbm w then refuseMsg u k r 0x0A10 noField
        else { longOp u k r [p] 0 0 with hbmOp := some ⟨u.nextOp, kind, w⟩ }
      (repMethod w = 0 → bitOf (wd w 0) 27 = false →
        exec (.hbmRepairQuery k) s = .next (okReply u k r [repLeft (u.part p).hbm w])) ∧
      (repMethod w = 1 → exec (.softPpr k) s = .next (begun 1)) ∧
      (repMethod w = 2 → bitOf (wd w 0) 27 = false → exec (.hardPpr k) s = .next (begun 2)) ∧
      (repMethod w = 3 → bitOf (wd w 0) 27 = false → exec (.spareRow k) s = .next (begun 3))) ∧
    (∀ (o : RepairOp) (took : Bool), s.hbmOp = some o → let q := repStack o.words / 3
      let used := useRepair (s.part q).hbm o.kind o.words took
      let h := if took then zeroRow used q o.words else used
      exec (.hbmRepairDone took) s = .next (endOp { s.setPart q { s.part q with hbm := h } with
          hbmOp := none, saved := if o.kind = 2 then tabDel s.saved (repStack o.words) else s.saved } o.op
        (if took then 0 else 0x0A11) [repLeft h o.words]))

/-- Graphs. GRAPH_POST stores a segment whose nodes pass the checks of a post and within the partition's capacity, and starts a root
segment; SUBGRAPH_RELEASE drops an unused subgraph; GRAPH_ABORT abandons the named instances short of their commit point with those
below them, at once where none is past it, else it replies when those have resolved; CPL_RING_SET gives the partition's ring, from
record 0, and mends a broken path; GRAPH_QUERY counts. -/
def Obligations.GraphMessagesAct : Prop :=
  ∀ (s u : State) (k : Fin 9) (r : Req),
    let w := r.payload
    let p := bitsOf (wd w 0) 18 16
    PartOk u k r p →
    (∀ (nodes : HostRd) (ns : List (List Nat)) (v : State), let n := bitsOf (wd w 0) 12 0
      Asked s k 0x0301 r u → NoBits r [0x1FF8E000, 0xFFFFFFFF] → 1 ≤ n → n ≤ 4096 →
      (bitOf (wd w 0) 30 = true → n ≤ 63 ∧ bitOf (wd w 0) 29 = false ∧ wd64 w 2 = 0) →
      (bitOf (wd w 0) 30 = false → wd64 w 2 % 64 = 0) → postNodes u r p n nodes = (some ns, v) →
      segFault (v.cp r.ctx p).segs ns = none → storedNodes v p + n ≤ 16384 →
      (bitOf (wd w 0) 31 = false → worstTotal v p + worstOf (v.cp r.ctx p).segs 9 ns ≤ 4096) →
      exec (.graphPost k nodes) s = .next (postSegment v k r p (!bitOf (wd w 0) 31) ns)) ∧
    (∀ g : Seg, let h := bitsOf (wd w 0) 15 0
      Asked s k 0x0302 r u → NoBits r [0xFFF80000] → tabFind (u.cp r.ctx p).segs h = some g → g.root = false →
      (∀ e ∈ (u.cp r.ctx p).segs, ∀ ws ∈ e.2.nodes, subOf ws ≠ some h) →
      (∀ e ∈ (u.part p).insts, e.2.ctx = r.ctx → e.2.seg = h → e.2.parent = none) →
      exec (.subgraphRelease k) s = .next (okReply (u.setCp r.ctx p
        { u.cp r.ctx p with segs := tabDel (u.cp r.ctx p).segs h }) k r [])) ∧
    (Asked s k 0x0303 r u → NoBits r [0x3FF8FFFF, 0x0000F000] → bitsOf (wd w 0) 31 30 ≠ 3 →
      let named := abortNames u r p
      let short := (named.filter (·.2.st.short)).map (·.1)
      let below := (descendants nestFuel (u.part p).insts short).filter fun m => (u.inst? p m).any (·.st.short)
      let v := abandonSet u p (short ++ below) .aborted 0
      let past := (named.filter fun e => !e.2.st.short).map (·.1)
      (named = [] → exec (.graphAbort k) s = .next (reply v k r.no r.seq r.opcode r.ctx 0x0303 noField [0, 0])) ∧
      (short ≠ [] → past = [] → exec (.graphAbort k) s = .next (reply v k r.no r.seq r.opcode r.ctx 0 0 [short.length, 0])) ∧
      (past ≠ [] → exec (.graphAbort k) s = .next (longOp v k r past short.length past.length))) ∧
    (Asked s k 0x0304 r u → NoBits r [0xFFF8FFE0, 0xFFFFFFFF] → 6 ≤ bitsOf (wd w 0) 4 0 → bitsOf (wd w 0) 4 0 ≤ 16 →
      wd64 w 2 % 4096 = 0 → wd64 w 4 % 4 = 0 →
      exec (.cplRingSet k) s = .next (okReply (u.setCp r.ctx p { u.cp r.ctx p with
        ring := some ⟨wd64 w 2, bitsOf (wd w 0) 4 0, wd64 w 4, 0⟩, broken := false }) k r [])) ∧
    (Asked s k 0x0305 r u → NoBits r [0xFFF8FFFF] →
      exec (.graphQuery k) s = .next (okReply u k r [inFlight u p, storedNodes u p, storedSegs u p, worstTotal u p]))

/-- Weights begin and arrive. WEIGHT_KEY_IMPORT takes a key that unwraps, for loads that begin later; WEIGHT_LOAD and INSTALL begin once
every check of their requests passes, on the image they name, an Ethernet peer having been asked for its header and manifest;
WEIGHT_SHARD_ARRIVAL counts what came, good or bad, and where no dry regulator holds it back puts a good shard into the frames, or an
install's chunk into the weight store, asks again for a bad one, and fails the load at the third; WEIGHT_SHARD_TIMEOUT fails it when the
time of a shard is over; WEIGHT_LOAD_COMPLETE ends it with its measurement. -/
def Obligations.WeightLoadsRun : Prop :=
  ∀ (s u : State) (k : Fin 9) (r : Req),
    let w := r.payload
    let key := tabFind (u.ctx r.ctx).keys (bitsOf (wd w 0) 15 12)
    (Asked s k 0x0501 r u → NoBits r [0xFFFFFFF0, 0xFFFFFFFF] →
      let keep (kb : List Byte) : Ctx :=
        { u.ctx r.ctx with keysNext := tabSet (u.ctx r.ctx).keysNext (bitsOf (wd w 0) 3 0) kb }
      exec (.weightKeyImport k) s = .next (match
          Config.gcmOpen (Config.kemDecap ((wordsBytes (w.drop 2)).take 1568)) (List.replicate 12 0) (natLe 8 u.sec.serial)
            (((wordsBytes (w.drop 2)).drop 1568).take 48) with
        | some kb => okReply (settleKeys (u.setCtx r.ctx (keep kb)) r.ctx) k r []
        | none => refuseMsg u k r 0x0541 noField)) ∧
    (∀ (image : HostRd) (m : NvImage), Asked s k 0x0502 r u →
      let t := askHead u r.ctx w (wParts u k r.ctx w ++ wFields u r.ctx w) image
      namedImage t w image = some m →
      firstBad (wParts u k r.ctx w ++ wFields u r.ctx w ++ imageChecks m key w) = none →
      (bitOf (wd w 0) 31 = false → firstBad (loadChecks t r.ctx m w) = none →
        (∀ p ∈ (u.ctx r.ctx).parts, framesFor m p ≤ freeFrames t p) →
        (∀ B, tabFind (u.ctx r.ctx).bindings (wBinding w) = some B → ∀ e ∈ B.gens, e.2.st ≠ .loading) → loadsRun t < 4 →
        exec (.weightLoad k image) s = .next (beginLoad t k r m (key.getD []))) ∧
      (∀ (s0 h : Nat) (v : State), bitOf (wd w 0) 31 = true → (k : Nat) = 0 → (wSource w = 1 ∨ wSource w = 2) → wd w 1 = 0 →
        let n := hdrChunks m.header
        let inst := t.loads.filter fun e => bitOf (wd e.2.words 0) 31
        t.nvws.images.length + inst.length < 256 → pickStack t.nvws n (Config.freeNat t.free) = some s0 → loadsRun t < 4 →
        freshId { t with free := t.free + 1 } (fun h => (tabFind t.nvws.images h).isSome || inst.any fun e => e.2.handle == h) 1 65535
          (t.nvws.images.length + inst.length) = some (h, v) →
        let used := [0, 1, 2, 3].foldl (fun t j => tabMod 0 t j (· + stackChunks n s0 j)) v.nvws.used
        exec (.install k image) s = .next (enterLoad { v with nvws := { v.nvws with used } } k r { m with s0 } (key.getD []) h
          (List.range n) []))) ∧
    (∀ (n c : Nat) (l : Load) (sh : Option (List Byte)), tabFind s.loads n = some l → c ∈ l.todo →
      let z := chargeLoad (shardAnswered s l) l c
      (∀ plain, shardPlain z l c sh = some plain →
        (bitOf (wd l.words 0) 31 = true → Unheld s (installChunk z n l c plain) →
          exec (.weightShardArrival n c sh) s = .next (installChunk z n l c plain)) ∧
        (bitOf (wd l.words 0) 31 = false → let v := writeChunk z l.image (loadUnits z l) c plain
          let y : State := { v with loads := tabSet v.loads n { l with todo := setDel l.todo c } }
          Unheld s y → exec (.weightShardArrival n c sh) s = .next y)) ∧
      (shardPlain z l c sh = none → tabGet 0 l.tries c < 2 →
        let l1 := { l with tries := tabSet l.tries c (tabGet 0 l.tries c + 1), rereads := l.rereads + 1
                           reReq := tabSet l.reReq c z.hub }
        let a : State := { z with loads := tabSet z.loads n l1 }
        let b := if wSource l.words = 2 then askShard a l.ctx (wd l.words 4) (wd64 l.words 2) l.image.header c else a
        let y := logEvent b { code := 0x12B0, ctx := l.ctx, data := [l.ctx, wBinding l.words, loadName l, c] }
        Unheld s y → exec (.weightShardArrival n c sh) s = .next y) ∧
      (shardPlain z l c sh = none → 2 ≤ tabGet 0 l.tries c → Unheld s (failLoad z n l 0x0544 c) →
        exec (.weightShardArrival n c sh) s = .next (failLoad z n l 0x0544 c)) ∧
      (tabGet l.reqAt l.reReq c + wTimeout l.words ≤ s.hub → exec (.weightShardTimeout n c) s = .next (failLoad s n l 0x0545 c))) ∧
    (∀ (n : Nat) (l : Load), tabFind s.loads n = some l → l.todo = [] →
      let v := { s with loads := tabDel s.loads n }
      let pay (x y : Nat) : List Nat := [x, l.rereads, y, 0xFFFFFFFF]
      let measure (v : State) : State := extendCmr v l.ctx 0x0502 (wordsBytes l.words ++ imageHead l.image)
      (bitOf (wd l.words 0) 31 = false → let f := (measure (finishGen v l)).takeFree
        exec (.weightLoadComplete n) s =
          .next (settleKeys (endOp f.2 l.op 0 (pay (Config.genStateWord 1) (f.1 % 2 ^ 32))) l.ctx)) ∧
      (bitOf (wd l.words 0) 31 = true →
        let nv := { v.nvws with images := tabSet v.nvws.images l.handle l.image }
        let f := (measure { v with nvws := nv }).takeFree
        exec (.weightLoadComplete n) s = .next (settleKeys (endOp f.2 l.op 0 (pay (f.1 % 2 ^ 32) l.handle)) l.ctx)))

/-- Weights end. WEIGHT_DROP cancels the load of a generation, or unbinds it at the command boundaries; WEIGHT_DROP_COMPLETE zeroes and
frees what nothing holds; NVWS_IMAGE_ERASE removes an image that no load, stream or repair reads; WEIGHT_QUERY tells, in a layout left open;
WEIGHT_REPAIR_COMPLETE writes the superblock again from good chunks, else the generation is DAMAGED. -/
def Obligations.WeightsEndAndRepair : Prop :=
  ∀ (s u : State) (k : Fin 9) (r : Req),
    let w := r.payload
    (let b := bitsOf (wd w 0) 19 16
     let g := wd w 1
     ∀ gen : WGen, Asked s k 0x0503 r u → bitOf (wd w 0) 31 = false → NoBits r [0x7FF0FFFF] → genOf u r.ctx b g = some gen →
      gen.st ≠ .dropping →
      (∀ n l, loadFor u r.ctx b g = some (n, l) →
        exec (.weightDrop k) s = .next (okReply (settleKeys (endOp (cancelLoad u n) l.op 0x0547 []) r.ctx) k r [])) ∧
      (loadFor u r.ctx b g = none → exec (.weightDrop k) s = .next (gen.bound.foldl boundaryIfIdle
        (modGen (longOp u k r (setInsAll (gen.units.map (·.1)) gen.bound) 0 0) r.ctx b g fun x => { x with st := .dropping, unbinding := x.bound })))) ∧
    (∀ (c : Fin 64) (b : Fin 16) (g : Nat) (gen : WGen) (e : Nat × LongOp), genOf s c b g = some gen → gen.st = .dropping →
      gen.bound = [] → genHeld s c b g gen.units = false →
      (s.ops.find? fun e => e.2.opcode == 0x0503 && e.2.ctx == c.val && !bitOf (wd e.2.payload 0) 31 &&
        bitsOf (wd e.2.payload 0) 19 16 == b.val && wd e.2.payload 1 == g) = some e →
      let v := gen.units.foldl (fun s e => zeroUnits s e.1 e.2) s
      let B := tabGet {} (v.ctx c).bindings b
      let v1 := v.setCtx c { v.ctx c with bindings := tabSet (v.ctx c).bindings b { B with gens := tabDel B.gens g } }
      let v2 := { v1 with repairs := v1.repairs.filter fun r => !(r.ctx == c.val && r.binding == b.val && r.gen == g) }
      exec (.weightDropComplete c b g) s = .next (endOp v2 e.1 0 [])) ∧
    (∀ m : NvImage, Asked s k 0x0503 r u → bitOf (wd w 0) 31 = true → (k : Nat) = 0 → NoBits r [0x7FF0FFFF] →
      tabFind u.nvws.images (wd w 1) = some m → imageBusy u (wd w 1) = false →
      let used := [0, 1, 2, 3].foldl (fun t j => tabMod 0 t j (· - stackChunks (hdrChunks m.header) m.s0 j)) u.nvws.used
      let forget (x : WGen) : WGen := if x.image = wd w 1 then { x with image := 0 } else x
      let ctxs := tabMap u.ctxs fun _ x => { x with bindings := tabMap x.bindings fun _ B =>
        { B with gens := tabMap B.gens fun _ g => forget g } }
      exec (.nvwsImageErase k) s =
        .next (okReply { u with ctxs, nvws := { u.nvws with images := tabDel u.nvws.images (wd w 1), used } } k r [])) ∧
    (Asked s k 0x0504 r u → exec (.weightQuery k) s = .next (okReply u k r (Config.weightQueryWords (weightInfo u r.ctx)))) ∧
    (∀ (c : Fin 64) (b : Fin 16) (g : Nat) (src : HostRd) (x : Repair) (gen : WGen),
      (s.repairs.find? fun r => r.ctx == c.val && r.binding == b.val && r.gen == g) = some x → genOf s c b g = some gen →
      let lo := x.off / 64 * 64
      let hi := (x.off + x.len + 63) / 64 * 64
      let ch := chunkAt gen x.part x.off
      let chunk (k : Nat) : Option (List Byte) := match src with
        | .data bs => if gen.srcKind = 0 then storedChunk s gen k else sentChunk gen ((List.range 2).map (ch + ·)) bs k
        | _ => none
      (repairBytes gen x.part x.off lo hi chunk = none →
        exec (.weightRepairComplete c b g src) s = .next (abandonDamaged (damageGen s c b g ch))) ∧
      (∀ bs, repairBytes gen x.part x.off lo hi chunk = some bs →
        let v := (pieces lo (hi - lo)).foldl (fun s y =>
          writeLine s x.part (genDpa (tabGet [] gen.units x.part) y.1) (good ((bs.drop (y.1 - lo)).take y.2))) s
        exec (.weightRepairComplete c b g src) s = .next (logEvent { v with repairs := v.repairs.erase x }
          { code := 0x12B1, ctx := c, part := some x.part, data := [c, b, g, ch] })))

/-- Codebooks. CODEBOOK_LOAD and CODEBOOK_RELEASE drain the named slots of every partition where their checks pass;
CODEBOOK_SLOT_WRITE_DONE makes a written slot VALID with its new contents, and the last one answers the load with its measurement;
CODEBOOK_WAIT_LIMIT ends a load whose limit has passed while a slot still waits, and leaves one alone whose slots are all being written;
CODEBOOK_QUERY tells every slot. -/
def Obligations.CodebooksLoadAndRelease : Prop :=
  ∀ (s u : State) (k : Fin 9) (r : Req),
    let w := r.payload
    let ps := (u.ctx r.ctx).parts
    let ts := allTargets u r.ctx (wd w 0)
    (Asked s k 0x0510 r u → NoBits r [0x0000FC38, 0, 0xFFFFFFFF, 0xFFFFFFFF] → cbBad (cbEntries w) = false →
      bitsOf (wd w 0) 9 8 ≠ 0 → wd w 0 / 65536 ≠ 0 → (∀ q ∈ ts, q.gen ≠ wd w 0 / 65536 ∧ cbBusy q = false) →
      (bitOf (wd w 0) 7 = true → ∀ q ∈ ts, q.refs = 0) →
      let nx := some (bitOf (wd w 0) 6, wd w 0 / 65536, cbEntries w, u.nextOp)
      exec (.codebookLoad k) s = .next (ps.foldl (fun v p => modTargets v r.ctx p (wd w 0) fun q =>
        drainSlot { q with st := .loadWait, next := nx }) (limitedOp u k r ps (wd w 1)))) ∧
    (Asked s k 0x0511 r u → NoBits r [0xFFFFFCF8] → bitsOf (wd w 0) 9 8 ≠ 0 → (∀ q ∈ ts, cbBusy q = false) →
      exec (.codebookRelease k) s = .next (settleReleases (ps.foldl (fun v p => modTargets v r.ctx p (wd w 0) fun q =>
        if q.st == .empty then q else drainSlot { q with st := .releaseWait }) (longOp u k r ps 0 0)) r.ctx)) ∧
    (∀ (p q : Fin 8) (c : Fin 64) (a size32 : Bool) (gen n : Nat) (es : List (Nat × Nat)), let x := s.cp c p
      let o : CbSlot := tabGet {} (if a then x.cbA else x.cbW) q
      o.st = .writing → o.next = some (size32, gen, es, n) →
      let o1 : CbSlot := { st := .valid, size32, gen, entries := es, refs := o.refs }
      let v := s.setCp c p (if a then { x with cbA := tabSet x.cbA q o1 } else { x with cbW := tabSet x.cbW q o1 })
      (∀ l, tabFind s.ops n = some l → l.todo.all (fun p => !cbLeft v c p n) = true →
        exec (.codebookSlotWriteDone p c a q) s =
          .next (endOp (extendCmr { v with ops := tabSet v.ops n { l with todo := [] } } c 0x0510 (wordsBytes l.payload)) n 0 [])) ∧
      (∀ l, tabFind s.ops n = some l → l.todo.any (fun p => cbLeft v c p n) = true →
        exec (.codebookSlotWriteDone p c a q) s =
          .next { v with ops := tabSet v.ops n { l with todo := l.todo.filter fun p => cbLeft v c p n } })) ∧
    (∀ (c : Fin 64) (q : Fin 8) (n : Nat) (o : LongOp),
      (s.ops.find? fun e => e.2.opcode == 0x0510 && e.2.ctx == c.val && wd e.2.payload 0 % 8 == q.val &&
        e.2.deadline.any (· ≤ s.hub)) = some (n, o) →
      exec (.codebookWaitLimit c q) s = .next (if cbWaiting s c n then endOp (stopCodebook s c n) n 0x0504 [] else s)) ∧
    (Asked s k 0x0512 r u → let l := allParts.filter ps.contains
      exec (.codebookQuery k) s = .next (okReply u k r ([l.foldl (fun a p => a + 2 ^ p) 0, 0] ++ l.flatMap fun p =>
        ((List.range 8).flatMap fun q => cbEntryWords (tabGet {} (u.cp r.ctx p).cbW q)) ++
          (List.range 8).flatMap fun q => cbEntryWords (tabGet {} (u.cp r.ctx p).cbA q))))

/-- Micro-programs. SFU_SLOT_WRITE and SFU_TABLE_WRITE write the standby bank of every partition of the context where nothing holds it, whose
rewritten words have good parity again, and extend the measurement; SFU_BANK_PREPARE waits for the standby banks, SFU_BANK_COPY_DONE fills one from the active bank,
SFU_PREPARE_WAIT_LIMIT ends it where a partition still waits for its standby bank; SFU_BANK_SWITCH exchanges the banks; SFU_BANK_QUERY tells, in a layout left open. -/
def Obligations.MicroProgramBanksSwitch : Prop :=
  ∀ (s u : State) (k : Fin 9) (r : Req),
    let w := r.payload
    let ps := (u.ctx r.ctx).parts
    let write (f : SfuSlot → SfuSlot) (ks : List Nat) : State := ps.foldl (fun v p =>
      (v.setCp r.ctx p (modStandby (v.cp r.ctx p) fun t => tabMod {} t (wd w 0 % 16) f)).rewritten r.ctx p fun key =>
        ks.any fun j => key == bankKey (v.cp r.ctx p).standbyNo (wd w 0 % 16) j) u
    (standbyHeld u r.ctx = false → preparing u r.ctx = false →
      (let n := bitsOf (wd w 0) 12 8
       Asked s k 0x0520 r u → NoBits r [0xFF0EE0E0, 0xFFFF0000] → 1 ≤ n → n ≤ 16 → (∀ x ∈ (w.drop 12).take n, mpStepBad x = false) →
        mpLookupBad w = false →
        exec (.sfuSlotWrite k) s = .next (okReply (extendCmr (write (fun x => { x with words := w }) (List.range 14)) r.ctx 0x0520 (wordsBytes w)) k r [])) ∧
      (let n := bitsOf (wd w 0) 23 16
       let first := bitsOf (wd w 0) 15 8
       let cs := (w.drop 4).take (4 * n)
       Asked s k 0x0521 r u → NoBits r [0xFF0000F0, 0xFFFFFFFF, 0xFFFFFFFF, 0xFFFFFFFF] → 1 ≤ n → n ≤ 248 → first + n ≤ 256 →
        (∀ x ∈ cs, (ofF32 x).isFin = true) →
        exec (.sfuTableWrite k) s = .next (okReply (extendCmr (write (fun x => { x with
          segs := (List.range n).foldl (fun t i => tabSet t (first + i) ((cs.drop (4 * i)).take 4)) x.segs })
          ((List.range n).flatMap fun i => mpSegWords (first + i))) r.ctx 0x0521
          (wordsBytes w)) k r []))) ∧
    (Asked s k 0x0522 r u → NoBits r [0xFFFFFF7F] → preparing u r.ctx = false →
      (bitOf (wd w 0) 7 = true → standbyHeld u r.ctx = false) →
      exec (.sfuBankPrepare k) s = .next (ps.foldl (fun v p => v.setCp r.ctx p (drainBank
        { v.cp r.ctx p with prep := some u.nextOp })) (limitedOp u k r ps (wd w 1)))) ∧
    (∀ (p : Fin 8) (c : Fin 64) (n : Nat) (o : LongOp), (s.cp c p).prep = some n → (s.cp c p).copying = true →
      tabFind s.ops n = some o →
      let v := (s.setCp c p { modStandby (s.cp c p) (fun _ => (s.cp c p).activeBank.slots) with
        prep := none, copying := false }).rewritten c p fun key => key / 16384 == (s.cp c p).standbyNo
      exec (.sfuBankCopyDone p c) s = .next (if setDel o.todo p = [] then endOp v n 0 []
        else { v with ops := tabSet v.ops n { o with todo := setDel o.todo p } })) ∧
    (∀ (c : Fin 64) (n : Nat) (o : LongOp),
      (s.ops.find? fun e => e.2.opcode == 0x0522 && e.2.ctx == c.val && e.2.deadline.any (· ≤ s.hub)) = some (n, o) →
      exec (.sfuPrepareWaitLimit c) s = .next (if (s.ctx c).parts.any fun p => (s.cp c p).prep == some n && !(s.cp c p).copying then
        endOp (stopPrepare s c n) n 0x0523 [] else s)) ∧
    (Asked s k 0x0523 r u → preparing u r.ctx = false → exec (.sfuBankSwitch k) s = .next (okReply (ps.foldl (fun v p =>
      v.setCp r.ctx p { v.cp r.ctx p with active := 1 - (v.cp r.ctx p).active }) u) k r [])) ∧
    (Asked s k 0x0524 r u → exec (.sfuBankQuery k) s = .next (okReply u k r (Config.sfuQueryWords
      ((allParts.filter ps.contains).flatMap fun p =>
        [p, (u.cp r.ctx p).active] ++ bankInfo (u.cp r.ctx p).bank0 ++ bankInfo (u.cp r.ctx p).bank1))))

/-- Power, schedule and job messages. Each stores what its payload gives once the ranges hold: tolerance and A4 permission of the function
(a lowered tolerance wakes the module from A4), cap in steps of 25 W where 0 means 160, slew floor in percent, the next schedule of
a partition, regulator settings that wait for a command boundary, a grace window, a job and its patience; the queries tell. -/
def Obligations.PowerAndScheduleSettings : Prop :=
  ∀ (s u : State) (k : Fin 9) (r : Req),
    let w := r.payload
    let p := bitsOf (wd w 0) 18 16
    (Asked s k 0x0601 r u → NoBits r [0x7F000000] → (bitOf (wd w 0) 31 = true → (k : Nat) = 0) →
      let l := bitsOf (wd w 0) 23 0
      let v := u.setFn k { u.fn k with latUs := l, allowA4 := bitOf (wd w 0) 31 }
      exec (.powerLatencySet k) s = .next (okReply (if u.power.a4 && l < (u.fn k).latUs then
        { v with power := { v.power with a4Waking := true } } else v) k r [])) ∧
    (Asked s k 0x0602 r u → NoBits r [0xFFFFFF00] → let c := bitsOf (wd w 0) 7 0
      (c = 0 ∨ 40 ≤ c ∧ c ≤ 160) →
      exec (.powerCapSet k) s = .next (okReply { u with power := { u.power with capSteps := if c = 0 then 160 else c } } k r [])) ∧
    (Asked s k 0x0603 r u → NoBits r [0xFFFFFF80] → bitsOf (wd w 0) 6 0 ≤ 70 →
      exec (.slewFloorSet k) s = .next (okReply { u with power := { u.power with floorPct := bitsOf (wd w 0) 6 0 } } k r [])) ∧
    (Asked s k 0x0604 r u → exec (.powerQuery k) s = .next (okReply u k r [pwrStatus u, pwrLimits u, pwrMeasure u % 2 ^ 32,
      pwrMeasure u / 2 ^ 32, pwrThermal u, pwrTolerance u, (u.fn k).latUs])) ∧
    (let ws := (w.drop 2).take (bitsOf (wd w 0) 8 0)
     Asked s k 0x0701 r u → NoBits r [0xFFF8FE00, 0xFFFFFFFF] → bitsOf (wd w 0) 8 0 ≤ 256 → (∀ x ∈ ws, slotBad u p x = false) →
      frameUs (ws.map slotOf) ≤ 1000000 →
      exec (.schedTableSet k) s = .next (okReply (u.setPart p { u.part p with schedNext := some (ws.map slotOf) }) k r [])) ∧
    (let ws := (w.drop 1).take (bitsOf (wd w 0) 3 0)
     Asked s k 0x0702 r u → NoBits r (0xFFF8FFF0 :: ws.map fun _ => 0x00FE0080) → 1 ≤ bitsOf (wd w 0) 3 0 → bitsOf (wd w 0) 3 0 ≤ 11 →
      (∀ x ∈ ws, regBad x = false) → (ws.map fun x => (regEntry x).1).Nodup →
      exec (.regulatorSet k) s = .next (okReply (boundaryIfIdle (ws.foldl (fun v x =>
        v.setReg p (regEntry x).1 { (v.part p).reg (regEntry x).1 with next := some (regEntry x).2 }) u) p) k r [])) ∧
    (Asked s k 0x0703 r u → NoBits r [0xFFF8FFFF] → wd w 1 ≤ 10000 →
      exec (.preemptGraceSet k) s = .next (okReply (u.setPart p { u.part p with graceNext := some (wd w 1) }) k r [])) ∧
    (Asked s k 0x0704 r u → u.ownerOf p = k → NoBits r [0xFFF8FFFF] → let l := (u.part p).sched.getD []
      exec (.schedQuery k) s = .next (okReply u k r [l.length + 65536 * (u.part p).slot, (u.part p).graceUs, frameUs l, 0,
        (u.part p).frames % 2 ^ 32, (u.part p).frames / 2 ^ 32 % 2 ^ 32])) ∧
    (Asked s k 0x0805 r u → wd w 1 ≤ 600000 → exec (.jobPatienceSet k) s =
      .next (okReply (u.setCtx r.ctx { u.ctx r.ctx with job := wd w 0, patienceMs := wd w 1 }) k r []))

/-- Service messages. LOG_READ answers with the records asked for that the function may see, and with a flash slot; ESCALATION_SET stores and
measures the limits; SERVICE_RESTORE brings partitions out of service back, and with MODULE clears the module's state; PARTITION_RESET
starts a reset; both reply when it has ended. STATE_SAVE freezes a partition in service and takes its dump; FULL_STATE_SAVE_DONE
ends it: below debug level 2 the partition goes on, with every stopped node short of its commit point killed to run again;
DUSK_DUMP_READ copies bytes of the dump in its holder's memory to host memory, and zeroes and frees the dump where asked.
Test mode. TEST_MODE_ENTER takes partitions without contexts out of service for test; TEST_MODE_EXIT trains them again, cold where a
repair changed a stack; TRAINING_SAVED_CLEAR removes the saved settings of the named stacks and ports. -/
def Obligations.ServiceMessagesAct : Prop :=
  (∀ (s u : State) (k : Fin 9) (r : Req),
    let w := r.payload
    let p := bitsOf (wd w 0) 18 16
    (Asked s k 0x0801 r u → NoBits r [0xFFFFFFFC, 0, 0] → 1 ≤ wd w 2 → wd w 2 ≤ 127 →
      (∀ o, bitsOf (wd w 0) 1 0 ≤ 1 → let held := if bitsOf (wd w 0) 1 0 = 0 then u.log.general else u.log.fatal
        let l := (logVisible u k (held.reverse.filter fun x => seqFrom (wd w 1) x.seq)).take (wd w 2)
        held.getLast? = some o → exec (.logRead k) s = .next (okReply u k r ([l.length,
          if bitsOf (wd w 0) 1 0 = 0 then u.log.genSeq else u.log.fatSeq, o.seq, 0] ++ l.flatMap logRecWords))) ∧
      (bitsOf (wd w 0) 1 0 = 2 → wd w 1 < 256 → (k : Nat) = 0 → let l := (tabGet {} u.flashFatal (wd w 1)).recs
        exec (.logRead k) s = .next (okReply { u with free := u.free + 2 } k r ([127, Config.freeNat u.free % 2 ^ 32,
          Config.freeNat (u.free + 1) % 2 ^ 32, 0] ++ l.flatMap logRecWords ++ List.replicate (8 * (127 - l.length)) 0)))) ∧
    (let a := bitsOf (wd w 0) 31 24
     let b := bitsOf (wd w 0) 23 16
     let c := bitsOf (wd w 0) 15 8
     let d := bitsOf (wd w 0) 7 0
     Asked s k 0x0802 r u → NoBits r [0, 0xFFFFFFFE] → 2 ≤ a → a ≤ 10 → 1 ≤ b → b ≤ 60 → 3 ≤ c → c ≤ 32 → 10 ≤ d → d ≤ 240 →
      exec (.escalationSet k) s = .next (okReply (extendMr { u with escal := [a, b, c, d, bitsOf (wd w 1) 0 0] } 3
        (Config.sha256 (wordsBytes w))) k r [])) ∧
    (Asked s k 0x0803 r u → NoBits r [0x7FFFFF00] →
      (bitOf (wd w 0) 31 = false → maskParts (wd w 0 % 256) ≠ [] →
        (∀ p ∈ maskParts (wd w 0 % 256), u.offDuty p = true ∧ (u.part p).inTest = false) →
        exec (.serviceRestore k) s = .next ((maskParts (wd w 0 % 256)).foldl (fun v p => restorePart v p u.nextOp)
          (longOp u k r (maskParts (wd w 0 % 256)) 0 0))) ∧
      (bitOf (wd w 0) 31 = true → u.moduleOos = true → exec (.serviceRestore k) s =
        .next (allParts.foldl (fun v p => restorePart v p u.nextOp) (longOp (clearModuleOos u) k r allParts 0 0)))) ∧
    (Asked s k 0x0804 r u → NoBits r [0xFFF8FFFE] → u.offDuty p = false → exec (.partitionReset k) s =
      .next (startReset (longOp u k r [] 0 0) p 0 false false (bitOf (wd w 0) 0) false [u.nextOp])) ∧
    (∀ clean, Asked s k 0x0904 r u → (s.part p).saveOp = none → NoBits r [0xFFF8FFFF] → (u.part p).inService = true →
      let v := takeDump (longOp u k r [p] 0 0) p true clean (allTiles.map fun t => (t, u.tile p t)) (u.part p).insts
        { kind := 1, ctxMask := instMask u p }
      exec (.stateSave k clean) s = .next (v.setPart p { v.part p with frozen := true, saveOp := some u.nextOp })) ∧
    (∀ (p : Fin 8) (o : Nat), (s.part p).saveOp = some o →
      let v (fr : Bool) : State := s.setPart p { s.part p with saveOp := none, frozen := fr }
      let ns := ((s.part p).insts.filter fun e => stoppedShort e.2).map (·.1)
      (s.dbgLevel = 2 → exec (.fullStateSaveDone p) s = .next (endOp (v true) o 0 (summaryWords (s.part p).dump))) ∧
      (s.dbgLevel ≠ 2 → exec (.fullStateSaveDone p) s =
        .next (endOp (thaw (ns.foldl (fun v n => preempt v p n) (v false)) p) o 0 (summaryWords (s.part p).dump)))) ∧
    (let d := (u.part p).dump
     Asked s k 0x0905 r u → NoBits r [0x7FF8FFFF, 0, 0, 0xFFFFFFFF] → wd w 1 % 4096 = 0 → wd w 2 % 4096 = 0 → wd w 2 ≤ 1048576 →
      0 < wd w 2 → d.valid = true → wd w 1 + wd w 2 ≤ dumpSize →
      let v := u.post r.ctx (wd64 w 4)
        ((List.range (wd w 2)).map fun i => memByte (u.part d.holder).hbm.mem (dumpPlace p + wd w 1 + i)) false
      exec (.duskDumpRead k) s = .next (okReply (if bitOf (wd w 0) 31 then
        clearDump (v.setPart p { v.part p with dump := { d with valid := false } }) p d.holder else v) k r (summaryWords d)))) ∧
  (∀ (s u : State) (k : Fin 9) (r : Req),
    let w := r.payload
    let ps := maskParts (wd w 0 % 256)
    (NoBits r [0xFFFFFF00] →
      (Asked s k 0x0A01 r u → (∀ p ∈ ps, (s.part p).reset = none) →
        (∀ p ∈ ps, u.ctxsOn p = [] ∧ (u.part p).inTest = false ∧ (u.part p).testExit = none) →
        exec (.testModeEnter k) s = .next (okReply (ps.foldl (fun v p => v.setPart p { v.part p with
          inService := false, inTest := true, dispHeld := true, act := 0, idleAt := none,
          hbm := { (v.part p).hbm with selfRefresh := true, wokenAt := none } }) u) k r [])) ∧
      (Asked s k 0x0A02 r u → ps ≠ [] → (∀ p ∈ ps, (u.part p).inTest = true) →
        exec (.testModeExit k) s = .next (ps.foldl (fun v p => leaveTest v p u.nextOp) (longOp u k r ps 0 0)))) ∧
    (let named (i : Nat) : Bool := if i < 24 then bitOf (wd w 0) i else bitOf (wd w 1) ((i - 24) / 8)
     Asked s k 0x0A04 r u → NoBits r [0xFF000000, 0xFFFFFFC0] →
      let boot := { u.boot with refined := u.boot.refined.filter fun i => !(named i && u.item i == .done) }
      exec (.trainingSavedClear k) s = .next (okReply { u with saved := u.saved.filter fun e => !named e.1, boot } k r [])))

/-- Debug and attestation. DEBUG_CHALLENGE gives a fresh challenge for 600 s, which DEBUG_CHALLENGE_EXPIRY ends; DEBUG_UNLOCK of level 0 locks,
of level 1 or 2 sets the level only with a token that answers the live challenge under the debug key, level 2 only with no context, and
any failure kills the challenge; ATTEST_QUOTE takes a quote that ATTEST_QUOTE_DONE writes signed to host memory; the certificate chain
goes there at once. -/
def Obligations.DebugAndAttestation : Prop :=
  ∀ (s u : State) (k : Fin 9) (r : Req),
    let w := r.payload
    let l := bitsOf (wd w 0) 1 0
    (Asked s k 0x0901 r u → NoBits r [0xFFFFFFFC] → l ≠ 0 → l ≠ 3 →
      let c : Challenge := { level := l, nonce := freeBytes32 u.free, expires := u.hub + 15000000000 }
      exec (.debugChallenge k) s = .next (okReply { u with sec := { u.sec with chal := some c }, free := u.free + 1 } k r
        (bytesWords 14 (challengeBytes u.sec.serial c)))) ∧
    (∀ token, Asked s k 0x0902 r u → NoBits r [0xFFFFFFFC, 0xFFFFFFFF] → l ≠ 3 →
      (l = 0 → wd w 2 = 0 → wd w 3 = 0 → exec (.debugUnlock k token) s =
        .next (okReply (setDebug { u with sec := { u.sec with chal := none } } 0) k r [])) ∧
      (l = 2 → liveCtxs u ≠ [] → exec (.debugUnlock k token) s = .next (unlockFails u k r l 0x0922)) ∧
      (∀ (t : List Byte) (c : Challenge), l ≠ 0 → (l = 2 → liveCtxs u = []) → token = .data t → u.sec.chal = some c →
        let live := c.level = l ∧ u.hub < c.expires ∧ t.take 56 = challengeBytes u.sec.serial c
        let pk := (t.drop 56).take 32
        (live → exec (.debugUnlock k token) s = .next
          (if Config.sha256 pk = u.sec.dbgDigest ∧ Config.slhVerify pk (t.take 56) ((t.drop 88).take 7856) = true then
            unlockOk u k r l (t.take 56) else unlockFails u k r l 0x0921)) ∧
        (¬ live → exec (.debugUnlock k token) s = .next (unlockFails u k r l 0x0920)))) ∧
    (∀ c, s.sec.chal = some c → c.expires ≤ s.hub →
      exec .debugChallengeExpiry s = .next { s with sec := { s.sec with chal := none } }) ∧
    (Asked s k 0x0903 r u → firstBad (quoteChecks r) = none →
      (bitsOf (wd w 0) 31 30 = 0 → 17472 ≤ wd w 12 →
        let q : QuoteOp := ⟨u.nextOp, quoteBody u r.ctx (wordsBytes ((w.drop 2).take 8)), wd64 w 10⟩
        exec (.attestQuote k) s = .next { longOp u k r [] 0 0 with quotes := tabSet u.quotes u.nextOp q }) ∧
      (bitsOf (wd w 0) 31 30 = 1 → (certChain u).length ≤ wd w 12 → exec (.attestCertChain k) s =
        .next (okReply (u.post r.ctx (wd64 w 10) (certChain u) false) k r [(certChain u).length]))) ∧
    (∀ (n : Nat) (q : QuoteOp) (o : LongOp), tabFind s.quotes n = some q → tabFind s.ops q.op = some o →
      exec (.attestQuoteDone n) s = .next (endOp
        (State.post { s with quotes := tabDel s.quotes n } o.ctx q.addr (q.body ++ Config.slhSign q.body) false) q.op 0 [quoteSize]))

/-- Registers, where the module is not in Recovery. A register write takes effect in the words it covers, the lower first; PT_FENCE_SEL selects a context for a partition; writing
FP_CONTROL.DISABLE disables a port, which is quiet once drained or after 2 ms, and writing 0 trains it again, as one does that a new
cabling plan has made quiet; DBG_RESUME goes on with a
frozen partition at debug level 2; unmasking a vector sends its pending message; an access that R24 refuses completes, writes nothing,
reads all ones and is logged. -/
def Obligations.RegisterAccessesAct : Prop :=
  ∀ (s : State) (k : Fin 9), s.barUp = true → s.fnLive k = true →
    (∀ (o wdt : Nat) (v : W64), o < 0x1000000 → (wdt = 4 ∨ wdt = 8) → barInvalid s k o wdt = false →
      let t := writeWord s k o (v.toNat % 2 ^ 32)
      exec (.registerWrite k o wdt v) s = .next (if wdt = 8 then writeWord t k (o + 4) (v.toNat / 2 ^ 32) else t)) ∧
    (∀ (p : Fin 8) (v : W32), s.boot.stage ≠ 7 → (k : Nat) = 0 ∨ s.ownerOf p = k → exec (.ptFenceSelWrite k p v) s = .next (s.setFn k
      { s.fn k with fenceSel := tabSet (s.fn k).fenceSel p (v.toNat % 64) })) ∧
    (∀ port : Fin 6, let P := s.port port
      (s.boot.stage ≠ 7 → P.disable = false → exec (.fpControlDisable port) s =
        .next (s.setPort port { P with disable := true, disabling := some s.hub })) ∧
      (∀ t, P.disabling = some t → (portDrained s port = true ∨ t + 50000 ≤ s.hub) →
        exec (.portDisableDone port) s =
          .next (if P.disable then quietPort s port .disabled else retrainPort (quietPort s port .down) port)) ∧
      (∀ b, s.boot.stage ≠ 7 → P.disable = true → P.st = .disabled → s.plan = some b → exec (.fpControlEnable port) s =
        .next (startPort (s.setPort port { P with
          disable := false, disabling := if P.replan then P.disabling else none
          absentBy := some (s.hub + 25000000 * planLimit b) }) port))) ∧
    (∀ p : Fin 8, s.boot.stage ≠ 7 → s.dbgLevel = 2 → (s.part p).frozen = true → (s.part p).saveOp = none → exec (.dbgResumeGo p) s =
      .next (thaw (State.setPart { s with sec := { s.sec with resumePart := p } } p { s.part p with frozen := false }) p)) ∧
    (∀ v : Fin 2048, s.boot.stage ≠ 7 → let f := s.fn k
      let e : Vec := tabGet {} f.vecs v
      let t := s.setFn k { f with vecs := tabSet f.vecs v { e with masked := false, pending := false } }
      exec (.msixUnmask k v) s = .next (if e.pending && f.msixEn then raiseVector t k v else t)) ∧
    (∀ (o wdt : Nat) (wr : Bool), barInvalid s k o wdt = true → let t := logEvent s { code := 0x12E5, data := [(k : Nat), 0, o] }
      exec (.bar0AccessInvalid k o wdt wr) s =
        .next (if wr then t else { t with cpls := t.cpls ++ [{ fn := k, bytes := List.replicate wdt 0xFF }] }) ∧
      (wr = true → o < 0x1000000 → ∀ v : W64, exec (.registerWrite k o wdt v) s = .next t))

/-- BAR2 and the functions. While the module is up, a BAR2 read in a window returns the bytes of the device memory mapped there, with EP
where they are poisoned, and a write in a writable window stores its bytes there; a read in no window, of a page that faults or while
the module is down returns all ones, such a write and one in a window that is not writable is dropped, and each of these is logged.
A resize to a size of the table clears the windows; resets of functions and changes of VF Enable reset the functions that they name;
until the end of Sunrise a resize or a change is answered with Request Retry Status.
ATS translations fill the cache and leave it, and the nodes that wait for the page go on, where no dry regulator holds them; a refused
one ends the running node that waits for it or is named with it, or breaks the completion paths whose rings lie there. A link that has trained
below its full rate or width is logged. -/
def Obligations.FunctionsAndWindowsAct : Prop :=
  ∀ (s : State) (k : Fin 9),
    (s.barUp = true → s.fnLive k = true → ∀ (o len : Nat) (bs : List Byte), bs.length = len → o + len ≤ bar2Bytes (s.fn k) →
      let dropped (t : State) (c : Nat) : State := logEvent t { code := 0x12E0, ctx := c, data := [(k : Nat), c, o % 2 ^ 32, o / 2 ^ 32] }
      let answered (t : State) (ep : Bool) (b : List Byte) : State := { t with cpls := t.cpls ++ [{ fn := k, ep, bytes := b }] }
      let ones (t : State) (c : Nat) : State := answered (dropped t c) false (List.replicate len 0xFF)
      (windowOf s k o len = none →
        exec (.bar2Read k o len) s = .next (ones s 0) ∧ exec (.bar2Write k o bs) s = .next (dropped s 0)) ∧
      (∀ wn : Window, windowOf s k o len = some wn →
        let a := wn.dva + (o - wn.off)
        let v0 := (s.ctx wn.ctx).mapVer
        (∀ (m : List PByte) (v : State), windowUp s = true → readDva s hubUnit wn.ctx v0 a len 17 = .ok (m, v) →
          exec (.bar2Read k o len) s =
            .next (if m.any (·.2) then answered v true [] else answered v false (m.map (·.1)))) ∧
        (windowUp s = false → exec (.bar2Read k o len) s = .next (ones s wn.ctx)) ∧
        (∀ (e : AccErr) (v : State), windowUp s = true → readDva s hubUnit wn.ctx v0 a len 17 = .error (e, v) →
          exec (.bar2Read k o len) s = .next (ones v wn.ctx)) ∧
        (∀ v : State, windowUp s = true → wn.writable = true → writeDva s hubUnit wn.ctx v0 a (good bs) = .ok v →
          exec (.bar2Write k o bs) s = .next v) ∧
        ((windowUp s = false ∨ wn.writable = false ∨ ∃ e, writeDva s hubUnit wn.ctx v0 a (good bs) = .error e) →
          exec (.bar2Write k o bs) s = .next (dropped s wn.ctx)))) ∧
    (s.pins.rails = true → s.boot.cmi = false →
      let retry (j : Nat) : State := { s with cpls := s.cpls ++ [{ fn := j, rrs := true, bytes := [] }] }
      (∀ n, exec (.bar2Resize k n) s = .next (retry k)) ∧ ∀ en n, exec (.vfEnableChange en n) s = .next (retry 0)) ∧
    (∀ n, s.pins.rails = true → s.boot.cmi = true → s.fnLive k = true → 6 ≤ n → n ≤ (if (k : Nat) = 0 then 10 else 8) → exec (.bar2Resize k n) s =
      .next (s.setFn k { s.fn k with bar2Log2 := n - 6, bar2 := [] })) ∧
    (s.fnLive k = true → (k : Nat) ≠ 0 → exec (.functionLevelReset k) s = .next (functionReset s k)) ∧
    (exec (.functionLevelReset 0) s = .next (setVfs (functionReset s 0) false 0)) ∧
    (exec .pcieHotReset s = .next (setVfs (functionReset s 0) false 0)) ∧
    (∀ (en : Bool) (n : Fin 9), s.pins.rails = true → s.boot.cmi = true → exec (.vfEnableChange en n) s = .next (([1, 2, 3, 4, 5, 6, 7, 8].filter fun j =>
      s.fnLive j && !(en && j ≤ n)).foldl functionReset { s with pcie := { s.pcie with vfEn := en, numVfs := n } })) ∧
    (∀ gts lanes, let t : State := { s with pcie := { s.pcie with gts, lanes } }
      exec (.pcieLinkTrained gts lanes) s = .next (if gts < 640 ∨ lanes < 16 then
        logEvent t { code := 0x12E4, data := [0, 0, gts, lanes] } else t)) ∧
    (∀ a, let g := a / 4096
      let v := s.setFn k { s.fn k with ats := (s.fn k).ats.filter (· != g), invDone := (s.fn k).invDone ++ [g] }
      exec (.atsInvalidation k a) s = .next (if g ∈ (s.fn k).ats then untranslate v k g else v)) ∧
    (∀ (p : Fin 8) (n a : Nat), (s.fn k).atsEn = true → let g := a / 4096
      let old := (s.fn k).ats
      let came (l : List Nat) : State :=
        pagesHere (s.setFn k { s.fn k with ats := setIns l g, xlReq := (s.fn k).xlReq.filter (· != g) }) k (· == g)
      (g ∈ old ∨ old.length < 2048 → Unheld s (came old) → exec (.atsTranslationCompletion k p n a true) s = .next (came old)) ∧
      (g ∉ old → 2048 ≤ old.length → Unheld s (came (old.drop 1)) →
        exec (.atsTranslationCompletion k p n a true) s = .next (came (old.drop 1))) ∧
      let v := s.setFn k { s.fn k with xlReq := (s.fn k).xlReq.filter (· != g) }
      (∀ (q m : Nat) (i : Inst), (xlWaiters s k (· == g) = [(q, m)] ∧ ∀ j, s.inst? p n = some j → j.needsHost a = false) →
        s.inst? q m = some i →
        ((s.part q).frozen = false → i.st = .running → i.ended = false →
          exec (.atsTranslationCompletion k p n a false) s = .next (failNode v q m 0x32E1
            [i.fn s + 65536 * i.ctx, a % 2 ^ 32, a / 2 ^ 32, i.seg + 65536 * i.idx])) ∧
        ((s.part q).frozen = true → exec (.atsTranslationCompletion k p n a false) s =
          .next (v.setPart q { s.part q with answersHeld := (s.part q).answersHeld ++ [(m, .refused a)] }))) ∧
      (∀ i : Inst, xlWaiters s k (· == g) = [] → s.inst? p n = some i → i.st = .running → i.ended = false → i.needsHost a = true →
        (s.ctx i.ctx).owner = k → (s.part p).frozen = false → exec (.atsTranslationCompletion k p n a false) s = .next (failNode v p n 0x32E1
          [i.fn s + 65536 * i.ctx, a % 2 ^ 32, a / 2 ^ 32, i.seg + 65536 * i.idx])) ∧
      (xlWaiters s k (· == g) = [] → (∀ i, s.inst? p n = some i → i.needsHost a = false) →
        exec (.atsTranslationCompletion k p n a false) s = .next ((ringCtxs s k p a).foldl (fun u c =>
          breakPath u c p (match u.inst? p n with | some i => i.data | none => [])) v)))

/-- RDMA connections. CONN_OPEN reserves a connection that CONN_READY makes ready, with its queue pair and key, unless a teardown has
ended its operation, and CONN_CLOSE ends one that nothing uses. While the module is up and no dry regulator holds the bytes, an inbound
WRITE, READ or WRITE with Immediate that passes key, window, access right and translation moves its bytes, the last adding 1 to its
fence; any other, and a READ of poisoned data or an Immediate that names no fence of the context, is answered with a NAK and logged.
RDMA transport and Ethernet. 1 ms after the oldest request was last sent it is sent again, and the eighth expiry in a row takes its
connection to ERROR; an ACK resolves the oldest request, whose running node then ends or, on a NAK, is killed with 0x3282, once no save
holds its partition; a congestion notification halves
the connection's rate. A port answers address requests for its own addresses, else counts a discarded frame; it takes the current
address record when its link comes up; while the management controller runs a record that is written is stored, and logged where it
fails its checks. -/
def Obligations.RdmaAndEthernetAct : Prop :=
  (∀ (s u : State) (k : Fin 9) (r : Req),
    (∀ (h : Nat) (v : State), Asked s k 0x0120 r u → NoBits r [0x0FFC1FC0, 0xFF000000, 0xFF000000, 0xFF000000, 0, 0, 0, 0, 0,
        0xFFFF0000, 0, 0xFFFFF000, 0, 0xFFFF0000] → wd64 r.payload 12 + wd64 r.payload 14 ≤ 2 ^ 48 → u.conns.length < 1024 →
      (u.conns.filter fun e => e.2.ctx == r.ctx).length < 64 →
      freshId u (fun h => (tabFind u.conns h).isSome) 1 4294967295 u.conns.length = some (h, v) →
      let c : Conn := { ctx := r.ctx, fn := k, words := r.payload, qpn := Config.freeNat v.free % 2 ^ 24,
                        key := Config.freeNat (v.free + 1) % 2 ^ 32, op := v.nextOp, addr := localAddr u r.payload }
      exec (.connOpen k) s = .next { longOp { v with free := v.free + 2 } k r [] h 0 with conns := tabSet v.conns h c }) ∧
    (∀ (h : Nat) (c : Conn), tabFind s.conns h = some c → c.st = .opening →
      ((tabFind s.ops c.op).isSome = true → exec (.connReady h) s =
        .next (endOp { s with conns := tabSet s.conns h { c with st := .ready } } c.op 0 [h, c.qpn, c.key])) ∧
      (tabFind s.ops c.op = none → exec (.connReady h) s = .next s)) ∧
    (∀ c : Conn, Asked s k 0x0121 r u → tabFind u.conns (wd r.payload 0) = some c → c.ctx = r.ctx → c.st ≠ .opening →
      connUsed u (wd r.payload 0) = false →
      exec (.connClose k) s = .next (okReply { u with conns := tabDel u.conns (wd r.payload 0) } k r []))) ∧
  (∀ (s : State) (h a len : Nat) (c : Conn) (key imm : W32) (bs : List Byte), tabFind s.conns h = some c →
    let v0 := (s.ctx c.ctx).mapVer
    let f := imm.toNat % 4096
    let sent (v : State) (kind : Nat) (b : List Byte) : State := { v with ethOut := v.ethOut ++
      [{ conn := h, kind, addr := a, bytes := b, ctx := c.ctx, epoch := (v.ctx c.ctx).epoch }] }
    let nak (v : State) : State := logEvent (sent v 3 [])
      { code := 0x12E3, ctx := c.ctx, data := [c.fn + 65536 * c.ctx, a % 2 ^ 32, a / 2 ^ 32, h] }
    (∀ v, windowUp s = true → inboundOk c key.toNat a bs.length true = true → writeDva s hubUnit c.ctx v0 a (good bs) = .ok v →
      let t := chargeOwners v c.ctx a bs.length
      (Unheld s t → exec (.rdmaWriteInbound h key a bs) s = .next t) ∧
      (let t1 := setFence t c.ctx f (fenceApply (fenceWord t c.ctx f) 1 1)
       (fencePlace s c.ctx f).isSome = true → Unheld s t1 → exec (.rdmaWriteImmInbound h key a bs imm) s = .next t1)) ∧
    (fencePlace s c.ctx f = none → exec (.rdmaWriteImmInbound h key a bs imm) s = .next (nak s)) ∧
    (∀ (m : List PByte) (v : State), windowUp s = true → inboundOk c key.toNat a len false = true →
      readDva s hubUnit c.ctx v0 a len 17 = .ok (m, v) →
      let t := chargeOwners (sent v 4 (m.map (·.1))) c.ctx a len
      (m.any (·.2) = false → Unheld s t → exec (.rdmaReadInbound h key a len) s = .next t) ∧
      (m.any (·.2) = true → exec (.rdmaReadInbound h key a len) s = .next (nak v))) ∧
    ((windowUp s = false ∨ inboundOk c key.toNat a bs.length true = false ∨
        ∃ e, writeDva s hubUnit c.ctx v0 a (good bs) = .error e) →
      exec (.rdmaWriteInbound h key a bs) s = .next (nak s) ∧ exec (.rdmaWriteImmInbound h key a bs imm) s = .next (nak s)) ∧
    (windowUp s = false ∨ inboundOk c key.toNat a len false = false → exec (.rdmaReadInbound h key a len) s = .next (nak s)) ∧
    (∀ (e : AccErr) (v : State), windowUp s = true → inboundOk c key.toNat a len false = true →
      readDva s hubUnit c.ctx v0 a len 17 = .error (e, v) → exec (.rdmaReadInbound h key a len) s = .next (nak v))) ∧
  (∀ s : State,
    (∀ (h : Nat) (c : Conn), tabFind s.conns h = some c →
      (c.outst ≠ [] → c.sentAt + 25000 ≤ s.hub → c.retries < 7 → exec (.rdmaRetransmitTimeout h) s =
        .next { s with conns := tabSet s.conns h { c with retries := c.retries + 1, sentAt := s.hub } }) ∧
      (c.outst ≠ [] → c.sentAt + 25000 ≤ s.hub → 7 ≤ c.retries → exec (.rdmaRetransmitTimeout h) s = .next (connError s h c)) ∧
      (∀ (p n : Nat) (rest : List (Nat × Nat)) (bs : List Byte), c.outst = (p, n) :: rest →
        let t : State := { s with conns := tabSet s.conns h { c with outst := rest, retries := 0, sentAt := s.hub } }
        (∀ i : Inst, (s.part p).frozen = false → s.inst? p n = some i → i.st = .running → i.overRdma = true →
          exec (.rdmaAckArrival h false bs) s = .next (t.setInst p n { i with ended := true }) ∧
          exec (.rdmaAckArrival h true bs) s = .next (killNode t p n 0x3282 i.data)) ∧
        ((s.part p).frozen = true → ∀ nak, exec (.rdmaAckArrival h nak bs) s = .next (t.setPart p { s.part p with
          answersHeld := (s.part p).answersHeld ++ [(n, if nak then .nak else .acknowledged)] }))) ∧
      (let d : Conn := { c with rate := rateNow s c / 2, rateAt := s.hub }
       exec (.congestionNotificationPacket h) s = .next { s with conns := tabSet s.conns h d })) ∧
    (∀ (port : Fin 2) (a : Nat), let t : State := { s with ethDiscard := tabMod 0 s.ethDiscard port (· + 1) }
      exec (.ethFrameDiscard port) s = .next t ∧
      exec (.arpNdRequest port a) s = .next (if a ∈ portAddrs (tabGet [] s.ethAddr port) then
        { s with ethOut := s.ethOut ++ [{ conn := port, kind := 5, addr := a, bytes := natLe 6 (portMac s port) }] } else t) ∧
      (let v : State := { s with ethAddr := tabSet s.ethAddr port (ethBlock s port) }
       exec (.ethLinkUp port) s = .next (if ethBlock s port = tabGet [] s.ethAddr port then v
        else extendMr v 3 (Config.sha256 s.ethRecord)))) ∧
    (∀ b : List Byte, s.mcRuns = true → let t : State := { s with ethRecord := b, fwUpdates := s.fwUpdates ++ [0x12] }
      exec (.ethAddressRecordWrite b) s = .next (if ethRecordOk b ∨ s.boot.stage = 7 then t
        else logEvent t { code := 0x12F6, data := [0x12, s.boot.stage] })))

/-- Lane pairs. A flit of 256 bytes on a live lane pair is received; flits unacknowledged for 20 µs, or lanes that lose lock, start a
retrain, which ends with traffic replayed once the partner's identity has come and takes the port DOWN where it fails; a DOWN port tries
to train every 2 s while there is a plan; identities are sent, 1 ms apart, until the partner's has come, a block that is none counts for
nothing, and the eighth partner's lets the port be checked;
a port never checked within its limit reads ABSENT. -/
def Obligations.LanesTrainAndRetrain : Prop :=
  ∀ (s : State) (k : Fin 6) (n : Fin 8), let l := s.lp k n
    (∀ (f : List Byte) (c : Nat) (ok : Bool), f.length = 256 → laneLive s k n = true →
      exec (.flitReceive k n f c ok) s = .next (receive s k n f c ok)) ∧
    (laneLive s k n = true → exec (.laneLockLoss k n) s = .next (startRetrain s k n) ∧
      (l.replay ≠ [] → l.lastAck + 500 ≤ s.hub → exec (.ackProgressTimeout k n) s = .next (startRetrain s k n))) ∧
    (l.retraining = true → exec (.retrainComplete k n false) s = .next (portDown s k n .down) ∧
      (l.seen = true → exec (.retrainComplete k n true) s = .next (retrained s k n))) ∧
    (s.plan.isSome = true → (s.port k).disable = false → ((s.port k).st = .down ∨ (s.port k).st = .training) →
      (s.port k).retryAt + 50000000 ≤ s.hub → exec (.portTrainingRetry k) s = .next (startPort s k)) ∧
    (exchanging s k n = true →
      (l.seen = false → (∀ t, l.identAt = some t → t + 25000 ≤ s.hub) → exec (.identitySend k n) s = .next
        { s.setLp k n { l with locked := true, identAt := some s.hub } with
          identOut := s.identOut ++ [((k : Nat), (n : Nat), identityBlock (s.myIdentity k n))] }) ∧
      (∀ (b : List Byte) (i : Identity), identityIn b = some i →
        (l.retraining = true → l.identity = some i →
          exec (.identityReceived k n b) s = .next (s.setLp k n { l with seen := true, locked := true })) ∧
        (l.retraining = true → l.identity ≠ some i → exec (.identityReceived k n b) s = .next (portDown s k n .down)) ∧
        (l.retraining = false → partnerRejected s k n i = false →
          let t := s.setLp k n { l with identity := some i, seen := true }
          exec (.identityReceived k n b) s =
            .next (if allParts.all (fun m => (t.lp k m).seen) then portCheck t k else t)))) ∧
    (∀ a, (s.port k).absentBy = some a → a ≤ s.hub → exec (.absentLimitExpiry k) s =
      .next (logCheck (s.setPort k { s.port k with absentBy := none, check := 4 }) k 4 (s.port k).check none))

/-- Packets. The first packet at the head of a class that can go is forwarded through the port that its route gives, on the virtual channel of that hop; with no usable port
it is answered ROUTE_DOWN; a reduction packet that has waited 1 ms without an arm is discarded and answered. A WRITE, ADD or SIGNAL for this module leaves its queue,
is applied and answered with the status of its checks; an ACK goes to its transaction; a new ABORT is taken and flooded on, a repeat is
dropped and counts as seen now; cancelled arms match no more after 2 ms. -/
def Obligations.PacketsAreServed : Prop :=
  ∀ (s : State) (k : Fin 6) (n : Fin 8) (i : Nat) (q : Packet), let l := s.lp k n
    (headPacket l (fun q => passing s q && forwardable s k n q) = some (i, q) →
      (∀ out, s.routePort q.destModule = some out → s.portUsable out = true → reduces q = false →
        let q1 := { q with vc := s.nextVc k q.vc out }
        exec (.packetForward k n) s = .next (txFrom (takeHead s k n i q) out n k q1)) ∧
      (s.routePort q.destModule = none → exec (.packetForward k n) s = .next (answer (takeHead s k n i q) k n q 4)) ∧
      (∀ out, s.routePort q.destModule = some out → s.portUsable out = false →
        exec (.packetForward k n) s = .next (answer (noteErr (takeHead s k n i q) out 29) k n q 4))) ∧
    (headPacket l (fun q => passing s q && reduces q && match tabFind l.heldAt q.cls with | some t => t + 25000 ≤ s.hub | none => false) =
        some (i, q) → armMatch (s.part n) q = none →
      exec (.reduceHoldExpiry k n) s = .next (answer (logEvent (noteErr (takeHead s k n i q) k 28)
        { code := 0x12C7, data := fabData k n 5 q.srcModule q.srcCtx 0 }) k n q 5)) ∧
    (exec (.armCancelExpiry n) s = .next (activateArms (s.setPart n { s.part n with
      arms := (s.part n).arms.filter fun e => e.2.cancelAt.all fun t => (s.part n).count < t }) n)) ∧
    (∀ (c : Instr) (ty : Nat), (c = .writeArrival k n ∧ ty = 0 ∨ c = .addArrival k n ∧ ty = 1 ∨ c = .signalArrival k n ∧ ty = 2) →
      headPacket l (fun q => q.ptype == ty && q.destModule == s.moduleId) = some (i, q) → heldForExit s q = false →
      let r := deliver (takeHead s k n i q) k n q
      exec c s = .next (sendAck r.1 n (r.1.ackOf q r.2))) ∧
    (headPacket l (fun q => q.ptype == 3 && q.destModule == s.moduleId) = some (i, q) →
      exec (.fabricAckArrival k n) s = .next (takeAck (takeHead s k n i q) n q)) ∧
    (headPacket l (fun q => q.ptype == 4) = some (i, q) →
      let t := takeHead s k n i q
      let seen := t.abortsSeen.filter fun a => s.hub < a.2.2 + 250000000
      ((∃ a ∈ seen, a.1 = q.srcModule ∧ a.2.1 = q.rtag) → exec (.abort k n) s = .next { t with
        abortsSeen := seen.map fun a => if a.1 = q.srcModule ∧ a.2.1 = q.rtag then (a.1, a.2.1, s.hub) else a }) ∧
      ((∀ a ∈ seen, a.1 = q.srcModule → a.2.1 ≠ q.rtag) → exec (.abort k n) s = .next (pumpAll (jobAbortLocal (floodAbort
        { t with abortsSeen := seen ++ [(q.srcModule, q.rtag, s.hub)] } q (some k.val)) q.addrLo q.rtag q.low))))

/-- Watching over the module. The scrub reads its next line and goes on, and an uncorrectable line of context 0's frames is
Partition-fatal; a parity error is counted, the fifth in a row on its
pseudo-channel is Partition-fatal, in a bank and row that are free values (DESIGN CHOICE, log entry 12); woken stacks return to self-refresh after 100 µs. A heartbeat still for 2 ms, a tile that does not
stop within 2 µs and a hub core without service for 100 ms are fatal events; a kernel without progress for 10 ms is killed and runs
again; after 100 ms without service the watchdogs reset the partition, or stop the module, which then gives no more replies. -/
def Obligations.WatchdogsAndUpkeepAct : Prop :=
  ∀ (s : State) (p : Fin 8) (t : Fin 16), let P := s.part p
    (P.inService = true → P.reset = none → P.hbm.selfRefresh = false → let line := scrubLine P.hbm.scrub
      let v := (readLine (s.setPart p { P with hbm := { P.hbm with scrub := (P.hbm.scrub + 1) % stackLines } }) p line 19).2
      exec (.patrolScrubRead p) s = .next (if line ∈ P.hbm.ue ∧ systemLine ≤ line ∧ line < dpaLines then
        raise v { code := 0x42A7, part := some p, data := hbmData p line 19 } else v)) ∧
    (∀ c : Fin 96, s.pins.rails = true →
      (tabGet 0 P.hbm.ca c + 1 < 5 → exec (.hbmCaParityError p c) s =
        .next (s.setPart p { P with hbm := { P.hbm with ca := tabSet P.hbm.ca c (tabGet 0 P.hbm.ca c + 1) } })) ∧
      (4 ≤ tabGet 0 P.hbm.ca c → ∃ bank row, exec (.hbmCaParityError p c) s =
        .next (raise (State.setPart { s with free := s.free + 1 } p { P with hbm := { P.hbm with ca := tabDel P.hbm.ca c } })
          { code := 0x42A8, part := some p, data := [3 * p + c / 32, c % 32, bank, row] }))) ∧
    (∀ w, P.hbm.wokenAt = some w → P.act = 3 → w + 2500 ≤ P.count → exec (.hbmSelfRefreshReturn p) s =
      .next (s.setPart p { P with hbm := { P.hbm with selfRefresh := true, wokenAt := none } })) ∧
    (∀ r : Run, (s.tile p t).run = some r → r.ended = false → P.frozen = false → r.progress + 250000 ≤ P.count →
      exec (.tileHang p t) s = .next (killNode s p r.inst 0x3311 [p, t, 0x3311])) ∧
    (s.running = true →
      (P.inService = true → P.act ≠ 3 → P.beatAt + 50000 ≤ P.count → exec (.cpHeartbeatCheck p) s =
        .next (raise s { code := 0x4310, part := some p, data := [p, p, 0x4310] })) ∧
      (∀ a, (s.tile p t).killedAt = some a → a + 50 ≤ P.count → exec (.tileStopFail p t) s =
        .next (raise s { code := 0x4312, part := some p, data := [p, t, 0x4312] })) ∧
      (let v := logEvent s { code := 0x4313, part := some p, data := [p, p, 0x4313] }
       P.dcpAt + 2500000 ≤ P.count → dcpInReset s p = false → exec (.dcpWatchdog p) s = .next (startReset v p 0x4313 false true false true [])) ∧
      (s.mcpAt + 2500000 ≤ s.hub → ∃ v, exec .mcpWatchdog s = .next v ∧ v.stopped = true ∧ v.mcpReady = false ∧ v.faultN = false ∧
        (∀ e ∈ v.fns, e.2.events = []) ∧ ∀ e ∈ v.parts, e.2.reset = none) ∧
      (∀ c, s.mcpAt + 2500000 ≤ s.hub → exec (.hubCoreFail c) s = .next (raise s { code := 0x5315, data := [0, c, 0x5315] })))

/-- A partition reset goes on step by step: SUNDOWN_COMPLETE, PARTITION_COMPUTE_RESET, PARTITION_REINIT and PARTITION_RESET_END complete in
every state that has come to their step. SUNDOWN_COMPLETE lets what a save held go on, and with every commit phase over takes the dump and
ends Sundown. PARTITION_COMPUTE_RESET takes the compute part into reset, where the partition stays out of service at its limit or where it
was out of service before, and the stacks train where the memory path is the cause. PARTITION_REINIT brings the controllers back, their
memory restored where it was lost. PARTITION_RESET_END, with every core running, lets the partition serve again where the module is ready
and the partition not in test, writes its slots and banks back, logs its event and answers its waiters. -/
def Obligations.PartitionResetsRunTheirSteps : Prop :=
  ∀ (s : State) (p : Fin 8) (r : Reset), (s.part p).reset = some r →
    (∀ clean, r.step = .sundown → let u := thaw s p
      ((∀ e ∈ (u.part p).insts, e.2.st ≠ .committing) →
        let v := takeDump u p (r.dump || wd s.escal 4 == 1) clean r.stopped r.table
          { cause := r.cause, ctxMask := r.ctxMask, abandoned := r.abandoned }
        exec (.sundownComplete p clean) s = .next (v.setPart p { v.part p with reset := some { r with step := .compute } })) ∧
      ((∃ e ∈ (u.part p).insts, e.2.st = .committing) → exec (.sundownComplete p clean) s = .next u)) ∧
    (r.step = .compute → let v := computeReset s p
      let v1 := v.setPart p { v.part p with reset := some { r with step := .reinit } }
      (r.toOos = true ∨ r.stays = true → exec (.partitionComputeReset p) s = .next (resetToOos v p r)) ∧
      (r.toOos = false → r.stays = false → exec (.partitionComputeReset p) s =
        .next (if r.memPath then (stacksOf p).foldl startItem v1 else v1))) ∧
    (r.step = .reinit →
      let P := s.part p
      let v := s.setPart p { P with
        reset := some { r with step := .ending }, dcpAt := if r.dcp then P.count else P.dcpAt
        hbm := { P.hbm with selfRefresh := false } }
      let v1 := resetTiles { v with boot := { v.boot with cores := v.boot.cores.filter fun e => e.1 / 128 != p.val } } p
      (∀ b, r.memPath = false → exec (.partitionReinit p b) s = .next v1) ∧
      (r.memPath = true → (∀ i ∈ stacksOf p, s.item i = .done) →
        exec (.partitionReinit p true) s = .next (restoreMemory v1 p r.cause)) ∧
      (r.memPath = true → (∃ i ∈ stacksOf p, s.item i = .failed) →
        exec (.partitionReinit p false) s = .next (resetToOos s p r))) ∧
    (r.step = .ending → coresRun s p = true →
      let v := (s.ctxsOn p).foldl (fun s c => s.setCp c p (restoreCp (s.cp c p))) s
      let v1 := v.setPart p (leaveReset s (restorePartition (v.part p)))
      let dur := ((v1.part p).count - r.startedAt) / 25
      let v2 := (s.ctxsOn p).foldl (fun t c => settleSlots t c (loadsOn s c p))
        (logEvent v1 { code := 0x1316, part := some p, data := [p, p, r.cause, dur] })
      exec (.partitionResetEnd p) s = .next (releaseWaiters (boundaryIfIdle v2 p) p r.waiters 0 dur))

/-- Supplies and reset inputs. Standby power starts the Twilight island at hub count 0 and its loss leaves what needs no power; PWR_EN rising
starts the ramp, or waits until 500 ms after a fall; the rails rise only while the reference clock is present, which PWR_EN rising and
RESET_N rising find so again (DESIGN CHOICE, log entry 149); PWR_EN falling and RESET_N low stop the module and release FAULT_N; rails in
regulation with RESET_N high start Dawn; overtemperature, overcurrent and input faults switch the rails off and latch, with what the
Twilight island keeps of them, and one that follows another within 1 ms is kept beside it; a lost reference clock is Module-fatal. -/
def Obligations.SuppliesAndResetsAct : Prop :=
  ∀ s : State,
    (s.pins.standby = false → let pins := { s.pins with standby := true, latched := false, fellAt := none, refclk := true }
      exec .standbyPowerUp s = .next { s with hub := 0, twilight := [], early := [], keptCounts := none, resetCause := .standby, pins }) ∧
    (s.pins.standby = true → let pins : Pins := { pwrEn := s.pins.pwrEn, resetN := s.pins.resetN }
      exec .standbyPowerLoss s = .next
        { mainsOff s with hub := 0, twilight := [], early := [], keptCounts := none, resetCause := .standby, pins }) ∧
    (s.pins.standby = true → s.pins.pwrEn = false →
      let v : State := { markOrigin s with pins := { s.pins with pwrEn := true, refclk := true } }
      ((∀ t, s.pins.fellAt = some t → t + 12500000 ≤ s.hub) →
        exec .pwrEnRise s = .next (markOrigin { v with pins := { v.pins with ramping := true } })) ∧
      (∀ t, s.pins.fellAt = some t → s.hub < t + 12500000 → exec .pwrEnRise s = .next v)) ∧
    (∀ t, s.pins.fellAt = some t → s.pins.pwrEn = true → s.pins.ramping = false → s.pins.rails = false → s.pins.latched = false →
      t + 12500000 ≤ s.hub → exec .rampStartDelay s = .next (if s.pins.refclk then
        markOrigin { s with pins := { s.pins with ramping := true } } else s)) ∧
    (s.pins.pwrEn = true → let pins := { (mainsOff s).pins with pwrEn := false, latched := false, fellAt := some s.hub }
      exec .pwrEnFall s = .next { mainsOff s with faultN := true, resetCause := .pwrEn, pins }) ∧
    (s.pins.resetN = true → let pins := { (moduleReset s).pins with resetN := false }
      exec .resetNAssert s = .next { moduleReset s with faultN := true, resetCause := .resetN, pins }) ∧
    (s.pins.resetN = false → let v : State := { markOrigin s with pins := { s.pins with resetN := true, refclk := true } }
      exec .resetNDeassert s = .next (if s.pins.rails then beginDawn v else v)) ∧
    (s.pins.ramping = true → s.pins.refclk = true → let v : State := { s with pins := { s.pins with ramping := false, rails := true } }
      exec .railsInRegulation s = .next (if s.pins.resetN then beginDawn v else v)) ∧
    (∀ (c : Instr) (code : Nat), (c = .thermalTrip ∧ code = 0x5303 ∨ c = .overcurrent ∧ code = 0x5304 ∨
        c = .inputOvervoltage ∧ code = 0x5307 ∨ c = .inputUndervoltage ∧ code = 0x5306) →
      let pins := { (mainsOff s).pins with latched := true }
      ((s.pins.rails = true ∨ s.pins.ramping = true) → exec c s = .next { mainsOff s with
        faultN := false, resetCause := .shutOff code, twilight := [[code, s.hub, s.power.inputMv, s.power.input10ma]], pins }) ∧
      (∀ l, s.pins.rails = false → s.pins.ramping = false → s.pins.latched = true → s.twilight.getLast? = some l →
        s.hub < wd l 1 + 25000 →
        exec c s = .next { s with twilight := s.twilight ++ [[code, s.hub, wd l 2, wd l 3]] })) ∧
    (let v : State := { s with pins := { s.pins with refclk := false } }
     (s.pins.pwrEn = true → s.running = true → exec .refclkLoss s =
       .next (raise v { code := 0x5305, data := [0, 0, s.power.e / 1000, s.power.dMw / 1000] })) ∧
     (s.pins.pwrEn = false ∨ s.running = false → exec .refclkLoss s = .next v))

/-- Bring-up. Dawn passes to Sunrise or halts; Sunrise boots a bank that verifies, measures, reads plan and map and starts Morning with
MCP_READY; cold training waits for settled dies; a training that passes is done, one that fails is refined, then cold, then repeated,
then failed; trained stacks are zeroed and take the Morning images; a core that has fetched an image with the right digest runs; a mounted
weight store and ready ports end with READINESS, which puts the partitions that came up in service and raises the readiness sensor; then settings are saved and the version counters raised once. -/
def Obligations.BringUpRunsItsStages : Prop :=
  ∀ s : State,
    (s.inStage 1 = true → exec (.dawnEnd true) s = .next { s with boot := { s.boot with
        stage := 2, dawnEndAt := s.hub, loaded := some s.sec.dieFuses } } ∧
      exec (.dawnEnd false) s = .next (haltEarly s 6)) ∧
    (∀ temps mv : List Nat, s.inStage 2 = true →
      let booted (bank : Bool) : State :=
        let run := if bank then s.sec.bankB else s.sec.bankA
        let s1 := twilightRecord (startLog { s with sec := { s.sec with runsB := bank, run } })
        let s2 := if bank = s.sec.activeB then s1 else logEvent s1 { code := 0x12F4, data := [0, 0, 0, 2] }
        let s3 := loadPlan (loadMap (measureBoot s2 s2.sec.running))
        let s4 := if s3.ethRecord = [] || ethRecordOk s3.ethRecord then s3 else logEvent s3 { code := 0x12F6, data := [0x12, 2] }
        let boot := { s4.boot with stage := 3, cmi := true, temps, railsMv := mv }
        let parts := allParts.foldl (fun t p => tabMod {} t p fun P => { P with dcpAt := P.count }) s4.parts
        startMorning { s4 with mcpReady := true, mcpAt := s4.hub, parts, faultN := !s4.moduleOos, boot }
      exec (.sunriseEnd temps mv) s = .next (match bootBank { s.sec with counters := s.loadedFuses.counters } with | some bank => booted bank | none => haltEarly s 7)) ∧
    (s.boot.settled = false → s.boot.cmi = true → s.boot.dawnEndAt + 125000000 ≤ s.hub →
      let items := tabMap s.boot.items fun _ t => if t == .waitCold then .cold else t
      exec .thermalSettle s = .next { s with boot := { s.boot with settled := true, items } }) ∧
    (∀ i : Fin 72,
      ((s.item i = .saved ∨ s.item i = .refining ∨ s.item i = .cold ∨ s.item i = .coldRetry) →
        exec (.trainingItemDone i true) s = .next (itemDone s i)) ∧
      (s.item i = .saved → let v := (trainRetry s i).setItem i .refining
        exec (.trainingItemDone i false) s = .next { v with boot := { v.boot with
          refined := setIns v.boot.refined i, worked := setIns v.boot.worked i } }) ∧
      (s.item i = .refining → exec (.trainingItemDone i false) s = .next (startCold (trainRetry s i) i)) ∧
      (s.item i = .cold → exec (.trainingItemDone i false) s = .next ((trainRetry s i).setItem i .coldRetry)) ∧
      (s.item i = .coldRetry → exec (.trainingItemDone i false) s = .next (itemFailed s i))) ∧
    (∀ p : Fin 8, (s.inStage 3 = true ∨ (s.part p).testExit.isSome = true) → stacksDone s p = true → (p : Nat) ∉ s.boot.zeroed →
      exec (.partitionZeroed p) s =
        .next (placeImages (zeroHbm { s with boot := { s.boot with zeroed := setIns s.boot.zeroed p } } p) p)) ∧
    (∀ (p : Fin 8) (c : Fin 113), imagesPlaced s p = true → let m := 128 * p.val + c.val
      let put (v : Nat) : State := { s with boot := { s.boot with cores := tabSet s.boot.cores m v } }
      (tabGet 0 s.boot.cores m < 2 → fetchedOk s p c = true → (s.part p).testExit = none →
        exec (.morningCoreVerify p c true) s = .next (put 2)) ∧
      (∀ ok, ok = false ∨ fetchedOk s p c = false →
        (tabGet 0 s.boot.cores m = 0 → exec (.morningCoreVerify p c ok) s = .next (put 1)) ∧
        (tabGet 0 s.boot.cores m = 1 → exec (.morningCoreVerify p c ok) s = .next (coreFailed (put 3) p c)))) ∧
    (s.inStage 3 = true → s.nvws.mounted = false → exec (.nvwsMountDone false) s = .next (haltMorning s) ∧
      exec (.nvwsMountDone true) s = .next { s with nvws := { s.nvws with mounted := true } }) ∧
    (s.inStage 3 = true → s.stopped = false → (∀ p ∈ allParts, partOut s p = true ∨ partUp s p = true) →
      s.nvws.mounted = true → fabricReady s = true →
      let v := allParts.foldl (fun v p => v.setPart p (if partOut s p then
        { v.part p with hbm := { (v.part p).hbm with selfRefresh := true } } else enterService (v.part p))) s
      ∃ t, exec .readiness s = .next t ∧ t.ready = true ∧ t.readySensor = true ∧ t.parts = v.parts ∧ t.ctxs = s.ctxs ∧ t.ports = s.ports ∧
        t.boot.stage = (if s.plan.any (fun b => !allPorts.any (planWaive b)) then 4 else 5) ∧ t.boot.readyAt = s.hub) ∧
    (∀ (i : Fin 72) (c mv : Nat), s.ready = true → (i : Nat) ∈ s.boot.refined → s.item i = .done → ∃ r : SavedRec,
      exec (.savedRecordWrite i c mv) s = .next { s with
        saved := tabSet s.saved i r, boot := { s.boot with refined := setDel s.boot.refined i } } ∧
      r.tempC = c ∧ r.railMv = mv ∧ r.at_ = s.hub ∧ r.fw = bunVersion s.sec.running) ∧
    (s.ready = true → s.sec.raised = false → bunAdvance s.sec.running = true →
      let c : Sec := { raiseFuses s.sec s.sec.running with raised := true }
      let ev : Ev := { code := 0x12F8, data := [bunVersion s.sec.running, bunKey s.sec.running,
                                                c.counters.foldl (fun a x => 256 * a + x) 0] }
      exec .fwSvnRaise s = .next (if c.fuseBytes = s.sec.fuseBytes then { s with sec := c }
        else logEvent (extendMr { s with sec := c } 2 c.fuseBytes) ev))

/-- Power in service. A partition whose target lies deeper steps down one activity state where the envelope allows, and an exit brings it
back to A0; A4 is entered where every condition holds, with the die counts kept, and left with memory, codebooks, ports and counts restored; ENVELOPE_UPDATE moves the
envelope as R957 says; filler starts on an empty tile of an unthrottled A0 partition while demand lies below the envelope; a hot die
loses a sixteenth of its duty every 100 µs, a cool one gains it back every 1 ms; a hot outlet holds THERM_N low until it has cooled. -/
def Obligations.PowerStatesAndProtection : Prop :=
  ∀ (s : State) (p : Fin 8) (t : Fin 16), let P := s.part p
    let dark (v : State) : State := allTiles.foldl (fun v t => v.setTile p t { v.tile p t with filler := false }) v
    (∀ mw, s.running = true → P.act < 3 → targetAt s p (P.act + 1) = true → s.power.e ≤ mw + 45000 →
      let hbm := { P.hbm with selfRefresh := P.act + 1 == 3, wokenAt := none }
      exec (.activityStepDown p mw) s = .next (dark (s.setPart p { P with act := P.act + 1, actAt := P.count, hbm }))) ∧
    (1 ≤ P.act → P.act ≤ 3 → let hbm := { P.hbm with selfRefresh := false, wokenAt := none }
      let beatAt := if P.act = 3 then P.count else P.beatAt
      exec (.activityExit p) s = .next (s.setPart p { P with act := 0, actAt := P.count, idleAt := none, beatAt, hbm })) ∧
    (s.ready = true → s.running = true → s.power.a4 = false → mayEnterA4 s = true →
      let off (v : State) (q : Nat) : State :=
        let hbm := { (v.part q).hbm with mem := memZero (v.part q).hbm.mem 0 (64 * systemLine), poison := [], ue := [], ce := [] }
        resetTiles (v.setPart q { v.part q with act := 4, actAt := (v.part q).count, idleAt := none, hbm }) q
      let v := allPorts.foldl (fun v k => if (v.port k).st == .up then quietPort v k .down else v) (allParts.foldl off s)
      exec .a4Entry s = .next { v with
        power := { v.power with a4 := true, a4Ports := fpSaved s }
        keptCounts := some (s.hub, allParts.map fun q => (s.part q).count) }) ∧
    (s.power.a4 = true → s.running = true →
      exec .a4Exit s = .next (allPorts.foldl (fun v k =>
          if v.plan.isSome && (v.port k).st == .down && !(v.port k).disable then startPort v k else v)
        (allParts.foldl wakePart { reloadCounts s with power := { s.power with a4 := false, a4Waking := false, a4Ports := [] } }))) ∧
    (∀ (t : Nat) (l : List Nat), s.keptCounts = some (t, l) →
      ((reloadCounts s).parts = tabMap s.parts fun q Q => { Q with count := (wd l q + (s.hub - t)) % 2 ^ 64 }) ∧
      { reloadCounts s with parts := s.parts, keptCounts := s.keptCounts } = s) ∧
    (∀ m : Measured, s.ready = true → s.running = true → s.power.nextAt ≤ s.hub →
      let e := nextE s.power.e m.dMw (s.power.capSteps * 25000) (s.power.floorPct * m.aMw / 100)
      ∃ w, w.e = e ∧ w.dMw = m.dMw ∧ w.nextAt = s.hub + 250 ∧ w.capSteps = s.power.capSteps ∧ w.floorPct = s.power.floorPct ∧
        (m.dMw + m.fillerMw < e → s.power.short = false → exec (.envelopeUpdate m) s = .next
          (logEvent { s with power := w } { code := 0x1301, data := [0, m.powerW, e / 1000, m.dMw / 1000] })) ∧
        (e ≤ m.dMw → exec (.envelopeUpdate m) s = .next (allParts.foldl noFiller { s with power := w })) ∧
        (m.dMw < e → (e ≤ m.dMw + m.fillerMw ∨ s.power.short = true) → exec (.envelopeUpdate m) s = .next { s with power := w })) ∧
    (P.inService = true → P.reset = none → P.act = 0 → P.duty = 16 → (s.tile p t).run = none → s.power.dMw < s.power.e →
      exec (.fillerStart p t) s = .next (s.setTile p t { s.tile p t with filler := true })) ∧
    (s.pins.rails = true →
      (∀ cool, P.throttling = true → P.throttleAt + 2500 ≤ P.count → exec (.thermalThrottleStep p true cool) s =
        .next (setThermN (dark (s.setPart p { P with duty := P.duty - 1, throttling := true, throttleAt := P.count })))) ∧
      (∀ cool, P.throttling = false →
        let v := dark (s.setPart p { P with duty := P.duty - 1, throttling := true, throttleAt := P.count })
        exec (.thermalThrottleStep p true cool) s = .next (setThermN (logOrKeep v
          { code := 0x1300, part := some p, data := powerData v p v.power.maxDieC }))) ∧
      (P.duty < 16 → P.throttleAt + 25000 ≤ P.count → exec (.thermalThrottleStep p false true) s = .next (setThermN
        (s.setPart p { P with duty := P.duty + 1, throttling := decide (P.duty + 1 < 16), throttleAt := P.count }))) ∧
      (s.pins.outletHot = false → let v := setThermN { s with pins := { s.pins with outletHot := true } }
        exec .coolantOutletHigh s = .next (logOrKeep v { code := 0x2302, data := powerData v 0 v.power.outletC }))) ∧
    (let pins := { s.pins with outletHot := false, thermN := !throttled s }
     exec .thermNRelease s = .next { s with pins })

/-- Records and the sideband, while the management controller runs, in Recovery too but for the sensors. A firmware bundle goes into the
inactive bank, which becomes the active one only where it verifies, and PLDM reports whether it does; a VF map and a cabling plan are stored, a plan in service at once with
the ports it affects where it is valid, but for a new MODULE_ID; sensors and ALERT_N follow their commands. The JTAG instruction is held
as it is given; it acts as BYPASS where it is not one of the four and the debug level is not 2, EXTEST as SAMPLE/PRELOAD while RESET_N is
high. -/
def Obligations.RecordsAndSidebandAct : Prop :=
  ∀ s : State,
    (s.mcRuns = true →
      let took (k : Nat) : State := { s with fwUpdates := s.fwUpdates ++ [k] }
      (∀ b : List Byte, let ok := bundleOk s.sec b
        let put := if s.sec.activeB then { s.sec with bankA := b, badA := !ok } else { s.sec with bankB := b, badB := !ok }
        let n := s.sec.counters.foldl (fun a x => 256 * a + x) 0
        let u : State := { took 0x01 with fwResults := s.fwResults ++ [ok] }
        exec (.firmwareBundleUpdate b) s = .next (if ok then { u with sec := { put with activeB := !s.sec.activeB } }
          else logOrKeep { u with sec := put } { code := 0x12F7, data := [bunVersion b, bunKey b, n] })) ∧
      (∀ b : List Byte, let t (w : Bool) : State := { took 0x10 with planStored := some b, planWaits := w }
        (s.mcpReady = false → exec (.cablingPlanWrite b) s = .next (t true)) ∧
        (∀ o, s.mcpReady = true → planFault b = some o →
          exec (.cablingPlanWrite b) s = .next (logEvent (t true) { code := 0x22D1, data := [o] })) ∧
        (∀ old, s.mcpReady = true → planFault b = none → s.plan = some old → let u := t (planId b != s.moduleId)
          exec (.cablingPlanWrite b) s = .next (if planRest b = planRest old then u else applyPlan u old b))) ∧
      (∀ b : List Byte, exec (.vfMapWrite b) s = .next { took 0x11 with pcie := { s.pcie with mapRecord := b } }) ∧
      (∀ v : List Nat, s.boot.stage ≠ 7 → exec (.pldmSensorRefresh v) s = .next { s with sensors := sensorValues s v }) ∧
      exec .smbusAlertResponse s = .next { s with pins := { s.pins with alertN := true } }) ∧
    (∀ c, ∃ t, exec (.jtagInstruction c) s = .next t ∧ t.jtag = c ∧ { t with jtag := s.jtag, jtagDr := s.jtagDr, free := s.free } = s ∧
      jtagActs t = (if 4 ≤ c ∧ s.dbgLevel ≠ 2 then 0 else if c = 3 ∧ s.pins.resetN = true then 2 else c) ∧
      (jtagActs t = 0 → t.jtagDr = 0) ∧ (jtagActs t = 1 → t.jtagDr = 0x10576C63))

/-- The six header words of a packet spell it: reading them back gives every field, for a packet whose fields fit into their places, with its
data. -/
def Obligations.PacketHeaderRoundTrip : Prop :=
  ∀ q : Packet, PacketFits q → packetOf q.words q.data = q ∧ q.words.length = 6 ∧ ∀ w ∈ q.words, w < 2 ^ 32

/-- No command touches the queue of waiting commands: a sender's order of commands is kept whatever they do. -/
def Obligations.CommandsKeepTheQueue : Prop :=
  ∀ (c : Instr) (s t : State), exec c s = .next t → t.pending = s.pending

/-- Debug never leaves a level that R1057 gives, and no level above 0 goes without its mark: every step from a state where the level is at
most 2 and DBG_STATUS.EVER is set above 0 leads to such a state. -/
def Obligations.StepsKeepDebugMarked : Prop :=
  ∀ s t : State, DebugMarked s → step s = .next t → DebugMarked t

/-- Every step keeps every memory of the module, device memories, scratchpads and mailbox buffers, in its one canonical form, so that equal
memories are equal data (the model's own invariant: log entry 6). -/
def Obligations.StepsKeepMemoryCanonical : Prop :=
  ∀ s t : State, MemoryCanonical s → step s = .next t → MemoryCanonical t

/-- The module at reset: the queue is empty, the memories are canonical, no debug level is set and none has been; the main rails are off, no
partition serves, no context is open, the mailbox is not ready, MR0 to MR7 are zero, the log is empty and the escalation limits are the
shipped ones; FAULT_N, THERM_N and ALERT_N are high (log entries 9 and 10: what the spec leaves open is the model's choice). -/
def Obligations.ResetStateIsClean : Prop :=
  let s := State.reset
  s.pending = [] ∧ MemoryCanonical s ∧ DebugMarked s ∧ s.dbgLevel = 0 ∧ s.sec.ever = false ∧ s.pins.rails = false ∧
  (∀ p, (s.part p).inService = false) ∧ (∀ c, (s.ctx c).st = .free) ∧ s.mcpReady = false ∧ s.ready = false ∧
  s.sec.mr = List.replicate 8 (List.replicate 32 0) ∧ s.log.general = [] ∧ s.log.fatal = [] ∧ s.escal = [3, 10, 6, 60, 1] ∧
  s.faultN = true ∧ s.pins.thermN = true ∧ s.pins.alertN = true
end

