-- ==== Sys2Proof/Laws/Memory.lean ====
section
/-! SUPPORT. Tables and memories: what is read after a write, and that every operation keeps the canonical form. -/

namespace Sys2Proof.Machine

/-! Tables. -/

variable {α : Type}

/-- What is put at a key is found there. -/
@[simp] theorem tabFind_tabSet (t : Tab α) (k : Nat) (x : α) : tabFind (tabSet t k x) k = some x := by
  induction t with
  | nil => simp [tabSet, tabFind]
  | cons e t ih =>
    obtain ⟨j, y⟩ := e
    simp only [tabSet]
    split
    · simp [tabFind]
    · split
      · simp [tabFind]
      · simp [tabFind, *]

/-- Every other key keeps its entry. -/
@[simp] theorem tabFind_tabSet_ne (t : Tab α) {k j : Nat} (x : α) (h : j ≠ k) : tabFind (tabSet t k x) j = tabFind t j := by
  induction t with
  | nil => simp [tabSet, tabFind, h]
  | cons e t ih =>
    obtain ⟨i, y⟩ := e
    simp only [tabSet]
    split
    · simp [tabFind, h]
    · split
      · rename_i h1 h2
        have h3 : j ≠ i := h2 ▸ h
        simp [tabFind, h, h3]
      · simp [tabFind, ih]

@[simp] theorem tabGet_tabSet (d : α) (t : Tab α) (k : Nat) (x : α) : tabGet d (tabSet t k x) k = x := by simp [tabGet]

@[simp] theorem tabGet_tabSet_ne (d : α) (t : Tab α) {k j : Nat} (x : α) (h : j ≠ k) : tabGet d (tabSet t k x) j = tabGet d t j := by
  simp [tabGet, h]

@[simp] theorem tabFind_tabDel_ne (t : Tab α) {k j : Nat} (h : j ≠ k) : tabFind (tabDel t k) j = tabFind t j := by
  induction t with
  | nil => rfl
  | cons e t ih =>
    obtain ⟨i, y⟩ := e
    simp only [tabDel]
    split
    · rename_i h1
      have h2 : j ≠ i := h1 ▸ h
      simp [tabFind, h2]
    · simp [tabFind, ih]

/-- An entry of a table after a put is the new one or an old one. -/
theorem tabSet_mem {t : Tab α} {k : Nat} {x : α} {e : Nat × α} (h : e ∈ tabSet t k x) : e = (k, x) ∨ e ∈ t := by
  induction t with
  | nil => simpa [tabSet] using h
  | cons f t ih =>
    obtain ⟨j, y⟩ := f
    simp only [tabSet] at h
    split at h
    · simpa using h
    · split at h
      · rcases List.mem_cons.1 h with h | h
        · exact .inl h
        · exact .inr (List.mem_cons_of_mem _ h)
      · rcases List.mem_cons.1 h with h | h
        · exact .inr (h ▸ List.mem_cons_self)
        · exact (ih h).imp_right (List.mem_cons_of_mem _)

/-- What is found under a key is an entry. -/
theorem tabFind_mem {t : Tab α} {k : Nat} {x : α} (h : tabFind t k = some x) : (k, x) ∈ t := by
  induction t with
  | nil => simp [tabFind] at h
  | cons e t ih =>
    obtain ⟨j, y⟩ := e
    simp only [tabFind] at h
    split at h
    · rename_i h1
      cases h
      simp [h1]
    · exact List.mem_cons_of_mem _ (ih h)

/-- What tabMap leaves under a key. -/
theorem tabFind_tabMap (t : Tab α) (f : Nat → α → α) (k : Nat) : tabFind (tabMap t f) k = (tabFind t k).map (f k) := by
  induction t with
  | nil => rfl
  | cons e t ih =>
    obtain ⟨j, x⟩ := e
    simp only [tabMap, List.map_cons, tabFind]
    split
    · rename_i h
      subst h
      rfl
    · exact ih

/-- A removal leaves entries of the table. -/
theorem tabDel_mem {t : Tab α} {k : Nat} {e : Nat × α} (h : e ∈ tabDel t k) : e ∈ t := by
  induction t with
  | nil => simp [tabDel] at h
  | cons f t ih =>
    obtain ⟨j, y⟩ := f
    simp only [tabDel] at h
    split at h
    · exact List.mem_cons_of_mem _ h
    · rcases List.mem_cons.1 h with h | h
      · exact h ▸ List.mem_cons_self
      · exact List.mem_cons_of_mem _ (ih h)

/-! Memories: reading after a write. -/

/-- A byte that is not written keeps its value. -/
@[simp] theorem memByte_memPut_ne (m : Mem) {a b : Nat} (x : Byte) (h : b ≠ a) : memByte (memPut m a x) b = memByte m b := by
  induction m with
  | nil =>
    simp only [memPut]
    split <;> simp [memByte, h]
  | cons c m ih =>
    obtain ⟨i, y⟩ := c
    simp only [memPut]
    split
    · split <;> simp [memByte, h]
    · split
      · rename_i h1 h2
        have h3 : b ≠ i := h2 ▸ h
        split <;> simp [memByte, h, h3]
      · simp [memByte, ih]

/-- The form of a list with a first cell. -/
theorem wfFrom_cons {o : Option Nat} {a : Nat} {x : Byte} {m : Mem} : Mem.wfFrom o ((a, x) :: m) = true ↔
    (∀ l, o = some l → l < a) ∧ x ≠ 0 ∧ Mem.wfFrom (some a) m = true := by
  cases o <;> simp [Mem.wfFrom, and_assoc]

/-- An address below every listed one reads 0. -/
theorem memByte_below {m : Mem} {lo a : Nat} (h : Mem.wfFrom (some lo) m = true) (ha : a ≤ lo) : memByte m a = 0 := by
  induction m generalizing lo with
  | nil => rfl
  | cons c m ih =>
    obtain ⟨i, y⟩ := c
    obtain ⟨h1, -, h2⟩ := wfFrom_cons.1 h
    have h3 := h1 lo rfl
    have h4 : a ≠ i := by omega
    simp [memByte, h4, ih h2 (by omega)]

/-- The byte that is written is read back. -/
theorem memByte_memPut_from {m : Mem} {o : Option Nat} (h : Mem.wfFrom o m = true) (a : Nat) (x : Byte) :
    memByte (memPut m a x) a = x := by
  induction m generalizing o with
  | nil =>
    simp only [memPut]
    split <;> simp [memByte, *]
  | cons c m ih =>
    obtain ⟨i, y⟩ := c
    obtain ⟨-, -, hm⟩ := wfFrom_cons.1 h
    simp only [memPut]
    split
    · rename_i h1
      split
      · rename_i h2
        have h3 : a ≠ i := by omega
        simp [memByte, h2, h3, memByte_below hm (Nat.le_of_lt h1)]
      · simp [memByte]
    · split
      · rename_i h1 h2
        split
        · rename_i h3
          rw [h3, h2]
          exact memByte_below hm (Nat.le_refl _)
        · simp [memByte]
      · rename_i h1 h2
        simp [memByte, h2, ih hm]

theorem memByte_memPut {m : Mem} (h : m.wf = true) (a : Nat) (x : Byte) : memByte (memPut m a x) a = x :=
  memByte_memPut_from h a x

/-- Bytes outside a write keep their values. -/
theorem memByte_memWrite_out (m : Mem) (a b : Nat) (xs : List Byte) (h : b < a ∨ a + xs.length ≤ b) :
    memByte (memWrite m a xs) b = memByte m b := by
  induction xs generalizing m a with
  | nil => rfl
  | cons x xs ih =>
    simp only [List.length_cons] at h
    rw [memWrite, ih _ _ (by omega), memByte_memPut_ne _ _ (by omega)]

/-! Memories: the canonical form. -/

/-- A looser bound holds as well. -/
theorem wfFrom_mono {m : Mem} {l : Nat} {o : Option Nat} (h : Mem.wfFrom (some l) m = true) (ho : ∀ k, o = some k → k ≤ l) :
    Mem.wfFrom o m = true := by
  match m, h with
  | [], _ => rfl
  | (i, y) :: m, h =>
    obtain ⟨h1, h2, h3⟩ := wfFrom_cons.1 h
    exact wfFrom_cons.2 ⟨fun k hk => Nat.lt_of_le_of_lt (ho k hk) (h1 l rfl), h2, h3⟩

/-- A put keeps the form, and its bound where the address lies above it. -/
theorem wfFrom_memPut {m : Mem} {o : Option Nat} (h : Mem.wfFrom o m = true) (a : Nat) (x : Byte)
    (ho : ∀ l, o = some l → l < a) : Mem.wfFrom o (memPut m a x) = true := by
  induction m generalizing o with
  | nil =>
    simp only [memPut]
    split
    · rfl
    · exact wfFrom_cons.2 ⟨ho, ‹_›, rfl⟩
  | cons c m ih =>
    obtain ⟨i, y⟩ := c
    obtain ⟨h1, h2, h3⟩ := wfFrom_cons.1 h
    simp only [memPut]
    split
    · rename_i h4
      split
      · exact h
      · exact wfFrom_cons.2 ⟨ho, ‹_›, wfFrom_cons.2 ⟨fun l hl => by cases hl; exact h4, h2, h3⟩⟩
    · split
      · rename_i h4 h5
        subst h5
        split
        · exact wfFrom_mono h3 fun k hk => Nat.le_of_lt (ho k hk)
        · exact wfFrom_cons.2 ⟨ho, ‹_›, h3⟩
      · exact wfFrom_cons.2 ⟨h1, h2, ih h3 fun l hl => by cases hl; omega⟩

/-- A put keeps the canonical form. -/
theorem memPut_wf {m : Mem} (h : m.wf = true) (a : Nat) (x : Byte) : (memPut m a x).wf = true :=
  wfFrom_memPut h a x fun _ hl => by cases hl

/-- A write of bytes keeps the canonical form. -/
theorem memWrite_wf {m : Mem} (h : m.wf = true) (a : Nat) (xs : List Byte) : (memWrite m a xs).wf = true := by
  induction xs generalizing m a with
  | nil => exact h
  | cons x xs ih => exact ih (memPut_wf h a x) (a + 1)

/-- Removing cells keeps the form. -/
theorem wfFrom_filter {m : Mem} {o : Option Nat} (h : Mem.wfFrom o m = true) (f : Nat × Byte → Bool) :
    Mem.wfFrom o (m.filter f) = true := by
  induction m generalizing o with
  | nil => rfl
  | cons c m ih =>
    obtain ⟨i, y⟩ := c
    obtain ⟨h1, h2, h3⟩ := wfFrom_cons.1 h
    rw [List.filter_cons]
    split
    · exact wfFrom_cons.2 ⟨h1, h2, ih h3⟩
    · exact wfFrom_mono (ih h3) fun k hk => Nat.le_of_lt (h1 k hk)

/-- Zeroing keeps the canonical form. -/
theorem memZero_wf {m : Mem} (h : m.wf = true) (a n : Nat) : (memZero m a n).wf = true := wfFrom_filter h _

/-- A zeroed byte reads 0, any other keeps its value. -/
theorem memByte_memZero (m : Mem) (a n b : Nat) : memByte (memZero m a n) b = if a ≤ b ∧ b < a + n then 0 else memByte m b := by
  induction m with
  | nil => simp [memZero, memByte]
  | cons c m ih =>
    obtain ⟨i, y⟩ := c
    have e : memZero ((i, y) :: m) a n = if i < a ∨ a + n ≤ i then (i, y) :: memZero m a n else memZero m a n := by
      simp [memZero, List.filter_cons]
    rw [e]
    split
    · rename_i h
      by_cases hb : b = i
      · subst hb
        have h2 : ¬(a ≤ b ∧ b < a + n) := by omega
        simp [memByte, h2]
      · simp [memByte, hb, ih]
    · rename_i h
      rw [ih]
      by_cases hb : b = i
      · subst hb
        have h2 : a ≤ b ∧ b < a + n := by omega
        simp [h2]
      · simp [memByte, hb]

/-- A write by a unit keeps the scratchpad's form. -/
theorem Spad.write_memOk {d : Spad} (h : d.memOk = true) (a : Nat) (bs : List Byte) (p : Bool) : (d.write a bs p).memOk = true :=
  memWrite_wf h a bs

/-- A write by a fabric packet keeps it. -/
theorem Spad.writeFabric_memOk {d : Spad} (h : d.memOk = true) (a : Nat) (bs : List Byte) : (d.writeFabric a bs).memOk = true :=
  memWrite_wf h a bs

/-- A marked write keeps it. -/
theorem Spad.writeMarked_memOk {d : Spad} (h : d.memOk = true) (a : Nat) (bs : List PByte) : (d.writeMarked a bs).memOk = true := by
  unfold Spad.writeMarked
  generalize pieces a bs.length = ps
  induction ps generalizing d with
  | nil => exact h
  | cons x ps ih => exact ih (Spad.write_memOk h _ _ _)

/-- The memories of the module at reset are canonical: nothing is listed. -/
theorem reset_memoryCanonical : MemoryCanonical State.reset := by
  unfold MemoryCanonical
  decide +kernel

end Sys2Proof.Machine
end

