-- ==== Sys2Proof/Laws/State.lean ====
section
/-! SUPPORT. What each update of the state leaves as it was, field by field, and what an accessor reads after it. -/

namespace Sys2Proof.Machine

/-! setTile writes tiles alone. -/

@[simp] theorem State.setTile_pending (s : State) (p t : Nat) (x : Tile) : (s.setTile p t x).pending = s.pending := rfl
@[simp] theorem State.setTile_parts (s : State) (p t : Nat) (x : Tile) : (s.setTile p t x).parts = s.parts := rfl
@[simp] theorem State.setTile_ctxs (s : State) (p t : Nat) (x : Tile) : (s.setTile p t x).ctxs = s.ctxs := rfl
@[simp] theorem State.setTile_fns (s : State) (p t : Nat) (x : Tile) : (s.setTile p t x).fns = s.fns := rfl
@[simp] theorem State.setTile_taken (s : State) (p t : Nat) (x : Tile) : (s.setTile p t x).taken = s.taken := rfl
@[simp] theorem State.setTile_rrLast (s : State) (p t : Nat) (x : Tile) : (s.setTile p t x).rrLast = s.rrLast := rfl
@[simp] theorem State.setTile_log (s : State) (p t : Nat) (x : Tile) : (s.setTile p t x).log = s.log := rfl
@[simp] theorem State.setTile_ops (s : State) (p t : Nat) (x : Tile) : (s.setTile p t x).ops = s.ops := rfl
@[simp] theorem State.setTile_nextOp (s : State) (p t : Nat) (x : Tile) : (s.setTile p t x).nextOp = s.nextOp := rfl
@[simp] theorem State.setTile_ports (s : State) (p t : Nat) (x : Tile) : (s.setTile p t x).ports = s.ports := rfl
@[simp] theorem State.setTile_hub (s : State) (p t : Nat) (x : Tile) : (s.setTile p t x).hub = s.hub := rfl
@[simp] theorem State.setTile_mcpReady (s : State) (p t : Nat) (x : Tile) : (s.setTile p t x).mcpReady = s.mcpReady := rfl
@[simp] theorem State.setTile_mcpAt (s : State) (p t : Nat) (x : Tile) : (s.setTile p t x).mcpAt = s.mcpAt := rfl
@[simp] theorem State.setTile_ready (s : State) (p t : Nat) (x : Tile) : (s.setTile p t x).ready = s.ready := rfl
@[simp] theorem State.setTile_stopped (s : State) (p t : Nat) (x : Tile) : (s.setTile p t x).stopped = s.stopped := rfl
@[simp] theorem State.setTile_faultN (s : State) (p t : Nat) (x : Tile) : (s.setTile p t x).faultN = s.faultN := rfl
@[simp] theorem State.setTile_abortSeq (s : State) (p t : Nat) (x : Tile) : (s.setTile p t x).abortSeq = s.abortSeq := rfl
@[simp] theorem State.setTile_abortsSeen (s : State) (p t : Nat) (x : Tile) : (s.setTile p t x).abortsSeen = s.abortsSeen := rfl
@[simp] theorem State.setTile_moduleId (s : State) (p t : Nat) (x : Tile) : (s.setTile p t x).moduleId = s.moduleId := rfl
@[simp] theorem State.setTile_flashFatal (s : State) (p t : Nat) (x : Tile) : (s.setTile p t x).flashFatal = s.flashFatal := rfl
@[simp] theorem State.setTile_nextFatal (s : State) (p t : Nat) (x : Tile) : (s.setTile p t x).nextFatal = s.nextFatal := rfl
@[simp] theorem State.setTile_pldm (s : State) (p t : Nat) (x : Tile) : (s.setTile p t x).pldm = s.pldm := rfl
@[simp] theorem State.setTile_pldmCounts (s : State) (p t : Nat) (x : Tile) : (s.setTile p t x).pldmCounts = s.pldmCounts := rfl
@[simp] theorem State.setTile_fatalLog (s : State) (p t : Nat) (x : Tile) : (s.setTile p t x).fatalLog = s.fatalLog := rfl
@[simp] theorem State.setTile_repairs (s : State) (p t : Nat) (x : Tile) : (s.setTile p t x).repairs = s.repairs := rfl
@[simp] theorem State.setTile_moduleOos (s : State) (p t : Nat) (x : Tile) : (s.setTile p t x).moduleOos = s.moduleOos := rfl
@[simp] theorem State.setTile_escal (s : State) (p t : Nat) (x : Tile) : (s.setTile p t x).escal = s.escal := rfl
@[simp] theorem State.setTile_planStored (s : State) (p t : Nat) (x : Tile) : (s.setTile p t x).planStored = s.planStored := rfl
@[simp] theorem State.setTile_planWaits (s : State) (p t : Nat) (x : Tile) : (s.setTile p t x).planWaits = s.planWaits := rfl
@[simp] theorem State.setTile_plan (s : State) (p t : Nat) (x : Tile) : (s.setTile p t x).plan = s.plan := rfl
@[simp] theorem State.setTile_fabFail (s : State) (p t : Nat) (x : Tile) : (s.setTile p t x).fabFail = s.fabFail := rfl
@[simp] theorem State.setTile_conns (s : State) (p t : Nat) (x : Tile) : (s.setTile p t x).conns = s.conns := rfl
@[simp] theorem State.setTile_ethOut (s : State) (p t : Nat) (x : Tile) : (s.setTile p t x).ethOut = s.ethOut := rfl
@[simp] theorem State.setTile_ethDiscard (s : State) (p t : Nat) (x : Tile) : (s.setTile p t x).ethDiscard = s.ethDiscard := rfl
@[simp] theorem State.setTile_ethRecord (s : State) (p t : Nat) (x : Tile) : (s.setTile p t x).ethRecord = s.ethRecord := rfl
@[simp] theorem State.setTile_ethAddr (s : State) (p t : Nat) (x : Tile) : (s.setTile p t x).ethAddr = s.ethAddr := rfl
@[simp] theorem State.setTile_nvws (s : State) (p t : Nat) (x : Tile) : (s.setTile p t x).nvws = s.nvws := rfl
@[simp] theorem State.setTile_loads (s : State) (p t : Nat) (x : Tile) : (s.setTile p t x).loads = s.loads := rfl
@[simp] theorem State.setTile_nextLoad (s : State) (p t : Nat) (x : Tile) : (s.setTile p t x).nextLoad = s.nextLoad := rfl
@[simp] theorem State.setTile_pcie (s : State) (p t : Nat) (x : Tile) : (s.setTile p t x).pcie = s.pcie := rfl
@[simp] theorem State.setTile_trcEn (s : State) (p t : Nat) (x : Tile) : (s.setTile p t x).trcEn = s.trcEn := rfl
@[simp] theorem State.setTile_trcMade (s : State) (p t : Nat) (x : Tile) : (s.setTile p t x).trcMade = s.trcMade := rfl
@[simp] theorem State.setTile_dbgLevel (s : State) (p t : Nat) (x : Tile) : (s.setTile p t x).dbgLevel = s.dbgLevel := rfl
@[simp] theorem State.setTile_cycles (s : State) (p t : Nat) (x : Tile) : (s.setTile p t x).cycles = s.cycles := rfl
@[simp] theorem State.setTile_pins (s : State) (p t : Nat) (x : Tile) : (s.setTile p t x).pins = s.pins := rfl
@[simp] theorem State.setTile_boot (s : State) (p t : Nat) (x : Tile) : (s.setTile p t x).boot = s.boot := rfl
@[simp] theorem State.setTile_saved (s : State) (p t : Nat) (x : Tile) : (s.setTile p t x).saved = s.saved := rfl
@[simp] theorem State.setTile_power (s : State) (p t : Nat) (x : Tile) : (s.setTile p t x).power = s.power := rfl
@[simp] theorem State.setTile_sec (s : State) (p t : Nat) (x : Tile) : (s.setTile p t x).sec = s.sec := rfl
@[simp] theorem State.setTile_twilight (s : State) (p t : Nat) (x : Tile) : (s.setTile p t x).twilight = s.twilight := rfl
@[simp] theorem State.setTile_resetCause (s : State) (p t : Nat) (x : Tile) : (s.setTile p t x).resetCause = s.resetCause := rfl
@[simp] theorem State.setTile_early (s : State) (p t : Nat) (x : Tile) : (s.setTile p t x).early = s.early := rfl
@[simp] theorem State.setTile_hbmOp (s : State) (p t : Nat) (x : Tile) : (s.setTile p t x).hbmOp = s.hbmOp := rfl
@[simp] theorem State.setTile_quotes (s : State) (p t : Nat) (x : Tile) : (s.setTile p t x).quotes = s.quotes := rfl
@[simp] theorem State.setTile_jtag (s : State) (p t : Nat) (x : Tile) : (s.setTile p t x).jtag = s.jtag := rfl
@[simp] theorem State.setTile_jtagDr (s : State) (p t : Nat) (x : Tile) : (s.setTile p t x).jtagDr = s.jtagDr := rfl
@[simp] theorem State.setTile_sensors (s : State) (p t : Nat) (x : Tile) : (s.setTile p t x).sensors = s.sensors := rfl
@[simp] theorem State.setTile_readySensor (s : State) (p t : Nat) (x : Tile) : (s.setTile p t x).readySensor = s.readySensor := rfl
@[simp] theorem State.setTile_fwUpdates (s : State) (p t : Nat) (x : Tile) : (s.setTile p t x).fwUpdates = s.fwUpdates := rfl
@[simp] theorem State.setTile_fwResults (s : State) (p t : Nat) (x : Tile) : (s.setTile p t x).fwResults = s.fwResults := rfl
@[simp] theorem State.setTile_keptCounts (s : State) (p t : Nat) (x : Tile) : (s.setTile p t x).keptCounts = s.keptCounts := rfl
@[simp] theorem State.setTile_identOut (s : State) (p t : Nat) (x : Tile) : (s.setTile p t x).identOut = s.identOut := rfl
@[simp] theorem State.setTile_flitOut (s : State) (p t : Nat) (x : Tile) : (s.setTile p t x).flitOut = s.flitOut := rfl
@[simp] theorem State.setTile_hostOut (s : State) (p t : Nat) (x : Tile) : (s.setTile p t x).hostOut = s.hostOut := rfl
@[simp] theorem State.setTile_cpls (s : State) (p t : Nat) (x : Tile) : (s.setTile p t x).cpls = s.cpls := rfl
@[simp] theorem State.setTile_free (s : State) (p t : Nat) (x : Tile) : (s.setTile p t x).free = s.free := rfl

/-! setPart writes parts alone. -/

@[simp] theorem State.setPart_pending (s : State) (p : Nat) (x : Part) : (s.setPart p x).pending = s.pending := rfl
@[simp] theorem State.setPart_tiles (s : State) (p : Nat) (x : Part) : (s.setPart p x).tiles = s.tiles := rfl
@[simp] theorem State.setPart_ctxs (s : State) (p : Nat) (x : Part) : (s.setPart p x).ctxs = s.ctxs := rfl
@[simp] theorem State.setPart_fns (s : State) (p : Nat) (x : Part) : (s.setPart p x).fns = s.fns := rfl
@[simp] theorem State.setPart_taken (s : State) (p : Nat) (x : Part) : (s.setPart p x).taken = s.taken := rfl
@[simp] theorem State.setPart_rrLast (s : State) (p : Nat) (x : Part) : (s.setPart p x).rrLast = s.rrLast := rfl
@[simp] theorem State.setPart_log (s : State) (p : Nat) (x : Part) : (s.setPart p x).log = s.log := rfl
@[simp] theorem State.setPart_ops (s : State) (p : Nat) (x : Part) : (s.setPart p x).ops = s.ops := rfl
@[simp] theorem State.setPart_nextOp (s : State) (p : Nat) (x : Part) : (s.setPart p x).nextOp = s.nextOp := rfl
@[simp] theorem State.setPart_ports (s : State) (p : Nat) (x : Part) : (s.setPart p x).ports = s.ports := rfl
@[simp] theorem State.setPart_hub (s : State) (p : Nat) (x : Part) : (s.setPart p x).hub = s.hub := rfl
@[simp] theorem State.setPart_mcpReady (s : State) (p : Nat) (x : Part) : (s.setPart p x).mcpReady = s.mcpReady := rfl
@[simp] theorem State.setPart_mcpAt (s : State) (p : Nat) (x : Part) : (s.setPart p x).mcpAt = s.mcpAt := rfl
@[simp] theorem State.setPart_ready (s : State) (p : Nat) (x : Part) : (s.setPart p x).ready = s.ready := rfl
@[simp] theorem State.setPart_stopped (s : State) (p : Nat) (x : Part) : (s.setPart p x).stopped = s.stopped := rfl
@[simp] theorem State.setPart_faultN (s : State) (p : Nat) (x : Part) : (s.setPart p x).faultN = s.faultN := rfl
@[simp] theorem State.setPart_abortSeq (s : State) (p : Nat) (x : Part) : (s.setPart p x).abortSeq = s.abortSeq := rfl
@[simp] theorem State.setPart_abortsSeen (s : State) (p : Nat) (x : Part) : (s.setPart p x).abortsSeen = s.abortsSeen := rfl
@[simp] theorem State.setPart_moduleId (s : State) (p : Nat) (x : Part) : (s.setPart p x).moduleId = s.moduleId := rfl
@[simp] theorem State.setPart_flashFatal (s : State) (p : Nat) (x : Part) : (s.setPart p x).flashFatal = s.flashFatal := rfl
@[simp] theorem State.setPart_nextFatal (s : State) (p : Nat) (x : Part) : (s.setPart p x).nextFatal = s.nextFatal := rfl
@[simp] theorem State.setPart_pldm (s : State) (p : Nat) (x : Part) : (s.setPart p x).pldm = s.pldm := rfl
@[simp] theorem State.setPart_pldmCounts (s : State) (p : Nat) (x : Part) : (s.setPart p x).pldmCounts = s.pldmCounts := rfl
@[simp] theorem State.setPart_fatalLog (s : State) (p : Nat) (x : Part) : (s.setPart p x).fatalLog = s.fatalLog := rfl
@[simp] theorem State.setPart_repairs (s : State) (p : Nat) (x : Part) : (s.setPart p x).repairs = s.repairs := rfl
@[simp] theorem State.setPart_moduleOos (s : State) (p : Nat) (x : Part) : (s.setPart p x).moduleOos = s.moduleOos := rfl
@[simp] theorem State.setPart_escal (s : State) (p : Nat) (x : Part) : (s.setPart p x).escal = s.escal := rfl
@[simp] theorem State.setPart_planStored (s : State) (p : Nat) (x : Part) : (s.setPart p x).planStored = s.planStored := rfl
@[simp] theorem State.setPart_planWaits (s : State) (p : Nat) (x : Part) : (s.setPart p x).planWaits = s.planWaits := rfl
@[simp] theorem State.setPart_plan (s : State) (p : Nat) (x : Part) : (s.setPart p x).plan = s.plan := rfl
@[simp] theorem State.setPart_fabFail (s : State) (p : Nat) (x : Part) : (s.setPart p x).fabFail = s.fabFail := rfl
@[simp] theorem State.setPart_conns (s : State) (p : Nat) (x : Part) : (s.setPart p x).conns = s.conns := rfl
@[simp] theorem State.setPart_ethOut (s : State) (p : Nat) (x : Part) : (s.setPart p x).ethOut = s.ethOut := rfl
@[simp] theorem State.setPart_ethDiscard (s : State) (p : Nat) (x : Part) : (s.setPart p x).ethDiscard = s.ethDiscard := rfl
@[simp] theorem State.setPart_ethRecord (s : State) (p : Nat) (x : Part) : (s.setPart p x).ethRecord = s.ethRecord := rfl
@[simp] theorem State.setPart_ethAddr (s : State) (p : Nat) (x : Part) : (s.setPart p x).ethAddr = s.ethAddr := rfl
@[simp] theorem State.setPart_nvws (s : State) (p : Nat) (x : Part) : (s.setPart p x).nvws = s.nvws := rfl
@[simp] theorem State.setPart_loads (s : State) (p : Nat) (x : Part) : (s.setPart p x).loads = s.loads := rfl
@[simp] theorem State.setPart_nextLoad (s : State) (p : Nat) (x : Part) : (s.setPart p x).nextLoad = s.nextLoad := rfl
@[simp] theorem State.setPart_pcie (s : State) (p : Nat) (x : Part) : (s.setPart p x).pcie = s.pcie := rfl
@[simp] theorem State.setPart_trcEn (s : State) (p : Nat) (x : Part) : (s.setPart p x).trcEn = s.trcEn := rfl
@[simp] theorem State.setPart_trcMade (s : State) (p : Nat) (x : Part) : (s.setPart p x).trcMade = s.trcMade := rfl
@[simp] theorem State.setPart_dbgLevel (s : State) (p : Nat) (x : Part) : (s.setPart p x).dbgLevel = s.dbgLevel := rfl
@[simp] theorem State.setPart_cycles (s : State) (p : Nat) (x : Part) : (s.setPart p x).cycles = s.cycles := rfl
@[simp] theorem State.setPart_pins (s : State) (p : Nat) (x : Part) : (s.setPart p x).pins = s.pins := rfl
@[simp] theorem State.setPart_boot (s : State) (p : Nat) (x : Part) : (s.setPart p x).boot = s.boot := rfl
@[simp] theorem State.setPart_saved (s : State) (p : Nat) (x : Part) : (s.setPart p x).saved = s.saved := rfl
@[simp] theorem State.setPart_power (s : State) (p : Nat) (x : Part) : (s.setPart p x).power = s.power := rfl
@[simp] theorem State.setPart_sec (s : State) (p : Nat) (x : Part) : (s.setPart p x).sec = s.sec := rfl
@[simp] theorem State.setPart_twilight (s : State) (p : Nat) (x : Part) : (s.setPart p x).twilight = s.twilight := rfl
@[simp] theorem State.setPart_resetCause (s : State) (p : Nat) (x : Part) : (s.setPart p x).resetCause = s.resetCause := rfl
@[simp] theorem State.setPart_early (s : State) (p : Nat) (x : Part) : (s.setPart p x).early = s.early := rfl
@[simp] theorem State.setPart_hbmOp (s : State) (p : Nat) (x : Part) : (s.setPart p x).hbmOp = s.hbmOp := rfl
@[simp] theorem State.setPart_quotes (s : State) (p : Nat) (x : Part) : (s.setPart p x).quotes = s.quotes := rfl
@[simp] theorem State.setPart_jtag (s : State) (p : Nat) (x : Part) : (s.setPart p x).jtag = s.jtag := rfl
@[simp] theorem State.setPart_jtagDr (s : State) (p : Nat) (x : Part) : (s.setPart p x).jtagDr = s.jtagDr := rfl
@[simp] theorem State.setPart_sensors (s : State) (p : Nat) (x : Part) : (s.setPart p x).sensors = s.sensors := rfl
@[simp] theorem State.setPart_readySensor (s : State) (p : Nat) (x : Part) : (s.setPart p x).readySensor = s.readySensor := rfl
@[simp] theorem State.setPart_fwUpdates (s : State) (p : Nat) (x : Part) : (s.setPart p x).fwUpdates = s.fwUpdates := rfl
@[simp] theorem State.setPart_fwResults (s : State) (p : Nat) (x : Part) : (s.setPart p x).fwResults = s.fwResults := rfl
@[simp] theorem State.setPart_keptCounts (s : State) (p : Nat) (x : Part) : (s.setPart p x).keptCounts = s.keptCounts := rfl
@[simp] theorem State.setPart_identOut (s : State) (p : Nat) (x : Part) : (s.setPart p x).identOut = s.identOut := rfl
@[simp] theorem State.setPart_flitOut (s : State) (p : Nat) (x : Part) : (s.setPart p x).flitOut = s.flitOut := rfl
@[simp] theorem State.setPart_hostOut (s : State) (p : Nat) (x : Part) : (s.setPart p x).hostOut = s.hostOut := rfl
@[simp] theorem State.setPart_cpls (s : State) (p : Nat) (x : Part) : (s.setPart p x).cpls = s.cpls := rfl
@[simp] theorem State.setPart_free (s : State) (p : Nat) (x : Part) : (s.setPart p x).free = s.free := rfl

/-! setCtx writes ctxs alone. -/

@[simp] theorem State.setCtx_pending (s : State) (c : Nat) (x : Ctx) : (s.setCtx c x).pending = s.pending := rfl
@[simp] theorem State.setCtx_tiles (s : State) (c : Nat) (x : Ctx) : (s.setCtx c x).tiles = s.tiles := rfl
@[simp] theorem State.setCtx_parts (s : State) (c : Nat) (x : Ctx) : (s.setCtx c x).parts = s.parts := rfl
@[simp] theorem State.setCtx_fns (s : State) (c : Nat) (x : Ctx) : (s.setCtx c x).fns = s.fns := rfl
@[simp] theorem State.setCtx_taken (s : State) (c : Nat) (x : Ctx) : (s.setCtx c x).taken = s.taken := rfl
@[simp] theorem State.setCtx_rrLast (s : State) (c : Nat) (x : Ctx) : (s.setCtx c x).rrLast = s.rrLast := rfl
@[simp] theorem State.setCtx_log (s : State) (c : Nat) (x : Ctx) : (s.setCtx c x).log = s.log := rfl
@[simp] theorem State.setCtx_ops (s : State) (c : Nat) (x : Ctx) : (s.setCtx c x).ops = s.ops := rfl
@[simp] theorem State.setCtx_nextOp (s : State) (c : Nat) (x : Ctx) : (s.setCtx c x).nextOp = s.nextOp := rfl
@[simp] theorem State.setCtx_ports (s : State) (c : Nat) (x : Ctx) : (s.setCtx c x).ports = s.ports := rfl
@[simp] theorem State.setCtx_hub (s : State) (c : Nat) (x : Ctx) : (s.setCtx c x).hub = s.hub := rfl
@[simp] theorem State.setCtx_mcpReady (s : State) (c : Nat) (x : Ctx) : (s.setCtx c x).mcpReady = s.mcpReady := rfl
@[simp] theorem State.setCtx_mcpAt (s : State) (c : Nat) (x : Ctx) : (s.setCtx c x).mcpAt = s.mcpAt := rfl
@[simp] theorem State.setCtx_ready (s : State) (c : Nat) (x : Ctx) : (s.setCtx c x).ready = s.ready := rfl
@[simp] theorem State.setCtx_stopped (s : State) (c : Nat) (x : Ctx) : (s.setCtx c x).stopped = s.stopped := rfl
@[simp] theorem State.setCtx_faultN (s : State) (c : Nat) (x : Ctx) : (s.setCtx c x).faultN = s.faultN := rfl
@[simp] theorem State.setCtx_abortSeq (s : State) (c : Nat) (x : Ctx) : (s.setCtx c x).abortSeq = s.abortSeq := rfl
@[simp] theorem State.setCtx_abortsSeen (s : State) (c : Nat) (x : Ctx) : (s.setCtx c x).abortsSeen = s.abortsSeen := rfl
@[simp] theorem State.setCtx_moduleId (s : State) (c : Nat) (x : Ctx) : (s.setCtx c x).moduleId = s.moduleId := rfl
@[simp] theorem State.setCtx_flashFatal (s : State) (c : Nat) (x : Ctx) : (s.setCtx c x).flashFatal = s.flashFatal := rfl
@[simp] theorem State.setCtx_nextFatal (s : State) (c : Nat) (x : Ctx) : (s.setCtx c x).nextFatal = s.nextFatal := rfl
@[simp] theorem State.setCtx_pldm (s : State) (c : Nat) (x : Ctx) : (s.setCtx c x).pldm = s.pldm := rfl
@[simp] theorem State.setCtx_pldmCounts (s : State) (c : Nat) (x : Ctx) : (s.setCtx c x).pldmCounts = s.pldmCounts := rfl
@[simp] theorem State.setCtx_fatalLog (s : State) (c : Nat) (x : Ctx) : (s.setCtx c x).fatalLog = s.fatalLog := rfl
@[simp] theorem State.setCtx_repairs (s : State) (c : Nat) (x : Ctx) : (s.setCtx c x).repairs = s.repairs := rfl
@[simp] theorem State.setCtx_moduleOos (s : State) (c : Nat) (x : Ctx) : (s.setCtx c x).moduleOos = s.moduleOos := rfl
@[simp] theorem State.setCtx_escal (s : State) (c : Nat) (x : Ctx) : (s.setCtx c x).escal = s.escal := rfl
@[simp] theorem State.setCtx_planStored (s : State) (c : Nat) (x : Ctx) : (s.setCtx c x).planStored = s.planStored := rfl
@[simp] theorem State.setCtx_planWaits (s : State) (c : Nat) (x : Ctx) : (s.setCtx c x).planWaits = s.planWaits := rfl
@[simp] theorem State.setCtx_plan (s : State) (c : Nat) (x : Ctx) : (s.setCtx c x).plan = s.plan := rfl
@[simp] theorem State.setCtx_fabFail (s : State) (c : Nat) (x : Ctx) : (s.setCtx c x).fabFail = s.fabFail := rfl
@[simp] theorem State.setCtx_conns (s : State) (c : Nat) (x : Ctx) : (s.setCtx c x).conns = s.conns := rfl
@[simp] theorem State.setCtx_ethOut (s : State) (c : Nat) (x : Ctx) : (s.setCtx c x).ethOut = s.ethOut := rfl
@[simp] theorem State.setCtx_ethDiscard (s : State) (c : Nat) (x : Ctx) : (s.setCtx c x).ethDiscard = s.ethDiscard := rfl
@[simp] theorem State.setCtx_ethRecord (s : State) (c : Nat) (x : Ctx) : (s.setCtx c x).ethRecord = s.ethRecord := rfl
@[simp] theorem State.setCtx_ethAddr (s : State) (c : Nat) (x : Ctx) : (s.setCtx c x).ethAddr = s.ethAddr := rfl
@[simp] theorem State.setCtx_nvws (s : State) (c : Nat) (x : Ctx) : (s.setCtx c x).nvws = s.nvws := rfl
@[simp] theorem State.setCtx_loads (s : State) (c : Nat) (x : Ctx) : (s.setCtx c x).loads = s.loads := rfl
@[simp] theorem State.setCtx_nextLoad (s : State) (c : Nat) (x : Ctx) : (s.setCtx c x).nextLoad = s.nextLoad := rfl
@[simp] theorem State.setCtx_pcie (s : State) (c : Nat) (x : Ctx) : (s.setCtx c x).pcie = s.pcie := rfl
@[simp] theorem State.setCtx_trcEn (s : State) (c : Nat) (x : Ctx) : (s.setCtx c x).trcEn = s.trcEn := rfl
@[simp] theorem State.setCtx_trcMade (s : State) (c : Nat) (x : Ctx) : (s.setCtx c x).trcMade = s.trcMade := rfl
@[simp] theorem State.setCtx_dbgLevel (s : State) (c : Nat) (x : Ctx) : (s.setCtx c x).dbgLevel = s.dbgLevel := rfl
@[simp] theorem State.setCtx_cycles (s : State) (c : Nat) (x : Ctx) : (s.setCtx c x).cycles = s.cycles := rfl
@[simp] theorem State.setCtx_pins (s : State) (c : Nat) (x : Ctx) : (s.setCtx c x).pins = s.pins := rfl
@[simp] theorem State.setCtx_boot (s : State) (c : Nat) (x : Ctx) : (s.setCtx c x).boot = s.boot := rfl
@[simp] theorem State.setCtx_saved (s : State) (c : Nat) (x : Ctx) : (s.setCtx c x).saved = s.saved := rfl
@[simp] theorem State.setCtx_power (s : State) (c : Nat) (x : Ctx) : (s.setCtx c x).power = s.power := rfl
@[simp] theorem State.setCtx_sec (s : State) (c : Nat) (x : Ctx) : (s.setCtx c x).sec = s.sec := rfl
@[simp] theorem State.setCtx_twilight (s : State) (c : Nat) (x : Ctx) : (s.setCtx c x).twilight = s.twilight := rfl
@[simp] theorem State.setCtx_resetCause (s : State) (c : Nat) (x : Ctx) : (s.setCtx c x).resetCause = s.resetCause := rfl
@[simp] theorem State.setCtx_early (s : State) (c : Nat) (x : Ctx) : (s.setCtx c x).early = s.early := rfl
@[simp] theorem State.setCtx_hbmOp (s : State) (c : Nat) (x : Ctx) : (s.setCtx c x).hbmOp = s.hbmOp := rfl
@[simp] theorem State.setCtx_quotes (s : State) (c : Nat) (x : Ctx) : (s.setCtx c x).quotes = s.quotes := rfl
@[simp] theorem State.setCtx_jtag (s : State) (c : Nat) (x : Ctx) : (s.setCtx c x).jtag = s.jtag := rfl
@[simp] theorem State.setCtx_jtagDr (s : State) (c : Nat) (x : Ctx) : (s.setCtx c x).jtagDr = s.jtagDr := rfl
@[simp] theorem State.setCtx_sensors (s : State) (c : Nat) (x : Ctx) : (s.setCtx c x).sensors = s.sensors := rfl
@[simp] theorem State.setCtx_readySensor (s : State) (c : Nat) (x : Ctx) : (s.setCtx c x).readySensor = s.readySensor := rfl
@[simp] theorem State.setCtx_fwUpdates (s : State) (c : Nat) (x : Ctx) : (s.setCtx c x).fwUpdates = s.fwUpdates := rfl
@[simp] theorem State.setCtx_fwResults (s : State) (c : Nat) (x : Ctx) : (s.setCtx c x).fwResults = s.fwResults := rfl
@[simp] theorem State.setCtx_keptCounts (s : State) (c : Nat) (x : Ctx) : (s.setCtx c x).keptCounts = s.keptCounts := rfl
@[simp] theorem State.setCtx_identOut (s : State) (c : Nat) (x : Ctx) : (s.setCtx c x).identOut = s.identOut := rfl
@[simp] theorem State.setCtx_flitOut (s : State) (c : Nat) (x : Ctx) : (s.setCtx c x).flitOut = s.flitOut := rfl
@[simp] theorem State.setCtx_hostOut (s : State) (c : Nat) (x : Ctx) : (s.setCtx c x).hostOut = s.hostOut := rfl
@[simp] theorem State.setCtx_cpls (s : State) (c : Nat) (x : Ctx) : (s.setCtx c x).cpls = s.cpls := rfl
@[simp] theorem State.setCtx_free (s : State) (c : Nat) (x : Ctx) : (s.setCtx c x).free = s.free := rfl

/-! setFn writes fns alone. -/

@[simp] theorem State.setFn_pending (s : State) (k : Nat) (x : Fn) : (s.setFn k x).pending = s.pending := rfl
@[simp] theorem State.setFn_tiles (s : State) (k : Nat) (x : Fn) : (s.setFn k x).tiles = s.tiles := rfl
@[simp] theorem State.setFn_parts (s : State) (k : Nat) (x : Fn) : (s.setFn k x).parts = s.parts := rfl
@[simp] theorem State.setFn_ctxs (s : State) (k : Nat) (x : Fn) : (s.setFn k x).ctxs = s.ctxs := rfl
@[simp] theorem State.setFn_taken (s : State) (k : Nat) (x : Fn) : (s.setFn k x).taken = s.taken := rfl
@[simp] theorem State.setFn_rrLast (s : State) (k : Nat) (x : Fn) : (s.setFn k x).rrLast = s.rrLast := rfl
@[simp] theorem State.setFn_log (s : State) (k : Nat) (x : Fn) : (s.setFn k x).log = s.log := rfl
@[simp] theorem State.setFn_ops (s : State) (k : Nat) (x : Fn) : (s.setFn k x).ops = s.ops := rfl
@[simp] theorem State.setFn_nextOp (s : State) (k : Nat) (x : Fn) : (s.setFn k x).nextOp = s.nextOp := rfl
@[simp] theorem State.setFn_ports (s : State) (k : Nat) (x : Fn) : (s.setFn k x).ports = s.ports := rfl
@[simp] theorem State.setFn_hub (s : State) (k : Nat) (x : Fn) : (s.setFn k x).hub = s.hub := rfl
@[simp] theorem State.setFn_mcpReady (s : State) (k : Nat) (x : Fn) : (s.setFn k x).mcpReady = s.mcpReady := rfl
@[simp] theorem State.setFn_mcpAt (s : State) (k : Nat) (x : Fn) : (s.setFn k x).mcpAt = s.mcpAt := rfl
@[simp] theorem State.setFn_ready (s : State) (k : Nat) (x : Fn) : (s.setFn k x).ready = s.ready := rfl
@[simp] theorem State.setFn_stopped (s : State) (k : Nat) (x : Fn) : (s.setFn k x).stopped = s.stopped := rfl
@[simp] theorem State.setFn_faultN (s : State) (k : Nat) (x : Fn) : (s.setFn k x).faultN = s.faultN := rfl
@[simp] theorem State.setFn_abortSeq (s : State) (k : Nat) (x : Fn) : (s.setFn k x).abortSeq = s.abortSeq := rfl
@[simp] theorem State.setFn_abortsSeen (s : State) (k : Nat) (x : Fn) : (s.setFn k x).abortsSeen = s.abortsSeen := rfl
@[simp] theorem State.setFn_moduleId (s : State) (k : Nat) (x : Fn) : (s.setFn k x).moduleId = s.moduleId := rfl
@[simp] theorem State.setFn_flashFatal (s : State) (k : Nat) (x : Fn) : (s.setFn k x).flashFatal = s.flashFatal := rfl
@[simp] theorem State.setFn_nextFatal (s : State) (k : Nat) (x : Fn) : (s.setFn k x).nextFatal = s.nextFatal := rfl
@[simp] theorem State.setFn_pldm (s : State) (k : Nat) (x : Fn) : (s.setFn k x).pldm = s.pldm := rfl
@[simp] theorem State.setFn_pldmCounts (s : State) (k : Nat) (x : Fn) : (s.setFn k x).pldmCounts = s.pldmCounts := rfl
@[simp] theorem State.setFn_fatalLog (s : State) (k : Nat) (x : Fn) : (s.setFn k x).fatalLog = s.fatalLog := rfl
@[simp] theorem State.setFn_repairs (s : State) (k : Nat) (x : Fn) : (s.setFn k x).repairs = s.repairs := rfl
@[simp] theorem State.setFn_moduleOos (s : State) (k : Nat) (x : Fn) : (s.setFn k x).moduleOos = s.moduleOos := rfl
@[simp] theorem State.setFn_escal (s : State) (k : Nat) (x : Fn) : (s.setFn k x).escal = s.escal := rfl
@[simp] theorem State.setFn_planStored (s : State) (k : Nat) (x : Fn) : (s.setFn k x).planStored = s.planStored := rfl
@[simp] theorem State.setFn_planWaits (s : State) (k : Nat) (x : Fn) : (s.setFn k x).planWaits = s.planWaits := rfl
@[simp] theorem State.setFn_plan (s : State) (k : Nat) (x : Fn) : (s.setFn k x).plan = s.plan := rfl
@[simp] theorem State.setFn_fabFail (s : State) (k : Nat) (x : Fn) : (s.setFn k x).fabFail = s.fabFail := rfl
@[simp] theorem State.setFn_conns (s : State) (k : Nat) (x : Fn) : (s.setFn k x).conns = s.conns := rfl
@[simp] theorem State.setFn_ethOut (s : State) (k : Nat) (x : Fn) : (s.setFn k x).ethOut = s.ethOut := rfl
@[simp] theorem State.setFn_ethDiscard (s : State) (k : Nat) (x : Fn) : (s.setFn k x).ethDiscard = s.ethDiscard := rfl
@[simp] theorem State.setFn_ethRecord (s : State) (k : Nat) (x : Fn) : (s.setFn k x).ethRecord = s.ethRecord := rfl
@[simp] theorem State.setFn_ethAddr (s : State) (k : Nat) (x : Fn) : (s.setFn k x).ethAddr = s.ethAddr := rfl
@[simp] theorem State.setFn_nvws (s : State) (k : Nat) (x : Fn) : (s.setFn k x).nvws = s.nvws := rfl
@[simp] theorem State.setFn_loads (s : State) (k : Nat) (x : Fn) : (s.setFn k x).loads = s.loads := rfl
@[simp] theorem State.setFn_nextLoad (s : State) (k : Nat) (x : Fn) : (s.setFn k x).nextLoad = s.nextLoad := rfl
@[simp] theorem State.setFn_pcie (s : State) (k : Nat) (x : Fn) : (s.setFn k x).pcie = s.pcie := rfl
@[simp] theorem State.setFn_trcEn (s : State) (k : Nat) (x : Fn) : (s.setFn k x).trcEn = s.trcEn := rfl
@[simp] theorem State.setFn_trcMade (s : State) (k : Nat) (x : Fn) : (s.setFn k x).trcMade = s.trcMade := rfl
@[simp] theorem State.setFn_dbgLevel (s : State) (k : Nat) (x : Fn) : (s.setFn k x).dbgLevel = s.dbgLevel := rfl
@[simp] theorem State.setFn_cycles (s : State) (k : Nat) (x : Fn) : (s.setFn k x).cycles = s.cycles := rfl
@[simp] theorem State.setFn_pins (s : State) (k : Nat) (x : Fn) : (s.setFn k x).pins = s.pins := rfl
@[simp] theorem State.setFn_boot (s : State) (k : Nat) (x : Fn) : (s.setFn k x).boot = s.boot := rfl
@[simp] theorem State.setFn_saved (s : State) (k : Nat) (x : Fn) : (s.setFn k x).saved = s.saved := rfl
@[simp] theorem State.setFn_power (s : State) (k : Nat) (x : Fn) : (s.setFn k x).power = s.power := rfl
@[simp] theorem State.setFn_sec (s : State) (k : Nat) (x : Fn) : (s.setFn k x).sec = s.sec := rfl
@[simp] theorem State.setFn_twilight (s : State) (k : Nat) (x : Fn) : (s.setFn k x).twilight = s.twilight := rfl
@[simp] theorem State.setFn_resetCause (s : State) (k : Nat) (x : Fn) : (s.setFn k x).resetCause = s.resetCause := rfl
@[simp] theorem State.setFn_early (s : State) (k : Nat) (x : Fn) : (s.setFn k x).early = s.early := rfl
@[simp] theorem State.setFn_hbmOp (s : State) (k : Nat) (x : Fn) : (s.setFn k x).hbmOp = s.hbmOp := rfl
@[simp] theorem State.setFn_quotes (s : State) (k : Nat) (x : Fn) : (s.setFn k x).quotes = s.quotes := rfl
@[simp] theorem State.setFn_jtag (s : State) (k : Nat) (x : Fn) : (s.setFn k x).jtag = s.jtag := rfl
@[simp] theorem State.setFn_jtagDr (s : State) (k : Nat) (x : Fn) : (s.setFn k x).jtagDr = s.jtagDr := rfl
@[simp] theorem State.setFn_sensors (s : State) (k : Nat) (x : Fn) : (s.setFn k x).sensors = s.sensors := rfl
@[simp] theorem State.setFn_readySensor (s : State) (k : Nat) (x : Fn) : (s.setFn k x).readySensor = s.readySensor := rfl
@[simp] theorem State.setFn_fwUpdates (s : State) (k : Nat) (x : Fn) : (s.setFn k x).fwUpdates = s.fwUpdates := rfl
@[simp] theorem State.setFn_fwResults (s : State) (k : Nat) (x : Fn) : (s.setFn k x).fwResults = s.fwResults := rfl
@[simp] theorem State.setFn_keptCounts (s : State) (k : Nat) (x : Fn) : (s.setFn k x).keptCounts = s.keptCounts := rfl
@[simp] theorem State.setFn_identOut (s : State) (k : Nat) (x : Fn) : (s.setFn k x).identOut = s.identOut := rfl
@[simp] theorem State.setFn_flitOut (s : State) (k : Nat) (x : Fn) : (s.setFn k x).flitOut = s.flitOut := rfl
@[simp] theorem State.setFn_hostOut (s : State) (k : Nat) (x : Fn) : (s.setFn k x).hostOut = s.hostOut := rfl
@[simp] theorem State.setFn_cpls (s : State) (k : Nat) (x : Fn) : (s.setFn k x).cpls = s.cpls := rfl
@[simp] theorem State.setFn_free (s : State) (k : Nat) (x : Fn) : (s.setFn k x).free = s.free := rfl

/-! setPort writes ports alone. -/

@[simp] theorem State.setPort_pending (s : State) (k : Nat) (x : Port) : (s.setPort k x).pending = s.pending := rfl
@[simp] theorem State.setPort_tiles (s : State) (k : Nat) (x : Port) : (s.setPort k x).tiles = s.tiles := rfl
@[simp] theorem State.setPort_parts (s : State) (k : Nat) (x : Port) : (s.setPort k x).parts = s.parts := rfl
@[simp] theorem State.setPort_ctxs (s : State) (k : Nat) (x : Port) : (s.setPort k x).ctxs = s.ctxs := rfl
@[simp] theorem State.setPort_fns (s : State) (k : Nat) (x : Port) : (s.setPort k x).fns = s.fns := rfl
@[simp] theorem State.setPort_taken (s : State) (k : Nat) (x : Port) : (s.setPort k x).taken = s.taken := rfl
@[simp] theorem State.setPort_rrLast (s : State) (k : Nat) (x : Port) : (s.setPort k x).rrLast = s.rrLast := rfl
@[simp] theorem State.setPort_log (s : State) (k : Nat) (x : Port) : (s.setPort k x).log = s.log := rfl
@[simp] theorem State.setPort_ops (s : State) (k : Nat) (x : Port) : (s.setPort k x).ops = s.ops := rfl
@[simp] theorem State.setPort_nextOp (s : State) (k : Nat) (x : Port) : (s.setPort k x).nextOp = s.nextOp := rfl
@[simp] theorem State.setPort_hub (s : State) (k : Nat) (x : Port) : (s.setPort k x).hub = s.hub := rfl
@[simp] theorem State.setPort_mcpReady (s : State) (k : Nat) (x : Port) : (s.setPort k x).mcpReady = s.mcpReady := rfl
@[simp] theorem State.setPort_mcpAt (s : State) (k : Nat) (x : Port) : (s.setPort k x).mcpAt = s.mcpAt := rfl
@[simp] theorem State.setPort_ready (s : State) (k : Nat) (x : Port) : (s.setPort k x).ready = s.ready := rfl
@[simp] theorem State.setPort_stopped (s : State) (k : Nat) (x : Port) : (s.setPort k x).stopped = s.stopped := rfl
@[simp] theorem State.setPort_faultN (s : State) (k : Nat) (x : Port) : (s.setPort k x).faultN = s.faultN := rfl
@[simp] theorem State.setPort_abortSeq (s : State) (k : Nat) (x : Port) : (s.setPort k x).abortSeq = s.abortSeq := rfl
@[simp] theorem State.setPort_abortsSeen (s : State) (k : Nat) (x : Port) : (s.setPort k x).abortsSeen = s.abortsSeen := rfl
@[simp] theorem State.setPort_moduleId (s : State) (k : Nat) (x : Port) : (s.setPort k x).moduleId = s.moduleId := rfl
@[simp] theorem State.setPort_flashFatal (s : State) (k : Nat) (x : Port) : (s.setPort k x).flashFatal = s.flashFatal := rfl
@[simp] theorem State.setPort_nextFatal (s : State) (k : Nat) (x : Port) : (s.setPort k x).nextFatal = s.nextFatal := rfl
@[simp] theorem State.setPort_pldm (s : State) (k : Nat) (x : Port) : (s.setPort k x).pldm = s.pldm := rfl
@[simp] theorem State.setPort_pldmCounts (s : State) (k : Nat) (x : Port) : (s.setPort k x).pldmCounts = s.pldmCounts := rfl
@[simp] theorem State.setPort_fatalLog (s : State) (k : Nat) (x : Port) : (s.setPort k x).fatalLog = s.fatalLog := rfl
@[simp] theorem State.setPort_repairs (s : State) (k : Nat) (x : Port) : (s.setPort k x).repairs = s.repairs := rfl
@[simp] theorem State.setPort_moduleOos (s : State) (k : Nat) (x : Port) : (s.setPort k x).moduleOos = s.moduleOos := rfl
@[simp] theorem State.setPort_escal (s : State) (k : Nat) (x : Port) : (s.setPort k x).escal = s.escal := rfl
@[simp] theorem State.setPort_planStored (s : State) (k : Nat) (x : Port) : (s.setPort k x).planStored = s.planStored := rfl
@[simp] theorem State.setPort_planWaits (s : State) (k : Nat) (x : Port) : (s.setPort k x).planWaits = s.planWaits := rfl
@[simp] theorem State.setPort_plan (s : State) (k : Nat) (x : Port) : (s.setPort k x).plan = s.plan := rfl
@[simp] theorem State.setPort_fabFail (s : State) (k : Nat) (x : Port) : (s.setPort k x).fabFail = s.fabFail := rfl
@[simp] theorem State.setPort_conns (s : State) (k : Nat) (x : Port) : (s.setPort k x).conns = s.conns := rfl
@[simp] theorem State.setPort_ethOut (s : State) (k : Nat) (x : Port) : (s.setPort k x).ethOut = s.ethOut := rfl
@[simp] theorem State.setPort_ethDiscard (s : State) (k : Nat) (x : Port) : (s.setPort k x).ethDiscard = s.ethDiscard := rfl
@[simp] theorem State.setPort_ethRecord (s : State) (k : Nat) (x : Port) : (s.setPort k x).ethRecord = s.ethRecord := rfl
@[simp] theorem State.setPort_ethAddr (s : State) (k : Nat) (x : Port) : (s.setPort k x).ethAddr = s.ethAddr := rfl
@[simp] theorem State.setPort_nvws (s : State) (k : Nat) (x : Port) : (s.setPort k x).nvws = s.nvws := rfl
@[simp] theorem State.setPort_loads (s : State) (k : Nat) (x : Port) : (s.setPort k x).loads = s.loads := rfl
@[simp] theorem State.setPort_nextLoad (s : State) (k : Nat) (x : Port) : (s.setPort k x).nextLoad = s.nextLoad := rfl
@[simp] theorem State.setPort_pcie (s : State) (k : Nat) (x : Port) : (s.setPort k x).pcie = s.pcie := rfl
@[simp] theorem State.setPort_trcEn (s : State) (k : Nat) (x : Port) : (s.setPort k x).trcEn = s.trcEn := rfl
@[simp] theorem State.setPort_trcMade (s : State) (k : Nat) (x : Port) : (s.setPort k x).trcMade = s.trcMade := rfl
@[simp] theorem State.setPort_dbgLevel (s : State) (k : Nat) (x : Port) : (s.setPort k x).dbgLevel = s.dbgLevel := rfl
@[simp] theorem State.setPort_cycles (s : State) (k : Nat) (x : Port) : (s.setPort k x).cycles = s.cycles := rfl
@[simp] theorem State.setPort_pins (s : State) (k : Nat) (x : Port) : (s.setPort k x).pins = s.pins := rfl
@[simp] theorem State.setPort_boot (s : State) (k : Nat) (x : Port) : (s.setPort k x).boot = s.boot := rfl
@[simp] theorem State.setPort_saved (s : State) (k : Nat) (x : Port) : (s.setPort k x).saved = s.saved := rfl
@[simp] theorem State.setPort_power (s : State) (k : Nat) (x : Port) : (s.setPort k x).power = s.power := rfl
@[simp] theorem State.setPort_sec (s : State) (k : Nat) (x : Port) : (s.setPort k x).sec = s.sec := rfl
@[simp] theorem State.setPort_twilight (s : State) (k : Nat) (x : Port) : (s.setPort k x).twilight = s.twilight := rfl
@[simp] theorem State.setPort_resetCause (s : State) (k : Nat) (x : Port) : (s.setPort k x).resetCause = s.resetCause := rfl
@[simp] theorem State.setPort_early (s : State) (k : Nat) (x : Port) : (s.setPort k x).early = s.early := rfl
@[simp] theorem State.setPort_hbmOp (s : State) (k : Nat) (x : Port) : (s.setPort k x).hbmOp = s.hbmOp := rfl
@[simp] theorem State.setPort_quotes (s : State) (k : Nat) (x : Port) : (s.setPort k x).quotes = s.quotes := rfl
@[simp] theorem State.setPort_jtag (s : State) (k : Nat) (x : Port) : (s.setPort k x).jtag = s.jtag := rfl
@[simp] theorem State.setPort_jtagDr (s : State) (k : Nat) (x : Port) : (s.setPort k x).jtagDr = s.jtagDr := rfl
@[simp] theorem State.setPort_sensors (s : State) (k : Nat) (x : Port) : (s.setPort k x).sensors = s.sensors := rfl
@[simp] theorem State.setPort_readySensor (s : State) (k : Nat) (x : Port) : (s.setPort k x).readySensor = s.readySensor := rfl
@[simp] theorem State.setPort_fwUpdates (s : State) (k : Nat) (x : Port) : (s.setPort k x).fwUpdates = s.fwUpdates := rfl
@[simp] theorem State.setPort_fwResults (s : State) (k : Nat) (x : Port) : (s.setPort k x).fwResults = s.fwResults := rfl
@[simp] theorem State.setPort_keptCounts (s : State) (k : Nat) (x : Port) : (s.setPort k x).keptCounts = s.keptCounts := rfl
@[simp] theorem State.setPort_identOut (s : State) (k : Nat) (x : Port) : (s.setPort k x).identOut = s.identOut := rfl
@[simp] theorem State.setPort_flitOut (s : State) (k : Nat) (x : Port) : (s.setPort k x).flitOut = s.flitOut := rfl
@[simp] theorem State.setPort_hostOut (s : State) (k : Nat) (x : Port) : (s.setPort k x).hostOut = s.hostOut := rfl
@[simp] theorem State.setPort_cpls (s : State) (k : Nat) (x : Port) : (s.setPort k x).cpls = s.cpls := rfl
@[simp] theorem State.setPort_free (s : State) (k : Nat) (x : Port) : (s.setPort k x).free = s.free := rfl

/-! takeFree writes free alone. -/

@[simp] theorem State.takeFree_pending (s : State) : s.takeFree.2.pending = s.pending := rfl
@[simp] theorem State.takeFree_tiles (s : State) : s.takeFree.2.tiles = s.tiles := rfl
@[simp] theorem State.takeFree_parts (s : State) : s.takeFree.2.parts = s.parts := rfl
@[simp] theorem State.takeFree_ctxs (s : State) : s.takeFree.2.ctxs = s.ctxs := rfl
@[simp] theorem State.takeFree_fns (s : State) : s.takeFree.2.fns = s.fns := rfl
@[simp] theorem State.takeFree_taken (s : State) : s.takeFree.2.taken = s.taken := rfl
@[simp] theorem State.takeFree_rrLast (s : State) : s.takeFree.2.rrLast = s.rrLast := rfl
@[simp] theorem State.takeFree_log (s : State) : s.takeFree.2.log = s.log := rfl
@[simp] theorem State.takeFree_ops (s : State) : s.takeFree.2.ops = s.ops := rfl
@[simp] theorem State.takeFree_nextOp (s : State) : s.takeFree.2.nextOp = s.nextOp := rfl
@[simp] theorem State.takeFree_ports (s : State) : s.takeFree.2.ports = s.ports := rfl
@[simp] theorem State.takeFree_hub (s : State) : s.takeFree.2.hub = s.hub := rfl
@[simp] theorem State.takeFree_mcpReady (s : State) : s.takeFree.2.mcpReady = s.mcpReady := rfl
@[simp] theorem State.takeFree_mcpAt (s : State) : s.takeFree.2.mcpAt = s.mcpAt := rfl
@[simp] theorem State.takeFree_ready (s : State) : s.takeFree.2.ready = s.ready := rfl
@[simp] theorem State.takeFree_stopped (s : State) : s.takeFree.2.stopped = s.stopped := rfl
@[simp] theorem State.takeFree_faultN (s : State) : s.takeFree.2.faultN = s.faultN := rfl
@[simp] theorem State.takeFree_abortSeq (s : State) : s.takeFree.2.abortSeq = s.abortSeq := rfl
@[simp] theorem State.takeFree_abortsSeen (s : State) : s.takeFree.2.abortsSeen = s.abortsSeen := rfl
@[simp] theorem State.takeFree_moduleId (s : State) : s.takeFree.2.moduleId = s.moduleId := rfl
@[simp] theorem State.takeFree_flashFatal (s : State) : s.takeFree.2.flashFatal = s.flashFatal := rfl
@[simp] theorem State.takeFree_nextFatal (s : State) : s.takeFree.2.nextFatal = s.nextFatal := rfl
@[simp] theorem State.takeFree_pldm (s : State) : s.takeFree.2.pldm = s.pldm := rfl
@[simp] theorem State.takeFree_pldmCounts (s : State) : s.takeFree.2.pldmCounts = s.pldmCounts := rfl
@[simp] theorem State.takeFree_fatalLog (s : State) : s.takeFree.2.fatalLog = s.fatalLog := rfl
@[simp] theorem State.takeFree_repairs (s : State) : s.takeFree.2.repairs = s.repairs := rfl
@[simp] theorem State.takeFree_moduleOos (s : State) : s.takeFree.2.moduleOos = s.moduleOos := rfl
@[simp] theorem State.takeFree_escal (s : State) : s.takeFree.2.escal = s.escal := rfl
@[simp] theorem State.takeFree_planStored (s : State) : s.takeFree.2.planStored = s.planStored := rfl
@[simp] theorem State.takeFree_planWaits (s : State) : s.takeFree.2.planWaits = s.planWaits := rfl
@[simp] theorem State.takeFree_plan (s : State) : s.takeFree.2.plan = s.plan := rfl
@[simp] theorem State.takeFree_fabFail (s : State) : s.takeFree.2.fabFail = s.fabFail := rfl
@[simp] theorem State.takeFree_conns (s : State) : s.takeFree.2.conns = s.conns := rfl
@[simp] theorem State.takeFree_ethOut (s : State) : s.takeFree.2.ethOut = s.ethOut := rfl
@[simp] theorem State.takeFree_ethDiscard (s : State) : s.takeFree.2.ethDiscard = s.ethDiscard := rfl
@[simp] theorem State.takeFree_ethRecord (s : State) : s.takeFree.2.ethRecord = s.ethRecord := rfl
@[simp] theorem State.takeFree_ethAddr (s : State) : s.takeFree.2.ethAddr = s.ethAddr := rfl
@[simp] theorem State.takeFree_nvws (s : State) : s.takeFree.2.nvws = s.nvws := rfl
@[simp] theorem State.takeFree_loads (s : State) : s.takeFree.2.loads = s.loads := rfl
@[simp] theorem State.takeFree_nextLoad (s : State) : s.takeFree.2.nextLoad = s.nextLoad := rfl
@[simp] theorem State.takeFree_pcie (s : State) : s.takeFree.2.pcie = s.pcie := rfl
@[simp] theorem State.takeFree_trcEn (s : State) : s.takeFree.2.trcEn = s.trcEn := rfl
@[simp] theorem State.takeFree_trcMade (s : State) : s.takeFree.2.trcMade = s.trcMade := rfl
@[simp] theorem State.takeFree_dbgLevel (s : State) : s.takeFree.2.dbgLevel = s.dbgLevel := rfl
@[simp] theorem State.takeFree_cycles (s : State) : s.takeFree.2.cycles = s.cycles := rfl
@[simp] theorem State.takeFree_pins (s : State) : s.takeFree.2.pins = s.pins := rfl
@[simp] theorem State.takeFree_boot (s : State) : s.takeFree.2.boot = s.boot := rfl
@[simp] theorem State.takeFree_saved (s : State) : s.takeFree.2.saved = s.saved := rfl
@[simp] theorem State.takeFree_power (s : State) : s.takeFree.2.power = s.power := rfl
@[simp] theorem State.takeFree_sec (s : State) : s.takeFree.2.sec = s.sec := rfl
@[simp] theorem State.takeFree_twilight (s : State) : s.takeFree.2.twilight = s.twilight := rfl
@[simp] theorem State.takeFree_resetCause (s : State) : s.takeFree.2.resetCause = s.resetCause := rfl
@[simp] theorem State.takeFree_early (s : State) : s.takeFree.2.early = s.early := rfl
@[simp] theorem State.takeFree_hbmOp (s : State) : s.takeFree.2.hbmOp = s.hbmOp := rfl
@[simp] theorem State.takeFree_quotes (s : State) : s.takeFree.2.quotes = s.quotes := rfl
@[simp] theorem State.takeFree_jtag (s : State) : s.takeFree.2.jtag = s.jtag := rfl
@[simp] theorem State.takeFree_jtagDr (s : State) : s.takeFree.2.jtagDr = s.jtagDr := rfl
@[simp] theorem State.takeFree_sensors (s : State) : s.takeFree.2.sensors = s.sensors := rfl
@[simp] theorem State.takeFree_readySensor (s : State) : s.takeFree.2.readySensor = s.readySensor := rfl
@[simp] theorem State.takeFree_fwUpdates (s : State) : s.takeFree.2.fwUpdates = s.fwUpdates := rfl
@[simp] theorem State.takeFree_fwResults (s : State) : s.takeFree.2.fwResults = s.fwResults := rfl
@[simp] theorem State.takeFree_keptCounts (s : State) : s.takeFree.2.keptCounts = s.keptCounts := rfl
@[simp] theorem State.takeFree_identOut (s : State) : s.takeFree.2.identOut = s.identOut := rfl
@[simp] theorem State.takeFree_flitOut (s : State) : s.takeFree.2.flitOut = s.flitOut := rfl
@[simp] theorem State.takeFree_hostOut (s : State) : s.takeFree.2.hostOut = s.hostOut := rfl
@[simp] theorem State.takeFree_cpls (s : State) : s.takeFree.2.cpls = s.cpls := rfl
@[simp] theorem State.takeFree_free (s : State) : s.takeFree.2.free = s.free + 1 := rfl

/-! What an accessor reads after an update of its own part. -/

@[simp] theorem State.tile_setTile (s : State) (p t : Nat) (x : Tile) : (s.setTile p t x).tile p t = x := by
  simp [State.tile, State.setTile]

/-- Another tile: its number in the table differs. -/
theorem State.tile_setTile_ne (s : State) (p t q u : Nat) (x : Tile) (h : 16 * q + u ≠ 16 * p + t) :
    (s.setTile p t x).tile q u = s.tile q u := by
  simp [State.tile, State.setTile, h]

@[simp] theorem State.part_setPart (s : State) (p : Nat) (x : Part) : (s.setPart p x).part p = x := by
  simp [State.part, State.setPart]

theorem State.part_setPart_ne (s : State) (p q : Nat) (x : Part) (h : q ≠ p) : (s.setPart p x).part q = s.part q := by
  simp [State.part, State.setPart, h]

@[simp] theorem State.ctx_setCtx (s : State) (c : Nat) (x : Ctx) : (s.setCtx c x).ctx c = x := by
  simp [State.ctx, State.setCtx]

theorem State.ctx_setCtx_ne (s : State) (c d : Nat) (x : Ctx) (h : d ≠ c) : (s.setCtx c x).ctx d = s.ctx d := by
  simp [State.ctx, State.setCtx, h]

@[simp] theorem State.fn_setFn (s : State) (k : Nat) (x : Fn) : (s.setFn k x).fn k = x := by
  simp [State.fn, State.setFn]

theorem State.fn_setFn_ne (s : State) (k j : Nat) (x : Fn) (h : j ≠ k) : (s.setFn k x).fn j = s.fn j := by
  simp [State.fn, State.setFn, h]

@[simp] theorem State.port_setPort (s : State) (k : Nat) (x : Port) : (s.setPort k x).port k = x := by
  simp [State.port, State.setPort]

theorem State.port_setPort_ne (s : State) (k j : Nat) (x : Port) (h : j ≠ k) : (s.setPort k x).port j = s.port j := by
  simp [State.port, State.setPort, h]

@[simp] theorem State.cp_setCp (s : State) (c p : Nat) (x : CtxPart) : (s.setCp c p x).cp c p = x := by
  simp [State.cp, State.setCp]

/-- What the context has on another partition. -/
theorem State.cp_setCp_ne (s : State) (c p q : Nat) (x : CtxPart) (h : q ≠ p) : (s.setCp c p x).cp c q = s.cp c q := by
  simp [State.cp, State.setCp, h]

@[simp] theorem State.lp_setLp (s : State) (k n : Nat) (x : LanePair) : (s.setLp k n x).lp k n = x := by
  simp [State.lp, State.setLp]

@[simp] theorem State.inst_setInst (s : State) (p i : Nat) (x : Inst) : (s.setInst p i x).inst? p i = some x := by
  simp [State.inst?, State.setInst]

/-- Another instance of the partition. -/
theorem State.inst_setInst_ne (s : State) (p i j : Nat) (x : Inst) (h : j ≠ i) : (s.setInst p i x).inst? p j = s.inst? p j := by
  simp [State.inst?, State.setInst, h]

/-! What an accessor reads after an update of another part. -/

@[simp] theorem State.part_setTile (s : State) (p t : Nat) (x : Tile) (q : Nat) : (s.setTile p t x).part q = s.part q := rfl
@[simp] theorem State.ctx_setTile (s : State) (p t : Nat) (x : Tile) (d : Nat) : (s.setTile p t x).ctx d = s.ctx d := rfl
@[simp] theorem State.fn_setTile (s : State) (p t : Nat) (x : Tile) (j : Nat) : (s.setTile p t x).fn j = s.fn j := rfl
@[simp] theorem State.port_setTile (s : State) (p t : Nat) (x : Tile) (j : Nat) : (s.setTile p t x).port j = s.port j := rfl
@[simp] theorem State.tile_setPart (s : State) (p : Nat) (x : Part) (q u : Nat) : (s.setPart p x).tile q u = s.tile q u := rfl
@[simp] theorem State.ctx_setPart (s : State) (p : Nat) (x : Part) (d : Nat) : (s.setPart p x).ctx d = s.ctx d := rfl
@[simp] theorem State.fn_setPart (s : State) (p : Nat) (x : Part) (j : Nat) : (s.setPart p x).fn j = s.fn j := rfl
@[simp] theorem State.port_setPart (s : State) (p : Nat) (x : Part) (j : Nat) : (s.setPart p x).port j = s.port j := rfl
@[simp] theorem State.tile_setCtx (s : State) (c : Nat) (x : Ctx) (q u : Nat) : (s.setCtx c x).tile q u = s.tile q u := rfl
@[simp] theorem State.part_setCtx (s : State) (c : Nat) (x : Ctx) (q : Nat) : (s.setCtx c x).part q = s.part q := rfl
@[simp] theorem State.fn_setCtx (s : State) (c : Nat) (x : Ctx) (j : Nat) : (s.setCtx c x).fn j = s.fn j := rfl
@[simp] theorem State.port_setCtx (s : State) (c : Nat) (x : Ctx) (j : Nat) : (s.setCtx c x).port j = s.port j := rfl
@[simp] theorem State.tile_setFn (s : State) (k : Nat) (x : Fn) (q u : Nat) : (s.setFn k x).tile q u = s.tile q u := rfl
@[simp] theorem State.part_setFn (s : State) (k : Nat) (x : Fn) (q : Nat) : (s.setFn k x).part q = s.part q := rfl
@[simp] theorem State.ctx_setFn (s : State) (k : Nat) (x : Fn) (d : Nat) : (s.setFn k x).ctx d = s.ctx d := rfl
@[simp] theorem State.port_setFn (s : State) (k : Nat) (x : Fn) (j : Nat) : (s.setFn k x).port j = s.port j := rfl
@[simp] theorem State.tile_setPort (s : State) (k : Nat) (x : Port) (q u : Nat) : (s.setPort k x).tile q u = s.tile q u := rfl
@[simp] theorem State.part_setPort (s : State) (k : Nat) (x : Port) (q : Nat) : (s.setPort k x).part q = s.part q := rfl
@[simp] theorem State.ctx_setPort (s : State) (k : Nat) (x : Port) (d : Nat) : (s.setPort k x).ctx d = s.ctx d := rfl
@[simp] theorem State.fn_setPort (s : State) (k : Nat) (x : Port) (j : Nat) : (s.setPort k x).fn j = s.fn j := rfl

/-! setCp, setLp, setInst and modInst leave the queue. -/

@[simp] theorem State.setCp_pending (s : State) (c p : Nat) (x : CtxPart) : (s.setCp c p x).pending = s.pending := rfl
@[simp] theorem State.setLp_pending (s : State) (k n : Nat) (x : LanePair) : (s.setLp k n x).pending = s.pending := rfl
@[simp] theorem State.setInst_pending (s : State) (p i : Nat) (x : Inst) : (s.setInst p i x).pending = s.pending := rfl
@[simp] theorem State.modInst_pending (s : State) (p i : Nat) (f : Inst → Inst) : (s.modInst p i f).pending = s.pending := by
  unfold State.modInst
  split <;> rfl

/-! The memories stay canonical where the part that is put in has canonical memories. -/

theorem MemoryCanonical.setTile {s : State} (h : MemoryCanonical s) (p t : Nat) {x : Tile} (hx : x.memOk = true) :
    MemoryCanonical (s.setTile p t x) :=
  ⟨h.1, fun e he => (tabSet_mem he).elim (fun h1 => h1 ▸ hx) (h.2.1 e), h.2.2⟩

theorem MemoryCanonical.setPart {s : State} (h : MemoryCanonical s) (p : Nat) {x : Part} (hx : x.hbm.mem.wf = true) :
    MemoryCanonical (s.setPart p x) :=
  ⟨fun e he => (tabSet_mem he).elim (fun h1 => h1 ▸ hx) (h.1 e), h.2.1, h.2.2⟩

theorem MemoryCanonical.setFn {s : State} (h : MemoryCanonical s) (k : Nat) {x : Fn} (hx : x.memOk = true) :
    MemoryCanonical (s.setFn k x) :=
  ⟨h.1, h.2.1, fun e he => (tabSet_mem he).elim (fun h1 => h1 ▸ hx) (h.2.2 e)⟩

/-- Every tile of such a state has canonical memories. -/
theorem MemoryCanonical.tile {s : State} (h : MemoryCanonical s) (p t : Nat) : (s.tile p t).memOk = true := by
  unfold State.tile tabGet
  split
  · exact h.2.1 _ (tabFind_mem ‹_›)
  · rfl

/-- Every partition of such a state has a canonical memory. -/
theorem MemoryCanonical.part {s : State} (h : MemoryCanonical s) (p : Nat) : (s.part p).hbm.mem.wf = true := by
  unfold State.part tabGet
  split
  · exact h.1 _ (tabFind_mem ‹_›)
  · rfl

/-- Every function of such a state has canonical buffers. -/
theorem MemoryCanonical.fn {s : State} (h : MemoryCanonical s) (k : Nat) : (s.fn k).memOk = true := by
  unfold State.fn tabGet
  split
  · exact h.2.2 _ (tabFind_mem ‹_›)
  · rfl

end Sys2Proof.Machine
end

