-- ==== Sys2Proof/Laws/Events.lean ====
section
/-! SUPPORT. All that logging, notifying and replying can change. -/

namespace Sys2Proof.Machine

/-- A notification writes the functions alone. -/
theorem notify_frame (s : State) (m : EvMsg) : ∃ fns, notify s m = { s with fns } := by
  unfold notify
  split
  · exact ⟨s.fns, rfl⟩
  · exact ⟨_, rfl⟩

/-- t is s with another log, other messages of the functions, another PLDM queue, other PLDM counters, pins and flash: all that logging can change. -/
def LogOnly (s t : State) : Prop := ∃ log fns pldm pldmCounts pins flashFatal nextFatal,
  t = { s with log, fns, pldm, pldmCounts, pins, flashFatal, nextFatal }

theorem LogOnly.refl (s : State) : LogOnly s s := ⟨_, _, _, _, _, _, _, rfl⟩

theorem LogOnly.trans {s t u : State} (h : LogOnly s t) (h2 : LogOnly t u) : LogOnly s u := by
  obtain ⟨_, _, _, _, _, _, _, rfl⟩ := h
  obtain ⟨_, _, _, _, _, _, _, rfl⟩ := h2
  exact ⟨_, _, _, _, _, _, _, rfl⟩

theorem LogOnly.log (s : State) (g : Log) : LogOnly s { s with log := g } := ⟨_, _, _, _, _, _, _, rfl⟩

theorem LogOnly.notify (s : State) (m : EvMsg) : LogOnly s (notify s m) := by
  obtain ⟨_, h⟩ := notify_frame s m
  rw [h]
  exact ⟨_, _, _, _, _, _, _, rfl⟩

/-- Logging one occurrence. -/
theorem LogOnly.logEvent1 (s : State) (e : Ev) : LogOnly s (logEvent1 s e) := by
  unfold Machine.logEvent1
  extract_lets time l s1 s2 s3 q pins s4
  have h2 : LogOnly s s2 := by
    simp only [s2]
    split
    · exact (LogOnly.log s _).trans (LogOnly.log s1 _)
    · exact LogOnly.log s _
  have h3 : LogOnly s s3 := by
    simp only [s3]
    split
    · exact h2.trans (LogOnly.notify s2 _)
    · exact h2
  have h4 : LogOnly s s4 := h3.trans ⟨_, _, _, _, _, _, _, rfl⟩
  split
  · exact h4.trans ⟨_, _, _, _, _, _, _, rfl⟩
  · exact h4

/-- The same with the LOG_OVERFLOW that a loss may make. -/
theorem LogOnly.logEvent (s : State) (e : Ev) : LogOnly s (logEvent s e) := by
  unfold Machine.logEvent
  extract_lets l s1
  have h : LogOnly s s1 := LogOnly.logEvent1 s e
  split
  · exact h
  · split
    · exact h.trans (LogOnly.logEvent1 s1 _)
    · exact h

/-- What logging leaves, for the parts that statements speak of. -/
theorem logEvent_keeps (s : State) (e : Ev) : (logEvent s e).pending = s.pending ∧ (logEvent s e).tiles = s.tiles ∧
    (logEvent s e).parts = s.parts ∧ (logEvent s e).ctxs = s.ctxs ∧ (logEvent s e).dbgLevel = s.dbgLevel ∧
    (logEvent s e).sec = s.sec ∧ (logEvent s e).hub = s.hub := by
  obtain ⟨_, _, _, _, _, _, _, h⟩ := LogOnly.logEvent s e
  rw [h]
  exact ⟨rfl, rfl, rfl, rfl, rfl, rfl, rfl⟩

@[simp] theorem logEvent_pending (s : State) (e : Ev) : (logEvent s e).pending = s.pending := (logEvent_keeps s e).1
@[simp] theorem logEvent_tiles (s : State) (e : Ev) : (logEvent s e).tiles = s.tiles := (logEvent_keeps s e).2.1
@[simp] theorem logEvent_parts (s : State) (e : Ev) : (logEvent s e).parts = s.parts := (logEvent_keeps s e).2.2.1
@[simp] theorem logEvent_ctxs (s : State) (e : Ev) : (logEvent s e).ctxs = s.ctxs := (logEvent_keeps s e).2.2.2.1
@[simp] theorem logEvent_dbgLevel (s : State) (e : Ev) : (logEvent s e).dbgLevel = s.dbgLevel := (logEvent_keeps s e).2.2.2.2.1
@[simp] theorem logEvent_sec (s : State) (e : Ev) : (logEvent s e).sec = s.sec := (logEvent_keeps s e).2.2.2.2.2.1
@[simp] theorem logEvent_hub (s : State) (e : Ev) : (logEvent s e).hub = s.hub := (logEvent_keeps s e).2.2.2.2.2.2

/-- A notification leaves the memories canonical. -/
theorem notify_canonical {s : State} (h : MemoryCanonical s) (m : EvMsg) : MemoryCanonical (notify s m) := by
  unfold notify
  split
  · exact h
  · exact h.setFn _ (h.fn _)

/-- So does logging one occurrence. -/
theorem logEvent1_canonical {s : State} (h : MemoryCanonical s) (e : Ev) : MemoryCanonical (logEvent1 s e) := by
  unfold Machine.logEvent1
  extract_lets time l s1 s2 s3 q pins s4
  have h2 : MemoryCanonical s2 := by
    simp only [s2]
    split <;> exact h
  have h3 : MemoryCanonical s3 := by
    simp only [s3]
    split
    · exact notify_canonical h2 _
    · exact h2
  split <;> exact h3

/-- And logging an event with the LOG_OVERFLOW that it may make. -/
theorem logEvent_canonical {s : State} (h : MemoryCanonical s) (e : Ev) : MemoryCanonical (logEvent s e) := by
  unfold Machine.logEvent
  extract_lets l s1
  have h1 : MemoryCanonical s1 := logEvent1_canonical h e
  split
  · exact h1
  · split
    · exact logEvent1_canonical h1 _
    · exact h1

/-- A reply writes the functions alone. -/
theorem reply_frame (s : State) (k n q op c st d : Nat) (l : List Nat) : ∃ fns, reply s k n q op c st d l = { s with fns } := by
  unfold reply
  split
  · exact ⟨s.fns, rfl⟩
  · exact ⟨_, rfl⟩

/-- A reply of status 0 puts one record behind the function's replies; a simple message's waits for the simple operations before it
(R560). -/
theorem okReply_fn (s : State) (k : Fin 9) (r : Req) (l : List Nat) : okReply s k r l =
    s.setFn k { s.fn k with replies := (s.fn k).replies ++ [
      { seq := r.seq, opcode := r.opcode, ctx := r.ctx, status := 0, detail := 0, payload := l, req := r.no
        after := if longMsg r.opcode then [] else repliesAhead s k }] } := by
  have h : ¬9 ≤ (k : Nat) := by omega
  simp [okReply, reply, h]

/-- A refusal puts one record with its status and detail. -/
theorem refuseMsg_fn (s : State) (k : Fin 9) (r : Req) (st d : Nat) : refuseMsg s k r st d =
    s.setFn k { s.fn k with replies := (s.fn k).replies ++ [
      { seq := r.seq, opcode := r.opcode, ctx := r.ctx, status := st, detail := d, payload := [], req := r.no
        after := if longMsg r.opcode then [] else repliesAhead s k }] } := by
  have h : ¬9 ≤ (k : Nat) := by omega
  simp [refuseMsg, reply, h]

/-- The end of a long operation writes the functions and the table of operations. -/
theorem endOp_frame (s : State) (n st : Nat) (l : List Nat) : ∃ fns ops, endOp s n st l = { s with fns, ops } := by
  unfold endOp
  split
  · exact ⟨s.fns, s.ops, rfl⟩
  · rename_i o _
    obtain ⟨fns, h⟩ := reply_frame { s with ops := tabDel s.ops n } o.fn o.req o.seq o.opcode o.ctx st (if st ≤ 1 then 0 else 0xFFFFFFFF) l
    exact ⟨fns, _, h⟩

/-- A trace record writes the log and its count. -/
theorem traceRec_frame (s : State) (code p c seg idx iter : Nat) : ∃ log trcMade,
    traceRec s code p c seg idx iter = { s with log, trcMade } := by
  unfold traceRec
  split
  · dsimp only
    split
    · exact ⟨_, _, rfl⟩
    · split
      · exact ⟨_, _, rfl⟩
      · exact ⟨_, _, rfl⟩
  · exact ⟨s.log, s.trcMade, rfl⟩

end Sys2Proof.Machine
end

