-- ==== Sys2Proof/Laws/Access.lean ====
section
/-! SUPPORT. What accesses to device memory can change, and reads of stacks that are quiet. -/

namespace Sys2Proof.Machine

/-- Waking the stacks writes the partitions alone. -/
theorem wakeHbm_frame (s : State) (p line : Nat) : ∃ parts, wakeHbm s p line = { s with parts } := by
  unfold wakeHbm
  dsimp only
  split
  · exact ⟨_, rfl⟩
  · split
    · exact ⟨s.parts, rfl⟩
    · exact ⟨_, rfl⟩

/-- Waking the stacks leaves every device memory as it was. -/
@[simp] theorem wakeHbm_mem (s : State) (p line q : Nat) : ((wakeHbm s p line).part q).hbm.mem = (s.part q).hbm.mem := by
  by_cases h : q = p
  · subst h
    unfold wakeHbm
    dsimp only
    split
    · simp only [State.part_setPart]
      split <;> rfl
    · split
      · rfl
      · simp only [State.part_setPart]
  · unfold wakeHbm
    dsimp only
    split
    · rw [State.part_setPart_ne _ _ _ _ h]
    · split
      · rfl
      · rw [State.part_setPart_ne _ _ _ _ h]

/-- t is s with other partitions, contexts, repairs and log, and the device memories of s: all that a line that reads bad can change. -/
def SameHbm (s t : State) : Prop :=
  (∀ q, (t.part q).hbm.mem = (s.part q).hbm.mem) ∧ t.tiles = s.tiles ∧ t.pending = s.pending ∧ t.sec = s.sec ∧ t.hub = s.hub

theorem SameHbm.refl (s : State) : SameHbm s s := ⟨fun _ => rfl, rfl, rfl, rfl, rfl⟩

theorem SameHbm.trans {s t u : State} (h : SameHbm s t) (k : SameHbm t u) : SameHbm s u :=
  ⟨fun q => (k.1 q).trans (h.1 q), k.2.1.trans h.2.1, k.2.2.1.trans h.2.2.1, k.2.2.2.1.trans h.2.2.2.1, k.2.2.2.2.trans h.2.2.2.2⟩

theorem SameHbm.logEvent (s : State) (e : Ev) : SameHbm s (logEvent s e) :=
  ⟨fun q => by simp [State.part], by simp, by simp, by simp, by simp⟩

/-- Another record of a partition with the same device memory. -/
theorem SameHbm.setPart {s : State} {p : Nat} {x : Part} (h : x.hbm.mem = (s.part p).hbm.mem) : SameHbm s (s.setPart p x) := by
  refine ⟨fun q => ?_, rfl, rfl, rfl, rfl⟩
  by_cases e : q = p
  · subst e
    rw [State.part_setPart]
    exact h
  · rw [State.part_setPart_ne _ _ _ _ e]

/-- Waking the stacks. -/
theorem SameHbm.wakeHbm (s : State) (p line : Nat) : SameHbm s (wakeHbm s p line) := by
  obtain ⟨a, h⟩ := wakeHbm_frame s p line
  exact ⟨fun q => wakeHbm_mem s p line q, by rw [h], by rw [h], by rw [h], by rw [h]⟩

/-- A generation that becomes DAMAGED. -/
theorem SameHbm.damageGen (s : State) (c b g chunk : Nat) : SameHbm s (damageGen s c b g chunk) := by
  unfold Machine.damageGen
  extract_lets x B gens holds mark src s1
  refine SameHbm.trans (t := s1) ⟨fun q => ?_, rfl, rfl, rfl, rfl⟩ (SameHbm.logEvent _ _)
  simp only [s1, State.part, tabGet, tabFind_tabMap]
  cases tabFind s.parts q <;> rfl

/-- What each step of a list leaves the same, the whole list leaves the same. -/
theorem SameHbm.foldl {α : Type} {f : State → α → State} (hf : ∀ s a, SameHbm s (f s a)) (s : State) (l : List α) :
    SameHbm s (l.foldl f s) := by
  induction l generalizing s with
  | nil => exact SameHbm.refl s
  | cons a l ih => exact (hf s a).trans (ih _)

/-- A request to a peer. -/
theorem SameHbm.askPeer (s : State) (c conn addr len : Nat) : SameHbm s (askPeer s c conn addr len) := by
  unfold Machine.askPeer
  split
  · exact SameHbm.refl s
  · exact ⟨fun _ => rfl, rfl, rfl, rfl, rfl⟩

/-- The requests of a repair. -/
theorem SameHbm.askRepair (s : State) (p c : Nat) (w : WGen) (sb : Nat × Nat) : SameHbm s (askRepair s p c w sb) := by
  unfold Machine.askRepair
  split
  · exact SameHbm.refl s
  · exact SameHbm.foldl (fun s k => SameHbm.askPeer s _ _ _ _) s _

/-- One superblock that is poisoned. -/
theorem SameHbm.poisonSb (s : State) (p c b g : Nat) (w : WGen) (sb : Nat × Nat) : SameHbm s (poisonSb s p c b g w sb) := by
  unfold Machine.poisonSb
  extract_lets lines P hb s1 rep live
  have h : SameHbm s s1 := SameHbm.setPart rfl
  split
  · exact h
  · split
    · exact h.trans (SameHbm.damageGen s1 _ _ _ _)
    · refine h.trans (SameHbm.trans ?_ (SameHbm.askRepair _ _ _ _ _))
      exact ⟨fun _ => rfl, rfl, rfl, rfl, rfl⟩

/-- The repair of a resident region that read bad. -/
theorem SameHbm.residentPoison (s : State) (p line : Nat) : SameHbm s (residentPoison s p line) := by
  unfold Machine.residentPoison
  split
  · exact SameHbm.refl s
  · split
    · exact SameHbm.refl s
    · exact SameHbm.foldl (fun s x => SameHbm.poisonSb s _ _ _ _ _ x) s _

/-- The count of a corrected error. -/
theorem SameHbm.correctedLine (s : State) (p line : Nat) : SameHbm s (correctedLine s p line) := by
  unfold Machine.correctedLine
  extract_lets key P r times deg hb s1 data s2
  have h1 : SameHbm s s1 := SameHbm.setPart rfl
  have h : SameHbm s s2 := h1.trans (SameHbm.logEvent s1 _)
  split
  · exact h.trans (SameHbm.logEvent s2 _)
  · exact h

/-- Reading a line leaves every device memory, the tiles, the queue and the fuses as they were. -/
theorem readLine_same (s : State) (p line unit : Nat) : SameHbm s (readLine s p line unit).2 := by
  unfold readLine
  extract_lets w hb P w1 w2
  have hw : SameHbm s w := SameHbm.wakeHbm s p line
  split
  · exact hw
  · split
    · have h1 : SameHbm w w1 := SameHbm.setPart rfl
      have h2 : SameHbm w1 w2 := SameHbm.logEvent _ _
      exact ((hw.trans h1).trans h2).trans (SameHbm.residentPoison w2 p line)
    · split
      · refine (hw.trans (SameHbm.setPart ?_)).trans (SameHbm.correctedLine _ _ _)
        rfl
      · exact hw

/-- The state in which a line write puts its bytes. -/
theorem writeLine_base (s : State) (p d : Nat) (bs : List PByte) :
    SameHbm s (if bs.length = 64 then wakeHbm s p (d / 64) else (readLine s p (d / 64) mergeUnit).2) := by
  split
  · exact SameHbm.wakeHbm _ _ _
  · exact readLine_same _ _ _ _

/-- A line write stores its bytes, without their marks, at their place. -/
@[simp] theorem writeLine_mem (s : State) (p d : Nat) (bs : List PByte) :
    ((writeLine s p d bs).part p).hbm.mem = memWrite (s.part p).hbm.mem d (bs.map (·.1)) := by
  unfold writeLine
  dsimp only
  rw [State.part_setPart]
  exact congrArg (fun m => memWrite m d (bs.map (·.1))) ((writeLine_base s p d bs).1 p)

/-- It leaves the other partitions' memories. -/
theorem writeLine_mem_ne (s : State) (p d q : Nat) (bs : List PByte) (h : q ≠ p) :
    ((writeLine s p d bs).part q).hbm.mem = (s.part q).hbm.mem := by
  unfold writeLine
  dsimp only
  rw [State.part_setPart_ne _ _ _ _ h]
  exact (writeLine_base s p d bs).1 q

/-- It leaves the tiles, the queue, the fuses and the hub counter. -/
theorem writeLine_keeps (s : State) (p d : Nat) (bs : List PByte) : (writeLine s p d bs).tiles = s.tiles ∧
    (writeLine s p d bs).pending = s.pending ∧ (writeLine s p d bs).sec = s.sec ∧ (writeLine s p d bs).hub = s.hub :=
  (writeLine_base s p d bs).2

/-- Zeroing frames leaves a canonical memory canonical. -/
theorem zeroUnits_canonical {s : State} (h : MemoryCanonical s) (p : Nat) (l : List Nat) : MemoryCanonical (zeroUnits s p l) :=
  h.setPart p (wfFrom_filter (h.part p) _)

/-- So does waking the stacks. -/
theorem wakeHbm_canonical {s : State} (h : MemoryCanonical s) (p line : Nat) : MemoryCanonical (wakeHbm s p line) := by
  have hp := h.part p
  unfold wakeHbm
  dsimp only
  split
  · refine h.setPart p ?_
    dsimp only
    split <;> exact hp
  · split
    · exact h
    · exact h.setPart p hp

/-- So does a generation that becomes DAMAGED. -/
theorem damageGen_canonical {s : State} (h : MemoryCanonical s) (c b g chunk : Nat) : MemoryCanonical (damageGen s c b g chunk) := by
  unfold damageGen
  extract_lets x B gens holds mark src s1
  refine logEvent_canonical (s := s1) ⟨fun e he => ?_, h.2.1, h.2.2⟩ _
  obtain ⟨x, hx, rfl⟩ := List.mem_map.mp he
  exact h.1 x hx

/-- What each step of a list leaves canonical, the whole list leaves canonical. -/
theorem MemoryCanonical.foldl {α : Type} {f : State → α → State} (hf : ∀ {s} a, MemoryCanonical s → MemoryCanonical (f s a))
    {s : State} (h : MemoryCanonical s) (l : List α) : MemoryCanonical (l.foldl f s) := by
  induction l generalizing s with
  | nil => exact h
  | cons a l ih => exact ih (hf a h)

/-- So does a request to a peer. -/
theorem askPeer_canonical {s : State} (h : MemoryCanonical s) (c conn addr len : Nat) : MemoryCanonical (askPeer s c conn addr len) := by
  unfold askPeer
  split
  · exact h
  · exact h

/-- So do the requests of a repair. -/
theorem askRepair_canonical {s : State} (h : MemoryCanonical s) (p c : Nat) (w : WGen) (sb : Nat × Nat) :
    MemoryCanonical (askRepair s p c w sb) := by
  unfold askRepair
  split
  · exact h
  · exact h.foldl (fun k h => askPeer_canonical h _ _ _ _) _

/-- So does a superblock that is poisoned. -/
theorem poisonSb_canonical {s : State} (h : MemoryCanonical s) (p c b g : Nat) (w : WGen) (sb : Nat × Nat) :
    MemoryCanonical (poisonSb s p c b g w sb) := by
  unfold poisonSb
  extract_lets lines P hb s1 rep live
  have h1 : MemoryCanonical s1 := h.setPart p (h.part p)
  split
  · exact h1
  · split
    · exact damageGen_canonical h1 _ _ _ _
    · exact askRepair_canonical (s := { s1 with repairs := s1.repairs ++ [rep] }) h1 _ _ _ _

/-- So does the repair of a resident region. -/
theorem residentPoison_canonical {s : State} (h : MemoryCanonical s) (p line : Nat) : MemoryCanonical (residentPoison s p line) := by
  unfold residentPoison
  split
  · exact h
  · split
    · exact h
    · exact h.foldl (fun x h => poisonSb_canonical h _ _ _ _ _ x) _

/-- So does the count of a corrected error. -/
theorem correctedLine_canonical {s : State} (h : MemoryCanonical s) (p line : Nat) : MemoryCanonical (correctedLine s p line) := by
  unfold correctedLine
  extract_lets key P r times deg hb s1 data s2
  have h1 : MemoryCanonical s1 := h.setPart p (h.part p)
  have h2 : MemoryCanonical s2 := logEvent_canonical h1 _
  split
  · exact logEvent_canonical h2 _
  · exact h2

/-- So does reading a line. -/
theorem readLine_canonical {s : State} (h : MemoryCanonical s) (p line unit : Nat) : MemoryCanonical (readLine s p line unit).2 := by
  unfold readLine
  extract_lets w hb P w1 w2
  have hw : MemoryCanonical w := wakeHbm_canonical h p line
  split
  · exact hw
  · split
    · have h1 : MemoryCanonical w1 := hw.setPart p (hw.part p)
      have h2 : MemoryCanonical w2 := logEvent_canonical h1 _
      exact residentPoison_canonical h2 p line
    · split
      · refine correctedLine_canonical ?_ _ _
        exact hw.setPart p (hw.part p)
      · exact hw

/-- So does writing a line. -/
theorem writeLine_canonical {s : State} (h : MemoryCanonical s) (p d : Nat) (bs : List PByte) :
    MemoryCanonical (writeLine s p d bs) := by
  have hw : MemoryCanonical (if bs.length = 64 then wakeHbm s p (d / 64) else (readLine s p (d / 64) mergeUnit).2) := by
    split
    · exact wakeHbm_canonical h _ _
    · exact readLine_canonical h _ _ _
  unfold writeLine
  dsimp only
  exact hw.setPart p (memWrite_wf (hw.part p) _ _)

/-- The stacks of partition p are awake, and no line of them holds an error. -/
def Quiet (s : State) (p : Nat) : Prop :=
  (s.part p).act ≠ 3 ∧ (s.part p).hbm.ca = [] ∧ (s.part p).hbm.poison = [] ∧ (s.part p).hbm.ue = [] ∧ (s.part p).hbm.ce = []

/-- Reading a line of quiet stacks gives no poison and changes nothing. -/
theorem readLine_quiet {s : State} {p : Nat} (h : Quiet s p) (line unit : Nat) : readLine s p line unit = (false, s) := by
  obtain ⟨h1, h2, h3, h4, h5⟩ := h
  simp [readLine, wakeHbm, h1, h2, h3, h4, h5]

/-- Reading inside one line of quiet stacks gives the bytes of the memory and changes nothing. -/
theorem readDva_quiet {s : State} {frm c v a n unit q d : Nat} (hp : pieces a n = [(a, n)])
    (ht : translate s c v a false = .ok (q, d)) (hr : reachable s frm q = true) (hq : Quiet s q) :
    readDva s frm c v a n unit = .ok ((memRead (s.part q).hbm.mem d n).map (·, false), s) := by
  simp [readDva, hp, ht, hr, readLine_quiet hq]

/-- Bytes of device memory that a context's partition reads from its own quiet stacks: nothing is counted and nothing changes. -/
theorem readHbm_quiet {s : State} {p c v a n unit d : Nat} (hp : pieces a n = [(a, n)])
    (ht : translate s c v a false = .ok (p, d)) (hr : reachable s p p = true) (hq : Quiet s p) :
    readHbm s p c v a n unit = .ok ((memRead (s.part p).hbm.mem d n).map (·, false), s) := by
  simp [readHbm, readDva_quiet hp ht hr hq, chargeHbm, crossBytes, hp, ht, charge]

/-- The totals of a layer exist where every entry lies in one line of the partition's own quiet stacks. -/
theorem layerTotals_quiet {s : State} {p : Nat} {i : Inst} {l : List Nat}
    (h : ∀ k ∈ List.range (768 * lyChunks l), pieces (lyStat l + 64 * k) 64 = [(lyStat l + 64 * k, 64)] ∧
      ∃ d, translate s i.ctx i.mapVer (lyStat l + 64 * k) false = .ok (p, d)) (hr : reachable s p p = true) (hq : Quiet s p) :
    ∃ tot, layerTotals s p i l = .ok (some tot, s) := by
  unfold layerTotals
  generalize List.range (768 * lyChunks l) = ks at h
  generalize List.replicate 8 0 = t0
  induction ks generalizing t0 with
  | nil => exact ⟨t0, rfl⟩
  | cons k ks ih =>
    obtain ⟨h1, d, h2⟩ := h k (by simp)
    have hn : ((memRead (s.part p).hbm.mem d 64).map (fun x => (x, false))).any (·.2) = false := by simp
    simp only [List.foldl_cons, readHbm_quiet h1 h2 hr hq, hn, Bool.false_eq_true, if_false]
    exact ih (fun k hk => h k (List.mem_cons_of_mem _ hk)) _

end Sys2Proof.Machine
end

