-- ==== Sys2Proof/Laws/Messages.lean ====
section
/-! SUPPORT. The frame in which a message runs, and the check lists of the messages. -/

namespace Sys2Proof.Machine

/-- A message that is asked for runs its body on the state without the request. -/
theorem runMsg_asked {s u : State} {k op : Nat} {r : Req} (h : Asked s k op r u) (fits : Req → Bool) (hf : fits r = true)
    (body : State → Req → State) : runMsg s k op fits body = body u r := by
  obtain ⟨h1, h2, h3, h4, h5, h6, h7⟩ := h
  have a1 : (k != k || r.opcode != op || !fits r || !s.mcpReady || s.stopped) = false := by simp [h2, hf, h3, h4]
  have a2 : (s.power.a4 && needsPart op) = false := by rcases h5 with h5 | h5 <;> simp [h5]
  have a3 : (r.ctx != 0 && ((s.ctx r.ctx).st == .free || (s.ctx r.ctx).owner != k)) = false := by
    rcases h6 with h6 | ⟨h6, h8, _⟩
    · simp [h6]
    · simp [h6, h8]
  have a4 : (r.ctx != 0 && op != 0x0103 && (s.ctx r.ctx).st != .open) = false := by
    rcases h6 with h6 | ⟨_, _, h6 | h6⟩ <;> simp [h6]
  have e : { s with taken := u.taken } = u := h7.symm
  unfold runMsg
  rw [h1]
  have c1 : ({ s with taken := u.taken } : State).ctx r.ctx = s.ctx r.ctx := rfl
  simp only [a1, a2, a3, a4]
  rw [e]
  rfl

/-- The same where one row stands for the opcode. -/
theorem runOp_asked {s u : State} {k op : Nat} {r : Req} (h : Asked s k op r u) (body : State → Req → State) :
    runOp s k op body = body u r := runMsg_asked h _ rfl body

/-- With no check that fails the message goes on. -/
theorem checked_go {s : State} {k : Nat} {r : Req} {l : List (Bool × Nat × Nat)} {go : State} (h : firstBad l = none) :
    checked s k r l go = go := by simp [checked, h]

/-- The first check that fails refuses the message with its status and detail. -/
theorem checked_refuse {s : State} {k st d : Nat} {r : Req} {l : List (Bool × Nat × Nat)} {go : State}
    (h : firstBad l = some (st, d)) : checked s k r l go = refuseMsg s k r st d := by simp [checked, h]

/-- No check of the empty list fails. -/
theorem firstBad_nil : firstBad [] = none := rfl

/-- A check that passes leaves the others. -/
theorem firstBad_cons {b : Bool} {st d : Nat} {l : List (Bool × Nat × Nat)} (h : b = false) (h2 : firstBad l = none) :
    firstBad ((b, st, d) :: l) = none := by simp [firstBad, h, h2]

/-- Reserved bits that are 0 pass. -/
theorem firstBad_reserved {r : Req} {masks : List Nat} {l : List (Bool × Nat × Nat)} (st : Nat) (h : NoBits r masks)
    (h2 : firstBad l = none) : firstBad (reservedCheck masks r.payload st :: l) = none := by
  unfold NoBits at h
  simp [reservedCheck, h, firstBad, h2]

/-- Two lists of checks that pass, one behind the other. -/
theorem firstBad_append {l m : List (Bool × Nat × Nat)} (h : firstBad l = none) (h2 : firstBad m = none) :
    firstBad (l ++ m) = none := by
  induction l with
  | nil => exact h2
  | cons x l ih =>
    obtain ⟨b, st, d⟩ := x
    cases b with
    | true => simp [firstBad] at h
    | false => exact firstBad_cons rfl (ih (by simpa [firstBad] using h))

/-- A partition that is the function's and the context's passes. -/
theorem firstBad_part {u : State} {k p i own : Nat} {r : Req} (h : PartOk u k r p) : firstBad (partChecks u k r p i own) = none := by
  simp [partChecks, firstBad, h.1, h.2]

end Sys2Proof.Machine
end

