-- ==== Sys2Proof/Laws/PerInstr.lean ====
section
/-! SUPPORT. Statements about every command as syntax, one lemma per constructor. -/

namespace Sys2Proof.Laws

/-- The commands with an operand that its type leaves wider than the interface: a width, a length, a measurement, a core. -/
def WellFormed.wide : Instr → Bool
  | .registerWrite .. => true
  | .bar0AccessInvalid .. => true
  | .bar2Read .. => true
  | .bar2Write .. => true
  | .pcieLinkTrained .. => true
  | .flitReceive .. => true
  | .identityReceived .. => true
  | .hubCoreFail .. => true
  | .sunriseEnd .. => true
  | .envelopeUpdate .. => true
  | _ => false

/-- A command is well formed by its types alone, unless it has such an operand. -/
def WellFormed.Statement (i : Instr) : Prop := WellFormed.wide i = false → i.wf = true

theorem WellFormed.nop (p : Fin 8) (t : Fin 16) : WellFormed.Statement (.nop p t) := fun _ => rfl
theorem WellFormed.endKernel (p : Fin 8) (t : Fin 16) : WellFormed.Statement (.endKernel p t) := fun _ => rfl
theorem WellFormed.loop (p : Fin 8) (t : Fin 16) : WellFormed.Statement (.loop p t) := fun _ => rfl
theorem WellFormed.sli (p : Fin 8) (t : Fin 16) : WellFormed.Statement (.sli p t) := fun _ => rfl
theorem WellFormed.salu (p : Fin 8) (t : Fin 16) : WellFormed.Statement (.salu p t) := fun _ => rfl
theorem WellFormed.sld (p : Fin 8) (t : Fin 16) : WellFormed.Statement (.sld p t) := fun _ => rfl
theorem WellFormed.sst (p : Fin 8) (t : Fin 16) : WellFormed.Statement (.sst p t) := fun _ => rfl
theorem WellFormed.reservedOpcode (p : Fin 8) (t : Fin 16) : WellFormed.Statement (.reservedOpcode p t) := fun _ => rfl
theorem WellFormed.imageOverrun (p : Fin 8) (t : Fin 16) : WellFormed.Statement (.imageOverrun p t) := fun _ => rfl
theorem WellFormed.vadd (p : Fin 8) (t : Fin 16) : WellFormed.Statement (.vadd p t) := fun _ => rfl
theorem WellFormed.vsub (p : Fin 8) (t : Fin 16) : WellFormed.Statement (.vsub p t) := fun _ => rfl
theorem WellFormed.vmul (p : Fin 8) (t : Fin 16) : WellFormed.Statement (.vmul p t) := fun _ => rfl
theorem WellFormed.vfma (p : Fin 8) (t : Fin 16) : WellFormed.Statement (.vfma p t) := fun _ => rfl
theorem WellFormed.vmin (p : Fin 8) (t : Fin 16) : WellFormed.Statement (.vmin p t) := fun _ => rfl
theorem WellFormed.vmax (p : Fin 8) (t : Fin 16) : WellFormed.Statement (.vmax p t) := fun _ => rfl
theorem WellFormed.vabs (p : Fin 8) (t : Fin 16) : WellFormed.Statement (.vabs p t) := fun _ => rfl
theorem WellFormed.vneg (p : Fin 8) (t : Fin 16) : WellFormed.Statement (.vneg p t) := fun _ => rfl
theorem WellFormed.vand (p : Fin 8) (t : Fin 16) : WellFormed.Statement (.vand p t) := fun _ => rfl
theorem WellFormed.vor (p : Fin 8) (t : Fin 16) : WellFormed.Statement (.vor p t) := fun _ => rfl
theorem WellFormed.vxor (p : Fin 8) (t : Fin 16) : WellFormed.Statement (.vxor p t) := fun _ => rfl
theorem WellFormed.vshl (p : Fin 8) (t : Fin 16) : WellFormed.Statement (.vshl p t) := fun _ => rfl
theorem WellFormed.vshr (p : Fin 8) (t : Fin 16) : WellFormed.Statement (.vshr p t) := fun _ => rfl
theorem WellFormed.vsra (p : Fin 8) (t : Fin 16) : WellFormed.Statement (.vsra p t) := fun _ => rfl
theorem WellFormed.vmov (p : Fin 8) (t : Fin 16) : WellFormed.Statement (.vmov p t) := fun _ => rfl
theorem WellFormed.vbcast (p : Fin 8) (t : Fin 16) : WellFormed.Statement (.vbcast p t) := fun _ => rfl
theorem WellFormed.viota (p : Fin 8) (t : Fin 16) : WellFormed.Statement (.viota p t) := fun _ => rfl
theorem WellFormed.vext (p : Fin 8) (t : Fin 16) : WellFormed.Statement (.vext p t) := fun _ => rfl
theorem WellFormed.vins (p : Fin 8) (t : Fin 16) : WellFormed.Statement (.vins p t) := fun _ => rfl
theorem WellFormed.vperm (p : Fin 8) (t : Fin 16) : WellFormed.Statement (.vperm p t) := fun _ => rfl
theorem WellFormed.vpack (p : Fin 8) (t : Fin 16) : WellFormed.Statement (.vpack p t) := fun _ => rfl
theorem WellFormed.vcmp (p : Fin 8) (t : Fin 16) : WellFormed.Statement (.vcmp p t) := fun _ => rfl
theorem WellFormed.vsel (p : Fin 8) (t : Fin 16) : WellFormed.Statement (.vsel p t) := fun _ => rfl
theorem WellFormed.mlog (p : Fin 8) (t : Fin 16) : WellFormed.Statement (.mlog p t) := fun _ => rfl
theorem WellFormed.mpop (p : Fin 8) (t : Fin 16) : WellFormed.Statement (.mpop p t) := fun _ => rfl
theorem WellFormed.mfirst (p : Fin 8) (t : Fin 16) : WellFormed.Statement (.mfirst p t) := fun _ => rfl
theorem WellFormed.cvt (p : Fin 8) (t : Fin 16) : WellFormed.Statement (.cvt p t) := fun _ => rfl
theorem WellFormed.vld (p : Fin 8) (t : Fin 16) : WellFormed.Statement (.vld p t) := fun _ => rfl
theorem WellFormed.vst (p : Fin 8) (t : Fin 16) : WellFormed.Statement (.vst p t) := fun _ => rfl
theorem WellFormed.red (p : Fin 8) (t : Fin 16) : WellFormed.Statement (.red p t) := fun _ => rfl
theorem WellFormed.mmul (p : Fin 8) (t : Fin 16) : WellFormed.Statement (.mmul p t) := fun _ => rfl
theorem WellFormed.mwait (p : Fin 8) (t : Fin 16) : WellFormed.Statement (.mwait p t) := fun _ => rfl
theorem WellFormed.matrixPassStart (p : Fin 8) (t : Fin 16) (conf : Nat) (sp : Spc) : WellFormed.Statement (.matrixPassStart p t conf sp) := fun _ => rfl
theorem WellFormed.matrixCommandComplete (p : Fin 8) (t : Fin 16) : WellFormed.Statement (.matrixCommandComplete p t) := fun _ => rfl
theorem WellFormed.dma (p : Fin 8) (t : Fin 16) : WellFormed.Statement (.dma p t) := fun _ => rfl
theorem WellFormed.dwait (p : Fin 8) (t : Fin 16) : WellFormed.Statement (.dwait p t) := fun _ => rfl
theorem WellFormed.dmaDescriptorStart (p : Fin 8) (t : Fin 16) : WellFormed.Statement (.dmaDescriptorStart p t) := fun _ => rfl
theorem WellFormed.dmaDescriptorRetire (p : Fin 8) (t : Fin 16) : WellFormed.Statement (.dmaDescriptorRetire p t) := fun _ => rfl
theorem WellFormed.dmaBankStarvation (p : Fin 8) (t : Fin 16) (sp : Spc) : WellFormed.Statement (.dmaBankStarvation p t sp) := fun _ => rfl
theorem WellFormed.kvapp (p : Fin 8) (t : Fin 16) : WellFormed.Statement (.kvapp p t) := fun _ => rfl
theorem WellFormed.kvappComplete (p : Fin 8) (t : Fin 16) : WellFormed.Statement (.kvappComplete p t) := fun _ => rfl
theorem WellFormed.kvwait (p : Fin 8) (t : Fin 16) : WellFormed.Statement (.kvwait p t) := fun _ => rfl
theorem WellFormed.kvgather (p : Fin 8) (t : Fin 16) : WellFormed.Statement (.kvgather p t) := fun _ => rfl
theorem WellFormed.sfn (p : Fin 8) (t : Fin 16) : WellFormed.Statement (.sfn p t) := fun _ => rfl
theorem WellFormed.sglu (p : Fin 8) (t : Fin 16) : WellFormed.Statement (.sglu p t) := fun _ => rfl
theorem WellFormed.smpr (p : Fin 8) (t : Fin 16) : WellFormed.Statement (.smpr p t) := fun _ => rfl
theorem WellFormed.mmulg (p : Fin 8) (t : Fin 16) : WellFormed.Statement (.mmulg p t) := fun _ => rfl
theorem WellFormed.gsend (p : Fin 8) (t : Fin 16) : WellFormed.Statement (.gsend p t) := fun _ => rfl
theorem WellFormed.gsendRetire (p : Fin 8) (t : Fin 16) : WellFormed.Statement (.gsendRetire p t) := fun _ => rfl
theorem WellFormed.gctlQuery (p : Fin 8) (t : Fin 16) : WellFormed.Statement (.gctlQuery p t) := fun _ => rfl
theorem WellFormed.gctlRelease (p : Fin 8) (t : Fin 16) : WellFormed.Statement (.gctlRelease p t) := fun _ => rfl
theorem WellFormed.svuPhase1Element (p : Fin 8) (t : Fin 16) : WellFormed.Statement (.svuPhase1Element p t) := fun _ => rfl
theorem WellFormed.svuStreamGroup (p : Fin 8) (inst : Nat) (svu : Fin 768) : WellFormed.Statement (.svuStreamGroup p inst svu) := fun _ => rfl
theorem WellFormed.kernelImageLoadDone (p : Fin 8) (inst : Nat) : WellFormed.Statement (.kernelImageLoadDone p inst) := fun _ => rfl
theorem WellFormed.kernelDispatch (p : Fin 8) (inst : Nat) : WellFormed.Statement (.kernelDispatch p inst) := fun _ => rfl
theorem WellFormed.svuKernelDispatch (p : Fin 8) (inst : Nat) : WellFormed.Statement (.svuKernelDispatch p inst) := fun _ => rfl
theorem WellFormed.copyLinear (p : Fin 8) (inst : Nat) (src : HostRd) : WellFormed.Statement (.copyLinear p inst src) := fun _ => rfl
theorem WellFormed.copyNvwsStream (p : Fin 8) (inst : Nat) (src : HostRd) : WellFormed.Statement (.copyNvwsStream p inst src) := fun _ => rfl
theorem WellFormed.copyFabric (p : Fin 8) (inst : Nat) (src : HostRd) : WellFormed.Statement (.copyFabric p inst src) := fun _ => rfl
theorem WellFormed.copyRdma (p : Fin 8) (inst : Nat) (src : HostRd) : WellFormed.Statement (.copyRdma p inst src) := fun _ => rfl
theorem WellFormed.kvExport (p : Fin 8) (inst : Nat) : WellFormed.Statement (.kvExport p inst) := fun _ => rfl
theorem WellFormed.kvImport (p : Fin 8) (inst : Nat) (src : HostRd) : WellFormed.Statement (.kvImport p inst src) := fun _ => rfl
theorem WellFormed.waitFence (p : Fin 8) (inst : Nat) : WellFormed.Statement (.waitFence p inst) := fun _ => rfl
theorem WellFormed.waitMemoryPoll (p : Fin 8) (inst : Nat) (rd : HostRd) : WellFormed.Statement (.waitMemoryPoll p inst rd) := fun _ => rfl
theorem WellFormed.condPoll (p : Fin 8) (inst : Nat) (rd : HostRd) : WellFormed.Statement (.condPoll p inst rd) := fun _ => rfl
theorem WellFormed.waitTimeout (p : Fin 8) (inst : Nat) : WellFormed.Statement (.waitTimeout p inst) := fun _ => rfl
theorem WellFormed.signal (p : Fin 8) (inst : Nat) : WellFormed.Statement (.signal p inst) := fun _ => rfl
theorem WellFormed.loopIterationStart (p : Fin 8) (inst : Nat) (rd : HostRd) : WellFormed.Statement (.loopIterationStart p inst rd) := fun _ => rfl
theorem WellFormed.call (p : Fin 8) (inst : Nat) : WellFormed.Statement (.call p inst) := fun _ => rfl
theorem WellFormed.send (p : Fin 8) (inst : Nat) : WellFormed.Statement (.send p inst) := fun _ => rfl
theorem WellFormed.sendArm (p : Fin 8) (inst : Nat) : WellFormed.Statement (.sendArm p inst) := fun _ => rfl
theorem WellFormed.epoch (p : Fin 8) (inst : Nat) : WellFormed.Statement (.epoch p inst) := fun _ => rfl
theorem WellFormed.event (p : Fin 8) (inst : Nat) : WellFormed.Statement (.event p inst) := fun _ => rfl
theorem WellFormed.join (p : Fin 8) (inst : Nat) : WellFormed.Statement (.join p inst) := fun _ => rfl
theorem WellFormed.nodeCommit (p : Fin 8) (inst : Nat) (cons : HostRd) : WellFormed.Statement (.nodeCommit p inst cons) := fun _ => rfl
theorem WellFormed.completionRecordWrite (p : Fin 8) (ctx : Fin 64) (cons : HostRd) : WellFormed.Statement (.completionRecordWrite p ctx cons) := fun _ => rfl
theorem WellFormed.nodeBudget (p : Fin 8) (inst : Nat) : WellFormed.Statement (.nodeBudget p inst) := fun _ => rfl
theorem WellFormed.nodeIo (p : Fin 8) (inst : Nat) : WellFormed.Statement (.nodeIo p inst) := fun _ => rfl
theorem WellFormed.sendAckTimeout (p : Fin 8) (inst : Nat) : WellFormed.Statement (.sendAckTimeout p inst) := fun _ => rfl
theorem WellFormed.deadlockCheck : WellFormed.Statement (.deadlockCheck) := fun _ => rfl
theorem WellFormed.slotBoundary (p : Fin 8) : WellFormed.Statement (.slotBoundary p) := fun _ => rfl
theorem WellFormed.graceExpiry (p : Fin 8) : WellFormed.Statement (.graceExpiry p) := fun _ => rfl
theorem WellFormed.regulatorRefill (p : Fin 8) : WellFormed.Statement (.regulatorRefill p) := fun _ => rfl
theorem WellFormed.cmiReqCtrlGo (fn : Fin 9) : WellFormed.Statement (.cmiReqCtrlGo fn) := fun _ => rfl
theorem WellFormed.mcpTakeRequest (fn : Fin 9) : WellFormed.Statement (.mcpTakeRequest fn) := fun _ => rfl
theorem WellFormed.cmiRspValidClear (fn : Fin 9) : WellFormed.Statement (.cmiRspValidClear fn) := fun _ => rfl
theorem WellFormed.cmiResponseDelivery (fn : Fin 9) : WellFormed.Statement (.cmiResponseDelivery fn) := fun _ => rfl
theorem WellFormed.identityQuery (fn : Fin 9) : WellFormed.Statement (.identityQuery fn) := fun _ => rfl
theorem WellFormed.ctxCreate (fn : Fin 9) : WellFormed.Statement (.ctxCreate fn) := fun _ => rfl
theorem WellFormed.ctxDestroy (fn : Fin 9) : WellFormed.Statement (.ctxDestroy fn) := fun _ => rfl
theorem WellFormed.ctxDrainEnd (ctx : Fin 64) (clean : Bool) : WellFormed.Statement (.ctxDrainEnd ctx clean) := fun _ => rfl
theorem WellFormed.ctxZeroingEnd (ctx : Fin 64) : WellFormed.Statement (.ctxZeroingEnd ctx) := fun _ => rfl
theorem WellFormed.ctxQuery (fn : Fin 9) : WellFormed.Statement (.ctxQuery fn) := fun _ => rfl
theorem WellFormed.fenceGrant (fn : Fin 9) : WellFormed.Statement (.fenceGrant fn) := fun _ => rfl
theorem WellFormed.fenceRevoke (fn : Fin 9) : WellFormed.Statement (.fenceRevoke fn) := fun _ => rfl
theorem WellFormed.connOpen (fn : Fin 9) : WellFormed.Statement (.connOpen fn) := fun _ => rfl
theorem WellFormed.connReady (handle : Nat) : WellFormed.Statement (.connReady handle) := fun _ => rfl
theorem WellFormed.connClose (fn : Fin 9) : WellFormed.Statement (.connClose fn) := fun _ => rfl
theorem WellFormed.memAlloc (fn : Fin 9) : WellFormed.Statement (.memAlloc fn) := fun _ => rfl
theorem WellFormed.memFree (fn : Fin 9) : WellFormed.Statement (.memFree fn) := fun _ => rfl
theorem WellFormed.memFreeZeroDone (ctx : Fin 64) (handle : Nat) : WellFormed.Statement (.memFreeZeroDone ctx handle) := fun _ => rfl
theorem WellFormed.memMap (fn : Fin 9) : WellFormed.Statement (.memMap fn) := fun _ => rfl
theorem WellFormed.memUnmap (fn : Fin 9) : WellFormed.Statement (.memUnmap fn) := fun _ => rfl
theorem WellFormed.bar2WindowSet (fn : Fin 9) : WellFormed.Statement (.bar2WindowSet fn) := fun _ => rfl
theorem WellFormed.svuProgLoad (fn : Fin 9) : WellFormed.Statement (.svuProgLoad fn) := fun _ => rfl
theorem WellFormed.kvTableSet (fn : Fin 9) : WellFormed.Statement (.kvTableSet fn) := fun _ => rfl
theorem WellFormed.graphPost (fn : Fin 9) (nodes : HostRd) : WellFormed.Statement (.graphPost fn nodes) := fun _ => rfl
theorem WellFormed.subgraphRelease (fn : Fin 9) : WellFormed.Statement (.subgraphRelease fn) := fun _ => rfl
theorem WellFormed.graphAbort (fn : Fin 9) : WellFormed.Statement (.graphAbort fn) := fun _ => rfl
theorem WellFormed.cplRingSet (fn : Fin 9) : WellFormed.Statement (.cplRingSet fn) := fun _ => rfl
theorem WellFormed.graphQuery (fn : Fin 9) : WellFormed.Statement (.graphQuery fn) := fun _ => rfl
theorem WellFormed.weightKeyImport (fn : Fin 9) : WellFormed.Statement (.weightKeyImport fn) := fun _ => rfl
theorem WellFormed.weightLoad (fn : Fin 9) (image : HostRd) : WellFormed.Statement (.weightLoad fn image) := fun _ => rfl
theorem WellFormed.install (fn : Fin 9) (image : HostRd) : WellFormed.Statement (.install fn image) := fun _ => rfl
theorem WellFormed.weightShardArrival (load : Nat) (chunk : Nat) (shard : Option (List Byte)) : WellFormed.Statement (.weightShardArrival load chunk shard) := fun _ => rfl
theorem WellFormed.weightShardTimeout (load : Nat) (chunk : Nat) : WellFormed.Statement (.weightShardTimeout load chunk) := fun _ => rfl
theorem WellFormed.weightLoadComplete (load : Nat) : WellFormed.Statement (.weightLoadComplete load) := fun _ => rfl
theorem WellFormed.weightDrop (fn : Fin 9) : WellFormed.Statement (.weightDrop fn) := fun _ => rfl
theorem WellFormed.weightDropComplete (ctx : Fin 64) (binding : Fin 16) (generation : Nat) : WellFormed.Statement (.weightDropComplete ctx binding generation) := fun _ => rfl
theorem WellFormed.nvwsImageErase (fn : Fin 9) : WellFormed.Statement (.nvwsImageErase fn) := fun _ => rfl
theorem WellFormed.weightQuery (fn : Fin 9) : WellFormed.Statement (.weightQuery fn) := fun _ => rfl
theorem WellFormed.weightRepairComplete (ctx : Fin 64) (binding : Fin 16) (generation : Nat) (src : HostRd) : WellFormed.Statement (.weightRepairComplete ctx binding generation src) := fun _ => rfl
theorem WellFormed.codebookLoad (fn : Fin 9) : WellFormed.Statement (.codebookLoad fn) := fun _ => rfl
theorem WellFormed.codebookSlotWriteDone (p : Fin 8) (ctx : Fin 64) (kindA : Bool) (slot : Fin 8) : WellFormed.Statement (.codebookSlotWriteDone p ctx kindA slot) := fun _ => rfl
theorem WellFormed.codebookWaitLimit (ctx : Fin 64) (slot : Fin 8) : WellFormed.Statement (.codebookWaitLimit ctx slot) := fun _ => rfl
theorem WellFormed.codebookRelease (fn : Fin 9) : WellFormed.Statement (.codebookRelease fn) := fun _ => rfl
theorem WellFormed.codebookQuery (fn : Fin 9) : WellFormed.Statement (.codebookQuery fn) := fun _ => rfl
theorem WellFormed.sfuSlotWrite (fn : Fin 9) : WellFormed.Statement (.sfuSlotWrite fn) := fun _ => rfl
theorem WellFormed.sfuTableWrite (fn : Fin 9) : WellFormed.Statement (.sfuTableWrite fn) := fun _ => rfl
theorem WellFormed.sfuBankPrepare (fn : Fin 9) : WellFormed.Statement (.sfuBankPrepare fn) := fun _ => rfl
theorem WellFormed.sfuBankCopyDone (p : Fin 8) (ctx : Fin 64) : WellFormed.Statement (.sfuBankCopyDone p ctx) := fun _ => rfl
theorem WellFormed.sfuPrepareWaitLimit (ctx : Fin 64) : WellFormed.Statement (.sfuPrepareWaitLimit ctx) := fun _ => rfl
theorem WellFormed.sfuBankSwitch (fn : Fin 9) : WellFormed.Statement (.sfuBankSwitch fn) := fun _ => rfl
theorem WellFormed.sfuBankQuery (fn : Fin 9) : WellFormed.Statement (.sfuBankQuery fn) := fun _ => rfl
theorem WellFormed.powerLatencySet (fn : Fin 9) : WellFormed.Statement (.powerLatencySet fn) := fun _ => rfl
theorem WellFormed.powerCapSet (fn : Fin 9) : WellFormed.Statement (.powerCapSet fn) := fun _ => rfl
theorem WellFormed.slewFloorSet (fn : Fin 9) : WellFormed.Statement (.slewFloorSet fn) := fun _ => rfl
theorem WellFormed.powerQuery (fn : Fin 9) : WellFormed.Statement (.powerQuery fn) := fun _ => rfl
theorem WellFormed.schedTableSet (fn : Fin 9) : WellFormed.Statement (.schedTableSet fn) := fun _ => rfl
theorem WellFormed.regulatorSet (fn : Fin 9) : WellFormed.Statement (.regulatorSet fn) := fun _ => rfl
theorem WellFormed.preemptGraceSet (fn : Fin 9) : WellFormed.Statement (.preemptGraceSet fn) := fun _ => rfl
theorem WellFormed.schedQuery (fn : Fin 9) : WellFormed.Statement (.schedQuery fn) := fun _ => rfl
theorem WellFormed.logRead (fn : Fin 9) : WellFormed.Statement (.logRead fn) := fun _ => rfl
theorem WellFormed.escalationSet (fn : Fin 9) : WellFormed.Statement (.escalationSet fn) := fun _ => rfl
theorem WellFormed.serviceRestore (fn : Fin 9) : WellFormed.Statement (.serviceRestore fn) := fun _ => rfl
theorem WellFormed.partitionReset (fn : Fin 9) : WellFormed.Statement (.partitionReset fn) := fun _ => rfl
theorem WellFormed.jobPatienceSet (fn : Fin 9) : WellFormed.Statement (.jobPatienceSet fn) := fun _ => rfl
theorem WellFormed.debugChallenge (fn : Fin 9) : WellFormed.Statement (.debugChallenge fn) := fun _ => rfl
theorem WellFormed.debugUnlock (fn : Fin 9) (token : HostRd) : WellFormed.Statement (.debugUnlock fn token) := fun _ => rfl
theorem WellFormed.attestQuote (fn : Fin 9) : WellFormed.Statement (.attestQuote fn) := fun _ => rfl
theorem WellFormed.attestCertChain (fn : Fin 9) : WellFormed.Statement (.attestCertChain fn) := fun _ => rfl
theorem WellFormed.stateSave (fn : Fin 9) (clean : Bool) : WellFormed.Statement (.stateSave fn clean) := fun _ => rfl
theorem WellFormed.fullStateSaveDone (p : Fin 8) : WellFormed.Statement (.fullStateSaveDone p) := fun _ => rfl
theorem WellFormed.duskDumpRead (fn : Fin 9) : WellFormed.Statement (.duskDumpRead fn) := fun _ => rfl
theorem WellFormed.testModeEnter (fn : Fin 9) : WellFormed.Statement (.testModeEnter fn) := fun _ => rfl
theorem WellFormed.testModeExit (fn : Fin 9) : WellFormed.Statement (.testModeExit fn) := fun _ => rfl
theorem WellFormed.hbmRepairQuery (fn : Fin 9) : WellFormed.Statement (.hbmRepairQuery fn) := fun _ => rfl
theorem WellFormed.softPpr (fn : Fin 9) : WellFormed.Statement (.softPpr fn) := fun _ => rfl
theorem WellFormed.hardPpr (fn : Fin 9) : WellFormed.Statement (.hardPpr fn) := fun _ => rfl
theorem WellFormed.spareRow (fn : Fin 9) : WellFormed.Statement (.spareRow fn) := fun _ => rfl
theorem WellFormed.hbmRepairDone (took : Bool) : WellFormed.Statement (.hbmRepairDone took) := fun _ => rfl
theorem WellFormed.trainingSavedClear (fn : Fin 9) : WellFormed.Statement (.trainingSavedClear fn) := fun _ => rfl
theorem WellFormed.ptFenceSelWrite (fn : Fin 9) (p : Fin 8) (value : W32) : WellFormed.Statement (.ptFenceSelWrite fn p value) := fun _ => rfl
theorem WellFormed.fpControlDisable (port : Fin 6) : WellFormed.Statement (.fpControlDisable port) := fun _ => rfl
theorem WellFormed.portDisableDone (port : Fin 6) : WellFormed.Statement (.portDisableDone port) := fun _ => rfl
theorem WellFormed.fpControlEnable (port : Fin 6) : WellFormed.Statement (.fpControlEnable port) := fun _ => rfl
theorem WellFormed.dbgResumeGo (p : Fin 8) : WellFormed.Statement (.dbgResumeGo p) := fun _ => rfl
theorem WellFormed.registerWrite (fn : Fin 9) (offset : Nat) (width : Nat) (value : W64) : WellFormed.Statement (.registerWrite fn offset width value) := fun h => Bool.noConfusion h
theorem WellFormed.msixUnmask (fn : Fin 9) (vector : Fin 2048) : WellFormed.Statement (.msixUnmask fn vector) := fun _ => rfl
theorem WellFormed.bar0AccessInvalid (fn : Fin 9) (offset : Nat) (width : Nat) (write : Bool) : WellFormed.Statement (.bar0AccessInvalid fn offset width write) := fun h => Bool.noConfusion h
theorem WellFormed.bar2Read (fn : Fin 9) (offset : Nat) (len : Nat) : WellFormed.Statement (.bar2Read fn offset len) := fun h => Bool.noConfusion h
theorem WellFormed.bar2Write (fn : Fin 9) (offset : Nat) (bytes : List Byte) : WellFormed.Statement (.bar2Write fn offset bytes) := fun h => Bool.noConfusion h
theorem WellFormed.functionLevelReset (fn : Fin 9) : WellFormed.Statement (.functionLevelReset fn) := fun _ => rfl
theorem WellFormed.pcieHotReset : WellFormed.Statement (.pcieHotReset) := fun _ => rfl
theorem WellFormed.vfEnableChange (enable : Bool) (numVfs : Fin 9) : WellFormed.Statement (.vfEnableChange enable numVfs) := fun _ => rfl
theorem WellFormed.pcieLinkTrained (gts : Nat) (lanes : Nat) : WellFormed.Statement (.pcieLinkTrained gts lanes) := fun h => Bool.noConfusion h
theorem WellFormed.atsInvalidation (fn : Fin 9) (addr : Nat) : WellFormed.Statement (.atsInvalidation fn addr) := fun _ => rfl
theorem WellFormed.atsTranslationCompletion (fn : Fin 9) (p : Fin 8) (inst : Nat) (addr : Nat) (ok : Bool) : WellFormed.Statement (.atsTranslationCompletion fn p inst addr ok) := fun _ => rfl
theorem WellFormed.rdmaWriteInbound (conn : Nat) (key : W32) (addr : Nat) (bytes : List Byte) : WellFormed.Statement (.rdmaWriteInbound conn key addr bytes) := fun _ => rfl
theorem WellFormed.rdmaReadInbound (conn : Nat) (key : W32) (addr : Nat) (len : Nat) : WellFormed.Statement (.rdmaReadInbound conn key addr len) := fun _ => rfl
theorem WellFormed.rdmaWriteImmInbound (conn : Nat) (key : W32) (addr : Nat) (bytes : List Byte) (imm : W32) : WellFormed.Statement (.rdmaWriteImmInbound conn key addr bytes imm) := fun _ => rfl
theorem WellFormed.rdmaRetransmitTimeout (conn : Nat) : WellFormed.Statement (.rdmaRetransmitTimeout conn) := fun _ => rfl
theorem WellFormed.ethFrameDiscard (port : Fin 2) : WellFormed.Statement (.ethFrameDiscard port) := fun _ => rfl
theorem WellFormed.flitReceive (port : Fin 6) (lp : Fin 8) (flit : List Byte) (corrected : Nat) (fecOk : Bool) : WellFormed.Statement (.flitReceive port lp flit corrected fecOk) := fun h => Bool.noConfusion h
theorem WellFormed.ackProgressTimeout (port : Fin 6) (lp : Fin 8) : WellFormed.Statement (.ackProgressTimeout port lp) := fun _ => rfl
theorem WellFormed.laneLockLoss (port : Fin 6) (lp : Fin 8) : WellFormed.Statement (.laneLockLoss port lp) := fun _ => rfl
theorem WellFormed.retrainComplete (port : Fin 6) (lp : Fin 8) (ok : Bool) : WellFormed.Statement (.retrainComplete port lp ok) := fun _ => rfl
theorem WellFormed.portTrainingRetry (port : Fin 6) : WellFormed.Statement (.portTrainingRetry port) := fun _ => rfl
theorem WellFormed.identitySend (port : Fin 6) (lp : Fin 8) : WellFormed.Statement (.identitySend port lp) := fun _ => rfl
theorem WellFormed.identityReceived (port : Fin 6) (lp : Fin 8) (block : List Byte) : WellFormed.Statement (.identityReceived port lp block) := fun h => Bool.noConfusion h
theorem WellFormed.absentLimitExpiry (port : Fin 6) : WellFormed.Statement (.absentLimitExpiry port) := fun _ => rfl
theorem WellFormed.packetForward (port : Fin 6) (lp : Fin 8) : WellFormed.Statement (.packetForward port lp) := fun _ => rfl
theorem WellFormed.reduceHoldExpiry (port : Fin 6) (lp : Fin 8) : WellFormed.Statement (.reduceHoldExpiry port lp) := fun _ => rfl
theorem WellFormed.armCancelExpiry (p : Fin 8) : WellFormed.Statement (.armCancelExpiry p) := fun _ => rfl
theorem WellFormed.writeArrival (port : Fin 6) (lp : Fin 8) : WellFormed.Statement (.writeArrival port lp) := fun _ => rfl
theorem WellFormed.addArrival (port : Fin 6) (lp : Fin 8) : WellFormed.Statement (.addArrival port lp) := fun _ => rfl
theorem WellFormed.signalArrival (port : Fin 6) (lp : Fin 8) : WellFormed.Statement (.signalArrival port lp) := fun _ => rfl
theorem WellFormed.fabricAckArrival (port : Fin 6) (lp : Fin 8) : WellFormed.Statement (.fabricAckArrival port lp) := fun _ => rfl
theorem WellFormed.fabricCopyAckTimeout (p : Fin 8) (inst : Nat) : WellFormed.Statement (.fabricCopyAckTimeout p inst) := fun _ => rfl
theorem WellFormed.abort (port : Fin 6) (lp : Fin 8) : WellFormed.Statement (.abort port lp) := fun _ => rfl
theorem WellFormed.patrolScrubRead (p : Fin 8) : WellFormed.Statement (.patrolScrubRead p) := fun _ => rfl
theorem WellFormed.hbmCaParityError (p : Fin 8) (pc : Fin 96) : WellFormed.Statement (.hbmCaParityError p pc) := fun _ => rfl
theorem WellFormed.hbmSelfRefreshReturn (p : Fin 8) : WellFormed.Statement (.hbmSelfRefreshReturn p) := fun _ => rfl
theorem WellFormed.cpHeartbeatCheck (p : Fin 8) : WellFormed.Statement (.cpHeartbeatCheck p) := fun _ => rfl
theorem WellFormed.sundownComplete (p : Fin 8) (clean : Bool) : WellFormed.Statement (.sundownComplete p clean) := fun _ => rfl
theorem WellFormed.partitionComputeReset (p : Fin 8) : WellFormed.Statement (.partitionComputeReset p) := fun _ => rfl
theorem WellFormed.partitionReinit (p : Fin 8) (trained : Bool) : WellFormed.Statement (.partitionReinit p trained) := fun _ => rfl
theorem WellFormed.partitionResetEnd (p : Fin 8) : WellFormed.Statement (.partitionResetEnd p) := fun _ => rfl
theorem WellFormed.tileHang (p : Fin 8) (t : Fin 16) : WellFormed.Statement (.tileHang p t) := fun _ => rfl
theorem WellFormed.tileStopFail (p : Fin 8) (t : Fin 16) : WellFormed.Statement (.tileStopFail p t) := fun _ => rfl
theorem WellFormed.dcpWatchdog (p : Fin 8) : WellFormed.Statement (.dcpWatchdog p) := fun _ => rfl
theorem WellFormed.mcpWatchdog : WellFormed.Statement (.mcpWatchdog) := fun _ => rfl
theorem WellFormed.hubCoreFail (core : Nat) : WellFormed.Statement (.hubCoreFail core) := fun h => Bool.noConfusion h
theorem WellFormed.pwrEnRise : WellFormed.Statement (.pwrEnRise) := fun _ => rfl
theorem WellFormed.pwrEnFall : WellFormed.Statement (.pwrEnFall) := fun _ => rfl
theorem WellFormed.resetNAssert : WellFormed.Statement (.resetNAssert) := fun _ => rfl
theorem WellFormed.resetNDeassert : WellFormed.Statement (.resetNDeassert) := fun _ => rfl
theorem WellFormed.standbyPowerUp : WellFormed.Statement (.standbyPowerUp) := fun _ => rfl
theorem WellFormed.railsInRegulation : WellFormed.Statement (.railsInRegulation) := fun _ => rfl
theorem WellFormed.dawnEnd (ok : Bool) : WellFormed.Statement (.dawnEnd ok) := fun _ => rfl
theorem WellFormed.sunriseEnd (temps railsMv : List Nat) : WellFormed.Statement (.sunriseEnd temps railsMv) := fun h => Bool.noConfusion h
theorem WellFormed.thermalSettle : WellFormed.Statement (.thermalSettle) := fun _ => rfl
theorem WellFormed.trainingItemDone (item : Fin 72) (marginOk : Bool) : WellFormed.Statement (.trainingItemDone item marginOk) := fun _ => rfl
theorem WellFormed.partitionZeroed (p : Fin 8) : WellFormed.Statement (.partitionZeroed p) := fun _ => rfl
theorem WellFormed.morningCoreVerify (p : Fin 8) (core : Fin 113) (digestOk : Bool) : WellFormed.Statement (.morningCoreVerify p core digestOk) := fun _ => rfl
theorem WellFormed.nvwsMountDone (ok : Bool) : WellFormed.Statement (.nvwsMountDone ok) := fun _ => rfl
theorem WellFormed.readiness : WellFormed.Statement (.readiness) := fun _ => rfl
theorem WellFormed.savedRecordWrite (item : Fin 72) (tempC : Nat) (railMv : Nat) : WellFormed.Statement (.savedRecordWrite item tempC railMv) := fun _ => rfl
theorem WellFormed.fwSvnRaise : WellFormed.Statement (.fwSvnRaise) := fun _ => rfl
theorem WellFormed.thermalThrottleStep (p : Fin 8) (hot cool : Bool) : WellFormed.Statement (.thermalThrottleStep p hot cool) := fun _ => rfl
theorem WellFormed.thermalTrip : WellFormed.Statement (.thermalTrip) := fun _ => rfl
theorem WellFormed.coolantOutletHigh : WellFormed.Statement (.coolantOutletHigh) := fun _ => rfl
theorem WellFormed.overcurrent : WellFormed.Statement (.overcurrent) := fun _ => rfl
theorem WellFormed.inputOvervoltage : WellFormed.Statement (.inputOvervoltage) := fun _ => rfl
theorem WellFormed.inputUndervoltage : WellFormed.Statement (.inputUndervoltage) := fun _ => rfl
theorem WellFormed.refclkLoss : WellFormed.Statement (.refclkLoss) := fun _ => rfl
theorem WellFormed.envelopeUpdate (m : Measured) : WellFormed.Statement (.envelopeUpdate m) := fun h => Bool.noConfusion h
theorem WellFormed.fillerStart (p : Fin 8) (t : Fin 16) : WellFormed.Statement (.fillerStart p t) := fun _ => rfl
theorem WellFormed.activityStepDown (p : Fin 8) (powerAfterMw : Nat) : WellFormed.Statement (.activityStepDown p powerAfterMw) := fun _ => rfl
theorem WellFormed.activityExit (p : Fin 8) : WellFormed.Statement (.activityExit p) := fun _ => rfl
theorem WellFormed.a4Entry : WellFormed.Statement (.a4Entry) := fun _ => rfl
theorem WellFormed.a4Exit : WellFormed.Statement (.a4Exit) := fun _ => rfl
theorem WellFormed.firmwareBundleUpdate (bundle : List Byte) : WellFormed.Statement (.firmwareBundleUpdate bundle) := fun _ => rfl
theorem WellFormed.cablingPlanWrite (record : List Byte) : WellFormed.Statement (.cablingPlanWrite record) := fun _ => rfl
theorem WellFormed.vfMapWrite (record : List Byte) : WellFormed.Statement (.vfMapWrite record) := fun _ => rfl
theorem WellFormed.ethAddressRecordWrite (record : List Byte) : WellFormed.Statement (.ethAddressRecordWrite record) := fun _ => rfl
theorem WellFormed.pldmSensorRefresh (values : List Nat) : WellFormed.Statement (.pldmSensorRefresh values) := fun _ => rfl
theorem WellFormed.smbusAlertResponse : WellFormed.Statement (.smbusAlertResponse) := fun _ => rfl
theorem WellFormed.jtagInstruction (code : Nat) : WellFormed.Statement (.jtagInstruction code) := fun _ => rfl
theorem WellFormed.standbyPowerLoss : WellFormed.Statement (.standbyPowerLoss) := fun _ => rfl
theorem WellFormed.rampStartDelay : WellFormed.Statement (.rampStartDelay) := fun _ => rfl
theorem WellFormed.thermNRelease : WellFormed.Statement (.thermNRelease) := fun _ => rfl
theorem WellFormed.debugChallengeExpiry : WellFormed.Statement (.debugChallengeExpiry) := fun _ => rfl
theorem WellFormed.attestQuoteDone (opId : Nat) : WellFormed.Statement (.attestQuoteDone opId) := fun _ => rfl
theorem WellFormed.bar2Resize (fn : Fin 9) (log2GiB : Nat) : WellFormed.Statement (.bar2Resize fn log2GiB) := fun _ => rfl
theorem WellFormed.rdmaAckArrival (conn : Nat) (nak : Bool) (bytes : List Byte) : WellFormed.Statement (.rdmaAckArrival conn nak bytes) := fun _ => rfl
theorem WellFormed.congestionNotificationPacket (conn : Nat) : WellFormed.Statement (.congestionNotificationPacket conn) := fun _ => rfl
theorem WellFormed.arpNdRequest (port : Fin 2) (addr : Nat) : WellFormed.Statement (.arpNdRequest port addr) := fun _ => rfl
theorem WellFormed.ethLinkUp (port : Fin 2) : WellFormed.Statement (.ethLinkUp port) := fun _ => rfl

end Sys2Proof.Laws
end

