-- ==== Sys2Proof/Laws/Regulate.lean ====
section
/-! SUPPORT. The regulators: a command that no dry resource holds back takes place, one that is held changes the regulators alone, and
counting bytes changes the regulators alone (R607 to R611). -/

namespace Sys2Proof.Machine

/-- A command that no dry resource holds back takes place. -/
theorem gate_unheld {s t : State} (h : Unheld s t) : gate s t = t := by
  unfold gate
  split
  · rfl
  · rename_i ks hk
    exact absurd h hk

/-- One that is held back marks the regulators that it waits for and changes no other part of the state. -/
theorem gate_held {s t : State} (h : ¬Unheld s t) : gate s t =
    (heldBy s t).foldl (fun s x => s.setReg x.1 x.2 { (s.part x.1).reg x.2 with waited := true }) s := by
  unfold gate
  split
  · rename_i hk
    exact absurd hk h
  · rfl

/-- Where no regulator stands dry nothing is held back. -/
theorem unheld_wet {s : State} (t : State) (h : ∀ p ∈ allParts, ∀ k < 11, ((s.part p).reg k).dry = false) : Unheld s t := by
  unfold Unheld heldBy
  rw [List.flatMap_eq_nil_iff]
  intro p hp
  rw [List.map_eq_nil_iff, List.filter_eq_nil_iff]
  intro k hk
  simp [h p hp k (List.mem_range.1 hk)]

/-- What a transfer is held by depends on the regulators alone. -/
theorem heldBy_regs {s t u : State} (h : ∀ p, (t.part p).regs = (u.part p).regs) : heldBy s t = heldBy s u := by
  have e : (fun p => (t.part p).reg) = fun p => (u.part p).reg := funext fun p => by unfold Part.reg; rw [h]
  exact congrArg (fun f : Nat → Nat → Regulator => allParts.flatMap fun p => ((List.range 11).filter fun k =>
    ((s.part p).reg k).dry && ((s.part p).reg k).owed < (f p k).owed).map (p, ·)) e

/-- A change of a node instance leaves the regulators. -/
@[simp] theorem modInst_regs (s : State) (p n : Nat) (f : Inst → Inst) (q : Nat) : ((s.modInst p n f).part q).regs = (s.part q).regs := by
  unfold State.modInst
  split
  · unfold State.setInst
    by_cases h : q = p
    · subst h
      simp
    · rw [State.part_setPart_ne _ _ _ _ h]
  · rfl

/-- A trace record leaves the partitions. -/
@[simp] theorem traceRec_part (s : State) (code p c seg idx iter q : Nat) : (traceRec s code p c seg idx iter).part q = s.part q := by
  unfold traceRec State.part
  dsimp only
  split
  · split
    · rfl
    · split <;> rfl
  · rfl

/-- Counting no bytes changes nothing. -/
@[simp] theorem charge_zero (s : State) (p k : Nat) : charge s p k 0 = s := by simp [charge]

/-- Counting bytes writes the partitions alone. -/
theorem charge_frame (s : State) (p k n : Nat) : ∃ parts, charge s p k n = { s with parts } := by
  unfold charge
  dsimp only
  split
  · exact ⟨s.parts, rfl⟩
  · exact ⟨_, rfl⟩

/-- It changes no device memory and nothing outside the partitions. -/
theorem charge_same (s : State) (p k n : Nat) : SameHbm s (charge s p k n) := by
  unfold charge
  dsimp only
  split
  · exact SameHbm.refl s
  · exact SameHbm.setPart rfl

/-- Counting a cross-die access changes no device memory either. -/
theorem chargeHbm_same (s : State) (p c v a n : Nat) : SameHbm s (chargeHbm s p c v a n) :=
  (charge_same s p 0 _).trans (charge_same _ p 1 _)

/-- Counting bytes leaves the memories canonical. -/
theorem charge_canonical {s : State} (h : MemoryCanonical s) (p k n : Nat) : MemoryCanonical (charge s p k n) := by
  unfold charge
  dsimp only
  split
  · exact h
  · exact h.setPart p (h.part p)

end Sys2Proof.Machine
end

