-- ==== Sys2Proof/Laws/Tile.lean ====
section
/-! SUPPORT. Registers and scratchpads of a tile, and the frame in which its words run. -/

namespace Sys2Proof.Machine

/-! Registers: reading after a write. -/

@[simp] theorem Tile.sreg_setS (x : Tile) (k v : Nat) : (x.setS k v).sreg k = v % 2 ^ 32 := by simp [Tile.sreg, Tile.setS]

@[simp] theorem Tile.sreg_setS_ne (x : Tile) {k j : Nat} (v : Nat) (h : j ≠ k) : (x.setS k v).sreg j = x.sreg j := by
  simp [Tile.sreg, Tile.setS, h]

@[simp] theorem Tile.vreg_setV (x : Tile) (k v : Nat) : (x.setV k v).vreg k = v % 2 ^ 8192 :=
  (congrArg BitVec.toNat (tabGet_tabSet _ _ _ _)).trans (BitVec.toNat_ofNat v 8192)

@[simp] theorem Tile.vreg_setV_ne (x : Tile) {k j : Nat} (v : Nat) (h : j ≠ k) : (x.setV k v).vreg j = x.vreg j := by
  simp [Tile.vreg, Tile.setV, h]

@[simp] theorem Tile.vreg_setS (x : Tile) (k v j : Nat) : (x.setS k v).vreg j = x.vreg j := rfl
@[simp] theorem Tile.sreg_setV (x : Tile) (k v j : Nat) : (x.setV k v).sreg j = x.sreg j := rfl
@[simp] theorem Tile.mreg_setS (x : Tile) (k v j : Nat) : (x.setS k v).mreg j = x.mreg j := rfl
@[simp] theorem Tile.mreg_setV (x : Tile) (k v j : Nat) : (x.setV k v).mreg j = x.mreg j := rfl

/-- M0 reads all ones, whatever is written (R305). -/
@[simp] theorem Tile.mreg_zero (x : Tile) : x.mreg 0 = 2 ^ 1024 - 1 := if_pos rfl

/-! Scratchpads. -/

@[simp] theorem Tile.spad_setSpad (x : Tile) (k : Spc) (d : Spad) : (x.setSpad k d).spad k = d := by cases k <;> rfl

theorem Tile.spad_setSpad_ne (x : Tile) {k j : Spc} (d : Spad) (h : j ≠ k) : (x.setSpad k d).spad j = x.spad j := by
  cases k <;> cases j <;> first | rfl | exact absurd rfl h

@[simp] theorem Tile.sreg_setSpad (x : Tile) (k : Spc) (d : Spad) (j : Nat) : (x.setSpad k d).sreg j = x.sreg j := by cases k <;> rfl
@[simp] theorem Tile.vreg_setSpad (x : Tile) (k : Spc) (d : Spad) (j : Nat) : (x.setSpad k d).vreg j = x.vreg j := by cases k <;> rfl
@[simp] theorem Tile.mreg_setSpad (x : Tile) (k : Spc) (d : Spad) (j : Nat) : (x.setSpad k d).mreg j = x.mreg j := by cases k <;> rfl

/-- The memories stay canonical where the scratchpad that is put in is. -/
theorem Tile.setSpad_memOk {x : Tile} (h : x.memOk = true) (k : Spc) {d : Spad} (hd : d.memOk = true) : (x.setSpad k d).memOk = true := by
  simp only [Tile.memOk, Bool.and_eq_true] at h ⊢
  obtain ⟨⟨h1, h2⟩, h3⟩ := h
  cases k
  · exact ⟨⟨hd, h2⟩, h3⟩
  · exact ⟨⟨h1, hd⟩, h3⟩
  · exact ⟨⟨h1, h2⟩, hd⟩

/-! Moving on. -/

/-- The end of loop bodies writes index registers, nothing else of the tile but the run. -/
theorem Tile.advance_frame (x : Tile) (r : Run) (now : Nat) : ∃ s badS run, x.advance r now = { x with s, badS, run } := by
  unfold Tile.advance
  dsimp only
  generalize (loopBack r.loops (r.pc + 1)).2.2 = ws
  obtain ⟨a, b, h⟩ : ∃ s badS, ws.foldl (fun (y : Tile) w => y.setS w.1 w.2) x = { x with s, badS } := by
    induction ws generalizing x with
    | nil => exact ⟨x.s, x.badS, rfl⟩
    | cons w ws ih =>
      obtain ⟨a, b, h⟩ := ih (x.setS w.1 w.2)
      exact ⟨a, b, h⟩
  rw [h]
  exact ⟨a, b, _, rfl⟩

/-- Outside loops a tile moves to the next word and keeps everything else. -/
theorem Tile.advance_straight (x : Tile) (r : Run) (now : Nat) (h : r.loops = []) :
    x.advance r now = { x with run := some { r with pc := r.pc + 1, progress := now } } := by
  obtain ⟨i, c, im, l, a, b⟩ := r
  subst h
  rfl

theorem Tile.advance_memOk {x : Tile} (h : x.memOk = true) (r : Run) (now : Nat) : (x.advance r now).memOk = true := by
  obtain ⟨_, _, _, e⟩ := x.advance_frame r now
  rw [e]
  exact h

/-! The frame of a word. -/

/-- A tile that stands at a word of the opcode runs its body. -/
theorem issue_stands {s : State} {p : Fin 8} {t : Fin 16} {op : Nat} {r : Run} {w : Nat} (h : Stands s p t op r w)
    (body : Tile → Run → Nat → State) : issue s p t op body = body (s.tile p t) r w := by
  obtain ⟨h1, h2, h3, h4, h5, h6⟩ := h
  unfold issue
  simp only [h1, h2, h3, h4, h5, h6]
  simp

/-- A tile without a kernel takes no word. -/
theorem issue_idle {s : State} {p t op : Nat} (h : (s.tile p t).run = none) (body : Tile → Run → Nat → State) :
    issue s p t op body = s := by simp [issue, h]

/-- A word goes one of three ways: the step is not the tile's, the word has a parity error, or its body runs. -/
theorem issue_cases (s : State) (p t op : Nat) (body : Tile → Run → Nat → State) : issue s p t op body = s ∨
    (∃ r, (s.tile p t).run = some r ∧ issue s p t op body = killTile s p t r 0x3242 [r.pc]) ∨
    ∃ r w, (s.tile p t).run = some r ∧ r.image[r.pc]? = some w ∧ opcodeOf w = op ∧ r.ended = false ∧
      issue s p t op body = body (s.tile p t) r w := by
  unfold issue
  dsimp only
  cases h1 : (s.tile p t).run with
  | none => exact .inl rfl
  | some r =>
    cases h2 : r.image[r.pc]? with
    | none => exact .inl (by simp only [h2])
    | some w =>
      simp only [h2]
      split
      · exact .inl rfl
      · rename_i h3
        simp only [Bool.or_eq_true, bne_iff_ne, ne_eq, not_or, Bool.not_eq_true, Decidable.not_not] at h3
        split
        · exact .inr (.inl ⟨r, rfl, rfl⟩)
        · exact .inr (.inr ⟨r, w, rfl, h2, h3.1.2, h3.1.1, rfl⟩)

/-- Clean registers let the word go on. -/
theorem withRegs_clean {s : State} {p t : Nat} {x : Tile} {r : Run} {vs ms ss : List Nat} (h : x.regBad vs ms ss = false) (k : State) :
    withRegs s p t x r vs ms ss k = k := by simp [withRegs, h]

/-- A word that is done writes its tile alone. -/
theorem finish_frame (s : State) (p t : Nat) (x : Tile) (r : Run) : ∃ tiles, finish s p t x r = { s with tiles } := ⟨_, rfl⟩

end Sys2Proof.Machine
end

