-- ==== Sys2Proof/Tests/Slice0.lean ====
section
/-! SUPPORT. Tests: ill-formed operands that the checks refuse, and for every statement with hypotheses a concrete state and operands
that meet them. -/

namespace Sys2Proof.Tests

open Sys2Proof.Machine

-- One theorem after the other: the many evaluations would else each take a thread.
set_option Elab.async false

/-! Well-formedness: one ill-formed command for each check. -/

theorem test_wf_register_write : (Instr.registerWrite 0 0x1000 2 0).wf = false := by decide
theorem test_wf_access_invalid : (Instr.bar0AccessInvalid 0 0 4097 false).wf = false := by decide
theorem test_wf_bar2_read : (Instr.bar2Read 0 0 0).wf = false := by decide
theorem test_wf_bar2_write : (Instr.bar2Write 0 0 []).wf = false := by decide
theorem test_wf_flit : (Instr.flitReceive 0 0 [1, 2, 3] 0 true).wf = false := by decide
theorem test_wf_identity : (Instr.identityReceived 0 0 (List.replicate 31 0)).wf = false := by decide
theorem test_wf_measured : (Instr.envelopeUpdate ⟨0, 0, 65536, 0, 0, 0, 0, 0, 0, 0⟩).wf = false := by decide
theorem test_wf_lanes : (Instr.pcieLinkTrained 640 3).wf = false := by decide
theorem test_wf_dies : (Instr.sunriseEnd [30] []).wf = false := by decide
theorem test_wf_hub_core : (Instr.hubCoreFail 24).wf = false := by decide

/-! The tile sequencer. -/

/-- An instruction word of opcode `op` with the bits `rest` below. -/
def word (op rest : Nat) : Nat := op * 2 ^ 56 + rest

/-- A kernel of one word. -/
def run1 (w : Nat) : Run := { inst := 0, ctx := 1, image := [w] }

/-- Tile 0 of partition 0 runs r, the rest of the tile as x. -/
def atRun (x : Tile) (r : Run) : State := State.reset.setTile 0 0 { x with run := some r }

/-- Tile 0 of partition 0 stands at the one word w. -/
def at1 (x : Tile) (w : Nat) : State := atRun x (run1 w)

/-- The tile of these states. -/
abbrev t0 (s : State) : Tile := s.tile 0 0

theorem test_scalar_words_nop : let w := word 0 0
    Stands (at1 {} w) 0 0 0x00 (run1 w) w ∧ bitsOf w 55 0 = 0 := by decide +kernel
theorem test_scalar_words_sli : let w := word 3 (31 * 2 ^ 32 + 0xFFFFFFFF)
    Stands (at1 {} w) 0 0 0x03 (run1 w) w ∧ bitsOf w 55 37 = 0 := by decide +kernel
theorem test_scalar_words_salu : let w := word 4 (8 * 2 ^ 44)
    Stands (at1 {} w) 0 0 0x04 (run1 w) w ∧ bitsOf w 55 48 = 0 ∧ bitsOf w 47 44 < 9 ∧
      (t0 (at1 {} w)).regBad [] [] [bitsOf w 37 33, bitsOf w 32 28] = false := by decide +kernel
/-- The last word of AM. -/
theorem test_scalar_words_sld : let w := word 5 (Spc.size .am - 4)
    let x := t0 (at1 {} w)
    let a := x.sreg (bitsOf w 36 32) + bitsOf w 20 0
    Stands (at1 {} w) 0 0 0x05 (run1 w) w ∧ sldReserved w = false ∧ x.badS.contains (bitsOf w 36 32) = false ∧ a % 4 = 0 ∧
      a + 4 = Spc.size .am ∧ bitOf w 37 = false ∧ (x.spad .am).readErr a 4 = none := by decide +kernel
theorem test_scalar_words_sst : let w := word 6 (Spc.size .am - 4)
    let x := t0 (at1 {} w)
    let a := x.sreg (bitsOf w 36 32) + bitsOf w 20 0
    Stands (at1 {} w) 0 0 0x06 (run1 w) w ∧ sldReserved w = false ∧ x.badS.contains (bitsOf w 36 32) = false ∧
      x.badS.contains (bitsOf w 42 38) = false ∧ a % 4 = 0 ∧ a + 4 = Spc.size .am ∧ bitOf w 37 = false ∧
      (x.spad .am).mergeErr a 4 = none ∧ (x.spad .am).bytes.wf = true := by decide +kernel

/-- A word of two words: the first at pc 0, inside a loop that ends after it. -/
def looped (iter count : Nat) : Run :=
  { run1 (word 0 0) with loops := [{ start := 0, stop := 1, count, iter, idx := 3 }] }

theorem test_loop_enter : let w := word 2 (2 ^ 16 + 1)
    let r : Run := { run1 w with image := [w, 0] }
    Stands (atRun {} r) 0 0 0x02 r w ∧ bitsOf w 55 37 = 0 ∧ bitsOf w 31 16 ≠ 0 ∧ bitsOf w 15 0 ≠ 0 ∧ r.loops.length < 4 ∧
      r.pc + 1 + bitsOf w 31 16 = r.image.length := by decide +kernel
theorem test_loop_again : let r := looped 0 2
    ∃ f fs, Stands (atRun {} r) 0 0 0x00 r (word 0 0) ∧ bitsOf (word 0 0) 55 0 = 0 ∧ r.loops = f :: fs ∧ r.pc + 1 = f.stop ∧
      f.iter + 1 < f.count := ⟨_, _, by decide +kernel, by decide +kernel, rfl, by decide +kernel, by decide +kernel⟩
theorem test_loop_leave : let r := looped 1 2
    ∃ f fs, Stands (atRun {} r) 0 0 0x00 r (word 0 0) ∧ bitsOf (word 0 0) 55 0 = 0 ∧ r.loops = f :: fs ∧ r.pc + 1 = f.stop ∧
      f.count ≤ f.iter + 1 ∧ ∀ g ∈ fs.head?, r.pc + 1 ≠ g.stop :=
  ⟨_, _, by decide +kernel, by decide +kernel, rfl, by decide +kernel, by decide +kernel, by decide +kernel⟩

/-- The state with node instance i under number 0 of partition 0. -/
def withInst (s : State) (i : Inst) : State := s.setInst 0 0 i

/-- A running kernel of context 1. -/
def kern : Inst := { ctx := 1, seg := 1, idx := 0, words := [], st := .running }

theorem test_end_kernel : let w := word 1 0
    let s := withInst (at1 {} w) kern
    Stands s 0 0 0x01 (run1 w) w ∧ bitsOf w 55 0 = 0 ∧ s.inst? 0 (run1 w).inst = some kern ∧ (t0 s).mq = [] ∧ (t0 s).dq = [] ∧
      (t0 s).kvq = [] := by decide +kernel
theorem test_end_kernel_waits : let w := word 1 0
    let s := withInst (at1 { kvq := [⟨0, 0, 0, 1⟩] } w) kern
    Stands s 0 0 0x01 (run1 w) w ∧ bitsOf w 55 0 = 0 ∧ s.inst? 0 (run1 w).inst = some kern ∧ (t0 s).kvq ≠ [] := by decide +kernel
/-- The lowest and the highest reserved opcode. -/
theorem test_reserved_opcode : (∀ op ∈ [0x07, 0x0F, 0x25, 0x35, 0x3B, 0x3D, 0x47, 0x4B, 0x53, 0xFF],
    Stands (at1 {} (word op 0)) 0 0 op (run1 (word op 0)) (word op 0)) ∧ (0x07 ≤ 0x07 ∧ 0x07 ≤ 0x0F) ∧ 0x53 ≤ 0xFF := by decide +kernel
theorem test_image_overrun : let r : Run := { run1 (word 0 0) with pc := 1 }
    ((atRun {} r).tile 0 0).run = some r ∧ r.ended = false ∧ r.image.length ≤ r.pc := by decide +kernel
theorem test_reserved_bit : Stands (at1 {} (word 0 1)) 0 0 0x00 (run1 (word 0 1)) (word 0 1) ∧ bitsOf (word 0 1) 55 0 ≠ 0 := by
  decide +kernel

/-! What a computation gave. -/

/-- The value of an answer, or d. -/
def okD {ε α : Type} (d : α) : Except ε α → α
  | .ok a => a
  | .error _ => d

/-- Whether an answer is a value. -/
def isOk {ε α : Type} : Except ε α → Bool
  | .ok _ => true
  | .error _ => false

theorem ok_okD {ε α : Type} (d : α) (e : Except ε α) (h : isOk e = true) : e = .ok (okD d e) := by
  cases e with
  | ok a => rfl
  | error _ => cases h

theorem ok_pair {ε α β : Type} (d : α × β) (e : Except ε (α × β)) (h : isOk e = true) : e = .ok ((okD d e).1, (okD d e).2) :=
  ok_okD d e h

/-- The error of an answer, or d. -/
def errD {ε α : Type} (d : ε) : Except ε α → ε
  | .ok _ => d
  | .error e => e

theorem err_pair {ε β α : Type} (d : ε × β) (e : Except (ε × β) α) (h : isOk e = false) : e = .error ((errD d e).1, (errD d e).2) := by
  cases e with
  | ok a => cases h
  | error _ => rfl

/-- Whether an answer is a value with a present first part. -/
def isOkSome {ε α β : Type} : Except ε (Option α × β) → Bool
  | .ok a => a.1.isSome
  | .error _ => false

theorem ok_some {ε α β : Type} (a0 : α) (d : β) (e : Except ε (Option α × β)) (h : isOkSome e = true) :
    e = .ok (some ((okD (none, d) e).1.getD a0), (okD (none, d) e).2) := by
  match e, h with
  | .ok (some _, _), _ => rfl

theorem mv_ok (m : Mv) (h : m.err = none) : m = ⟨m.s, none⟩ := by
  cases m
  cases h
  rfl

theorem some_getD {α : Type} (d : α) (o : Option α) (h : o.isSome = true) : o = some (o.getD d) := by
  cases o with
  | some a => rfl
  | none => cases h

/-! The vector engine and the special functions. -/

/-- A TYPE that an element-wise instruction takes: 3 (INT32), or 0 where it takes floating point only. -/
def tyOf (c : ElementWise) : Nat := if c.ok 3 then 3 else 0

theorem test_vector_elements : ∀ c ∈ elementWise, let w := word c.op (tyOf c * 2 ^ 53)
    Stands (at1 {} w) 0 0 c.op (run1 w) w ∧ vType (fTy w) = some (4, 256) ∧ bitOf w 5 = false ∧ c.ok (fTy w) = true ∧
      c.clean (t0 (at1 {} w)) w := by decide +kernel
theorem test_integer_bounds : (2 ^ 31 < 2 ^ 32 ∧ 2 ^ 7 < 2 ^ 8) ∧ fSat (word 0x10 0) = false ∧ fSat (word 0x10 (2 ^ 21)) = true := by
  decide
/-- LANE 1023 is the last element of TYPE 4, and 1024 / 4 the first beyond TYPE 3. -/
theorem test_lanes_vext : (let w := word 0x21 (4 * 2 ^ 53 + 1023 * 2 ^ 6);
      vType (fTy w) = some (1, 1024) ∧ bitOf w 5 = false ∧ Stands (at1 {} w) 0 0 0x21 (run1 w) w ∧
        (t0 (at1 {} w)).regBad [fVa w] [] [] = false ∧ fLane w < 1024) ∧
    (let w := word 0x21 (3 * 2 ^ 53 + 256 * 2 ^ 6);
      vType (fTy w) = some (4, 256) ∧ bitOf w 5 = false ∧ Stands (at1 {} w) 0 0 0x21 (run1 w) w ∧
        (t0 (at1 {} w)).regBad [fVa w] [] [] = false ∧ 256 ≤ fLane w) := by decide +kernel
theorem test_lanes_vins : (let w := word 0x22 (4 * 2 ^ 53 + 1023 * 2 ^ 6);
      vType (fTy w) = some (1, 1024) ∧ bitOf w 5 = false ∧ Stands (at1 {} w) 0 0 0x22 (run1 w) w ∧
        (t0 (at1 {} w)).regBad [fVd w] [fMask w] [fScal w] = false ∧ fLane w < 1024) ∧
    (let w := word 0x22 (3 * 2 ^ 53 + 256 * 2 ^ 6);
      vType (fTy w) = some (4, 256) ∧ bitOf w 5 = false ∧ Stands (at1 {} w) 0 0 0x22 (run1 w) w ∧
        (t0 (at1 {} w)).regBad [fVd w] [fMask w] [fScal w] = false ∧ 256 ≤ fLane w) := by decide +kernel
theorem test_lanes_vpack : let w := word 0x24 (3 * 2 ^ 53)
    vType (fTy w) = some (4, 256) ∧ bitOf w 5 = false ∧ Stands (at1 {} w) 0 0 0x24 (run1 w) w ∧
      (t0 (at1 {} w)).regBad [fVa w, fVc w] [fMask w] [] = false := by decide +kernel
theorem test_mask_words : ∀ op ∈ [0x30, 0x31, 0x32, 0x33, 0x34], let w := word op (3 * 2 ^ 53 + 6 * 2 ^ 18)
    vType (fTy w) = some (4, 256) ∧ bitOf w 5 = false ∧ Stands (at1 {} w) 0 0 op (run1 w) w ∧ fPred w ≠ 7 ∧
      (t0 (at1 {} w)).regBad [fVa w, fVb w] [fMask w, fMa w, fMb w, fMd w] [] = false ∧ fBscal w = false := by decide +kernel
/-- The last 1,024 bytes of AM. -/
theorem test_vector_load : let w := word 0x39 (3 * 2 ^ 53 + (Spc.size .am - 1024))
    let x := t0 (at1 {} w)
    let a := x.sreg (bitsOf w 41 37) + bitsOf w 20 0
    vType (fTy w) = some (4, 256) ∧ bitsOf w 36 21 = 0 ∧ bitOf w 42 = false ∧ a % 64 = 0 ∧ a + 1024 ≤ Spc.size .am ∧
      Stands (at1 {} w) 0 0 0x39 (run1 w) w ∧ x.regBad [] [fMask w] [bitsOf w 41 37] = false ∧
      fMask w = 0 ∧ (x.spad .am).readErr a 1024 = none := by decide +kernel
theorem test_vector_store : let w := word 0x3A (3 * 2 ^ 53 + 2 ^ 42 + (Spc.size .pm - 1024))
    let x := t0 (at1 {} w)
    let a := x.sreg (bitsOf w 41 37) + bitsOf w 20 0
    vType (fTy w) = some (4, 256) ∧ bitsOf w 36 21 = 0 ∧ bitOf w 42 = true ∧ a % 64 = 0 ∧ a + 1024 ≤ Spc.size .pm ∧
      Stands (at1 {} w) 0 0 0x3A (run1 w) w ∧ x.regBad [fVd w] [fMask w] [bitsOf w 41 37] = false ∧
      (x.spad .pm).bytes.wf = true ∧ storeErr (x.spad .pm) a (fun i => bitOf (x.mreg (fMask w)) (i / 4)) = none := by decide +kernel
/-- FP32 to BF16 into the upper part, and FP32 to MXFP8 (code 5). -/
theorem test_conversions : ∀ e ∈ [(0, 1, 1), (0, 5, 3)], let w := word 0x38 (e.1 * 2 ^ 17 + e.2.1 * 2 ^ 13 + e.2.2 * 2 ^ 10)
    let src := bitsOf w 20 17
    let dst := bitsOf w 16 13
    let n := 1024 / max (fmtBytes src) (fmtBytes dst)
    Stands (at1 {} w) 0 0 0x38 (run1 w) w ∧ bitsOf w 9 0 = 0 ∧ src < 0xD ∧ dst < 0xD ∧ fTy w = 0 ∧ fmtBits src ≠ fmtBits dst ∧
      (bitsOf w 12 10 + 1) * (n * min (fmtBits src) (fmtBits dst)) ≤ 8192 ∧ fMask w = 0 ∧
      (t0 (at1 {} w)).regBad [fVa w, fVd w, fVb w, fVc w] [fMask w] [] = false ∧ isMx dst = (dst == 5) := by decide +kernel
/-- Records of the sums at the end of AM (ROP 0, G 16, AM 1); an index into S30 and S31 (ROP 3, G 256, AM 0). -/
theorem test_reductions : (let w := word 0x3C (2 ^ 44 + (Spc.size .am - 64) / 64);
      let x := t0 (at1 {} w);
      vType (fTy w) = some (4, 256) ∧ Stands (at1 {} w) 0 0 0x3C (run1 w) w ∧ fTy w ≠ 4 ∧ bitOf w 52 = false ∧ bitOf w 43 = false ∧
        bitsOf w 17 15 = 0 ∧ bitsOf w 48 46 = 0 ∧ 2 ^ (bitsOf w 26 24 + 4) ≤ 256 ∧ bitOf w 44 = true ∧ bitOf w 45 = false ∧
        x.regBad [fVa w] [fMask w] [] = false ∧ 64 * bitsOf w 14 0 + 256 / 2 ^ (bitsOf w 26 24 + 4) * 4 ≤ Spc.size .am ∧
        x.am.mergeErr (64 * bitsOf w 14 0) (256 / 2 ^ (bitsOf w 26 24 + 4) * 4) = none) ∧
    (let w := word 0x3C (3 * 2 ^ 46 + 30 * 2 ^ 32 + 4 * 2 ^ 24);
      let x := t0 (at1 {} w);
      vType (fTy w) = some (4, 256) ∧ Stands (at1 {} w) 0 0 0x3C (run1 w) w ∧ fTy w ≠ 4 ∧ bitOf w 52 = false ∧ bitOf w 43 = false ∧
        bitsOf w 17 15 = 0 ∧ bitsOf w 48 46 = 3 ∧ 2 ^ (bitsOf w 26 24 + 4) = 256 ∧ bitOf w 44 = false ∧ bitsOf w 36 32 ≠ 31 ∧
        x.regBad [fVa w] [fMask w] [bitsOf w 31 27] = false) := by decide +kernel
theorem test_special_functions : (∀ op ∈ [0x48, 0x49], let w := word op (2 * 2 ^ 21)
      vType (fTy w) = some (4, 256) ∧ fTy w < 3 ∧ fVc w = 0 ∧ bitsOf w 19 0 = 0 ∧ fVb w = 0 ∧ Stands (at1 {} w) 0 0 op (run1 w) w ∧
        bitsOf w 24 21 < 3 ∧ bitOf w 20 = false ∧ (t0 (at1 {} w)).regBad [fVa w, fVb w] [fMask w] [] = false ∧
        ∀ fn ∈ [bitsOf w 24 21, actFn (bitsOf w 24 21)], romBad (t0 (at1 {} w)) false fn (fTy w)
          (evaluated (vMask 256 ((t0 (at1 {} w)).mreg (fMask w))) (vElems 4 256 ((t0 (at1 {} w)).vreg (fVa w)))) = false) ∧
    (let w := word 0x4A (15 * 2 ^ 21);
      let r : Run := { run1 w with mpMask := 2 ^ 15 };
      vType (fTy w) = some (4, 256) ∧ fTy w < 3 ∧ fVc w = 0 ∧ bitsOf w 19 0 = 0 ∧ Stands (atRun {} r) 0 0 0x4A r w ∧
        bitOf w 20 = false ∧ bitOf r.mpMask (bitsOf w 24 21) = true ∧
        (t0 (atRun {} r)).regBad [fVa w, fVb w] [fMask w] [] = false ∧
        ∀ j < 256, mpBad (t0 (atRun {} r)) r.bank (bitsOf w 24 21) {}
          (toF32 (fp32.decode (lane 4 ((t0 (atRun {} r)).vreg (fVa w)) j)))
          (toF32 (fp32.decode (lane 4 ((t0 (atRun {} r)).vreg (fVb w)) j))) = false) := by decide +kernel
theorem test_special_nan : fp32.decode 0x7FC00000 = .nan ∧ ((ffmtOf 0).decode 0x7FC00000).isNan = true := by decide +kernel

/-! Queues of a tile. -/

/-- A scratchpad that holds words from address a on. -/
def spadWords (ws : List (Nat × List Nat)) : Spad := { bytes := ws.foldl (fun m e => memWrite m e.1 (wordsBytes e.2)) [] }

/-- A command of one FP32 product: header, one sub-problem; at 128 an extension with GACC of tensor 5. -/
def oneProduct : Spad := spadWords [(0, [8, 0x10001]), (64 + 44, [1, 1, 1]), (128, [0x80000005, 0, 0, 64, 64])]

theorem test_mmul_issues : let w := word 0x40 0
    let s := at1 { am := oneProduct } w
    ∃ c, Stands s 0 0 0x40 (run1 w) w ∧ bitsOf w 55 52 = 0 ∧ bitsOf w 33 15 = 0 ∧ (t0 s).mq.length < 4 ∧
      (t0 s).regBad [] [] (offRegs w) = false ∧ readCmd (t0 s) w = .ok c ∧
      c.refusal (bitOf w 39) (bitOf w 45) (64 * bitsOf w 14 0) = none :=
  ⟨okD { hdr := [], subs := [] } _, by decide +kernel, by decide +kernel, by decide +kernel, by decide +kernel, by decide +kernel,
    ok_okD _ _ (by decide +kernel), by decide +kernel⟩
theorem test_mmulg_issues : let w := word 0x50 (2 * 2 ^ 15)
    let s := at1 { am := oneProduct } w
    let g := memWords (t0 s).am.bytes (64 * bitsOf w 29 15) 16
    ∃ c0, Stands s 0 0 0x50 (run1 w) w ∧ bitsOf w 55 52 = 0 ∧ bitsOf w 33 30 = 0 ∧ (t0 s).mq.length < 4 ∧
      (t0 s).regBad [] [] (offRegs w) = false ∧ (t0 s).am.readErr (64 * bitsOf w 29 15) 64 = none ∧ readCmd (t0 s) w = .ok c0 ∧
      gradBad c0 g = false ∧ bitOf (wd g 0) 31 = true ∧
      (t0 s).am.readErr (bitsOf (wd g 1) 20 0) (maskBytes (bitsOf (wd g 0) 30 29) (subM (c0.subs.headD []))) = none ∧
      MCmd.refusal { c0 with gext := some g, gsrc := (gaccBufs (t0 s) (run1 w) g).1, gdst := (gaccBufs (t0 s) (run1 w) g).2 }
        (bitOf w 39) (bitOf w 45) (64 * bitsOf w 14 0) = none :=
  ⟨okD { hdr := [], subs := [] } _, by decide +kernel, by decide +kernel, by decide +kernel, by decide +kernel, by decide +kernel,
    by decide +kernel, ok_okD _ _ (by decide +kernel), by decide +kernel, by decide +kernel, by decide +kernel, by decide +kernel⟩

/-- A COPY of one row of four bytes from WM 0 to the last word of AM. -/
def copyWord : List Nat := [6 * 2 ^ 24, 0, 0, 0, Spc.size .am - 4, 0, 0, 0, 0, 0, 4, 1]

theorem test_dma_issues : let w := word 0x42 0
    let s := at1 { am := spadWords [(0, copyWord)] } w
    let x := t0 s
    let d := memWords x.am.bytes 0 16
    Stands s 0 0 0x42 (run1 w) w ∧ bitsOf w 55 52 = 0 ∧ bitsOf w 39 15 = 0 ∧ x.dq.length < 8 ∧ x.regBad [] [] [] = false ∧
      x.am.readErr (64 * bitsOf w 14 0) 64 = none ∧ bitOf w 51 = false ∧ bitOf w 45 = false ∧
      dmaBad (s.cp 1 0).cbW 0 d (addr48 d 2) (addr48 d 4) = false := by decide +kernel
theorem test_queues_full : (let w := word 0x40 0;
      let s := at1 { mq := List.replicate 4 { hdr := [], subs := [] } } w;
      Stands s 0 0 0x40 (run1 w) w ∧ 4 ≤ (t0 s).mq.length) ∧
    (let w := word 0x42 0;
      let s := at1 { dq := List.replicate 8 { job := .desc [] 0 0 } } w;
      Stands s 0 0 0x42 (run1 w) w ∧ 8 ≤ (t0 s).dq.length) := by decide +kernel
theorem test_waits : ∀ e ∈ [(0x41, 3), (0x43, 7), (0x45, 3)], let w := word e.1 e.2
    bitsOf w 55 3 = 0 ∧ Stands (at1 {} w) 0 0 e.1 (run1 w) w ∧ (e.1 ≠ 0x43 → bitsOf w 2 0 < 4) := by decide +kernel

/-- The command of one product, ready to stream. -/
def prodCmd : MCmd := { hdr := [8, 0x10001], subs := [[0, 0, 0, 0, 0, 0, 0, 0, 0, 0, 0, 1, 1, 1]] }

theorem test_matrix_pass : let s := at1 { mq := [prodCmd] } (word 0 0)
    ∃ y f, (s.part 0).frozen = false ∧ (t0 s).run = some (run1 (word 0 0)) ∧ nextPass (t0 s).mq = some 0 ∧
      (t0 s).mq[0]? = some prodCmd ∧ runPass (t0 (countConflicts s 0 0 0 .wm)) [] [] 0 prodCmd = .ok (y, f) :=
  ⟨_, _, by decide +kernel, by decide +kernel, by decide +kernel, by decide +kernel,
    ok_pair ({}, 0) _ (by decide +kernel)⟩
theorem test_matrix_retire : let s := at1 { mq := [{ prodCmd with pass := 1 }] } (word 0 0)
    ∃ c rest, (t0 s).mq = c :: rest ∧ c.total ≤ c.pass := ⟨_, _, rfl, by decide +kernel⟩
/-- Each side of the saturation bounds. -/
theorem test_integer_group : (let v := (0x7FFFFFFF : BitVec 32).toInt + ((List.zip [1] [0]).map fun e : Int × Int => e.1 * e.2).sum;
      -2 ^ 31 ≤ v ∧ v < 2 ^ 31) ∧
    (2 ^ 31 ≤ (0x7FFFFFFF : BitVec 32).toInt + ((List.zip [1] [1]).map fun e : Int × Int => e.1 * e.2).sum) ∧
    ((0x80000000 : BitVec 32).toInt + ((List.zip [1] [-1]).map fun e : Int × Int => e.1 * e.2).sum < -2 ^ 31) := by decide +kernel

theorem test_dma_starts : let e : DmaEnt := { job := .desc copyWord 0 0 }
    let s := at1 { dq := [e] } (word 0 0)
    let r := run1 (word 0 0)
    let v := s.setTile 0 0 { t0 s with dq := (t0 s).dq.set 0 { e with active := true, done := !e.isGsend } }
    ∃ u, (s.part 0).frozen = false ∧ (t0 s).run = some r ∧ (t0 s).dq.findIdx? (fun e => !e.active) = some 0 ∧
      (t0 s).dq[0]? = some e ∧ activeDma (t0 s).dq < 4 ∧ dmaMove ⟨0, 0, r, t0 s⟩ v e.job = ⟨u, none⟩ ∧
      Unheld s (u.setTile 0 0 (Tile.touch (u.tile 0 0) (s.part 0).count)) :=
  ⟨_, by decide +kernel, by decide +kernel, by decide +kernel, by decide +kernel, by decide +kernel, mv_ok _ (by decide +kernel),
    by decide +kernel⟩
theorem test_dma_retires : let e : DmaEnt := { job := .desc copyWord 0 0, active := true, done := true }
    let s := at1 { dq := [e] } (word 0 0)
    (t0 s).dq = e :: [] ∧ e.isGsend = false ∧ e.done = true ∧ owes s 0 [0, 1] = false := by decide +kernel
theorem test_dma_copy_row : let x : Tile := {}
    let d := copyWord
    dOp d = 0 ∧ dSs d = 1 ∧ dDs d = 2 ∧ dCount d = 1 ∧ 1 ≤ dRow d ∧ addr48 d 2 + dRow d ≤ Spc.size (spaceOf 1) ∧
      addr48 d 4 + dRow d ≤ Spc.size (spaceOf 2) ∧ (x.spad (spaceOf 1)).readErr (addr48 d 2) (dRow d) = none ∧
      (x.spad (spaceOf 2)).mergeErr (addr48 d 4) (dRow d) = none ∧ (x.spad (spaceOf 2)).bytes.wf = true := by decide +kernel

/-! Device memory. -/

/-- The first 32 MiB of context 1, in large pages of partition 0. -/
def devMap : Mapping := { dva := 0, units := List.range 512, big := true, writable := true, part := 0, handle := 1, born := 0 }

/-- Context 1, open on partition 0; program 7 is loaded. -/
def ctx1 : Ctx := { st := .open, parts := [0], maps := [devMap], progs := [(7, [])] }

/-- Partition 0 in service with these words in device memory, no regulator of it dry. -/
def part0 (ws : List (Nat × List Nat)) : Part :=
  { inService := true, hbm := { mem := ws.foldl (fun m e => memWrite m e.1 (wordsBytes e.2)) [] }
    regs := (List.range 11).map (·, { balance := 2 ^ 30 }) }

/-- Context 1 on partition 0 of a module whose device memory holds these words. -/
def device (ws : List (Nat × List Nat)) : State := (State.reset.setCtx 1 ctx1).setPart 0 (part0 ws)

/-- The same with tile 0 at its one word w. -/
def devTile (ws : List (Nat × List Nat)) (x : Tile) (r : Run) : State := (device ws).setTile 0 0 { x with run := some r }

/-! The KV path: a sequence of one group at 0x2000 whose page 0 lies at 0x8000. -/

/-- Sequence descriptor of length len, page list, page table of one entry. -/
def kvWords (len : Nat) : List (Nat × List Nat) :=
  [(0x1000, [0x8000, 2 ^ 31]), (0x2000, [len, 64, 0x3000, 0, 6 * 2 ^ 24 + 1]), (0x3000, [0])]

/-- A kernel at w with that page table. -/
def kvRun (w : Nat) : Run := { run1 w with pt := some ⟨0x1000, 1⟩ }

/-- What a read gave: bytes and state. -/
abbrev gotB (e : Except KvErr (List Byte × State)) : List Byte × State := okD ([], State.reset) e

theorem test_kvapp : let w := word 0x44 0
    let r := kvRun w
    let s := devTile (kvWords 0) { am := spadWords [(0, [2 ^ 31, 0, 1, 0, 0x2000, 0, 64, 128])] } r
    let d := memWords (t0 s).am.bytes 0 16
    ∃ qb s1 pages s2 u, Stands s 0 0 0x44 r w ∧ bitsOf w 55 46 = 0 ∧ bitsOf w 39 15 = 0 ∧ (t0 s).kvq.length < 4 ∧
      bitOf w 45 = false ∧ (t0 s).am.readErr (64 * bitsOf w 14 0) 64 = none ∧ appReserved d = false ∧
      kvRead s 0 r.inst 1 r.mapVer (addr48 d 4) 64 0 = .ok (qb, s1) ∧ seqBad (bytesWords 16 qb) 0 = false ∧
      appInvalid r ⟨d, bytesWords 16 qb, 0x2000, 0, 0, 1⟩ true = false ∧ r.pt ≠ none ∧
      checkRange s1 0 1 r.mapVer 0x2000 4 true = none ∧
      kvPages s1 0 0 r (bytesWords 16 qb) 0 0 1 true = .ok (pages, s2) ∧
      appendNonfinite (t0 s).am ⟨d, bytesWords 16 qb, 0x2000, 0, 0, 1⟩ pages = none ∧
      Mv.each ⟨s2, none⟩ 1 (fun s j => appendRow ⟨0, 0, r, t0 (devTile (kvWords 0) { am := spadWords [(0, [2 ^ 31, 0, 1, 0, 0x2000, 0, 64, 128])] } r)⟩ s ⟨d, bytesWords 16 qb, 0x2000, 0, 0, 1⟩ pages j) = ⟨u, none⟩ ∧
      Unheld s (movedOn u 0 0 { r with pubs := tabSet r.pubs 0x2000 ⟨1, 0⟩ } { t0 u with kvq := (t0 u).kvq ++ [⟨0x2000, 0, 0, 1⟩] }) :=
  ⟨_, _, _, _, _, by decide +kernel, by decide +kernel, by decide +kernel,
    by decide +kernel, by decide +kernel, by decide +kernel, by decide +kernel, ok_pair ([], State.reset) _ (by decide +kernel),
    by decide +kernel, by decide +kernel, by decide +kernel, by decide +kernel, ok_pair ([], State.reset) _ (by decide +kernel),
    by decide +kernel, mv_ok _ (by decide +kernel), by decide +kernel⟩
theorem test_kvapp_complete : let e : KvEnt := ⟨0, 0, 0, 1⟩
    let s := at1 { kvq := [e] } (word 0 0)
    (s.part 0).frozen = false ∧ owes s 0 [0, 1] = false ∧ (t0 s).kvq = e :: [] := by decide +kernel
theorem test_kvgather : let w := word 0x46 0
    let r := kvRun w
    let s := devTile (kvWords 1) { am := spadWords [(0, [0, 0, 1, 0, 0x2000, 0, 0x100000, 0x80000])] } r
    let d := memWords (t0 s).am.bytes 0 16
    ∃ qb s1 pages s2, Stands s 0 0 0x46 r w ∧ bitsOf w 55 46 = 0 ∧ bitsOf w 39 15 = 0 ∧ (t0 s).dq.length < 8 ∧
      bitOf w 45 = false ∧ (t0 s).am.readErr (64 * bitsOf w 14 0) 64 = none ∧ gatherReserved d = false ∧
      kvRead s 0 r.inst 1 r.mapVer (addr48 d 4) 64 0 = .ok (qb, s1) ∧ seqBad (bytesWords 16 qb) 0 = false ∧
      bitOf (wd d 8) 0 = false ∧ leaves 1 (bitsOf (wd d 7) 21 0) (4 * 1 + 32) = false ∧
      leaves 1 (bitsOf (wd d 6) 21 0) 0 = false ∧ r.pt ≠ none ∧ seqLen (bytesWords 16 qb) = 1 ∧
      kvPages s1 0 0 r (bytesWords 16 qb) 0 0 1 false = .ok (pages, s2) ∧
      leaves 1 (bitsOf (wd d 6) 21 0) (gatherBytes s2 0 0 r d (bytesWords 16 qb) 0 1 pages) = false ∧
      Unheld s (movedOn s2 0 0 r { t0 s2 with dq := (t0 s).dq ++ [{ job := .gather d (bytesWords 16 qb) 0 1 }] }) :=
  ⟨_, _, _, _, by decide +kernel, by decide +kernel, by decide +kernel,
    by decide +kernel, by decide +kernel, by decide +kernel, by decide +kernel, ok_pair ([], State.reset) _ (by decide +kernel),
    by decide +kernel, by decide +kernel, by decide +kernel, by decide +kernel, by decide +kernel, by decide +kernel,
    ok_pair ([], State.reset) _ (by decide +kernel), by decide +kernel, by decide +kernel⟩

/-! Gradients and the stack vector units. -/

/-- A layer of one row of 64 FP32 elements: descriptor at 0x5000, planes 6 MiB apart from 0, statistics at 0x10000. -/
def layerWords : List Nat := [0, 1, 0, 0, 6291456, 0, 1, 256, 0x10000, 0, 65536, 7 * 65537, 0, 0, 0x3000]

/-- A GSEND descriptor of that row. -/
def gsendWords : List Nat := [0, 0, 256, 65536 + 64, 0x5000]

theorem test_gctl : (let w := word 0x52 (3 * 2 ^ 8 + 5); Stands (at1 {} w) 0 0 0x52 (run1 w) w ∧ bitsOf w 55 13 = 0) ∧
    (let w := word 0x52 (2 ^ 13 + 5); Stands (at1 {} w) 0 0 0x52 (run1 w) w ∧ bitsOf w 14 13 = 1 ∧ bitsOf w 55 15 = 0) := by
  decide +kernel
theorem test_gsend : let w := word 0x51 0
    let r := run1 w
    let s := devTile [(0x5000, layerWords)] { am := spadWords [(0, gsendWords)] } r
    let d := memWords (t0 s).am.bytes 0 16
    ∃ lb s1 hb s2, Stands s 0 0 0x51 r w ∧ bitsOf w 55 15 = 0 ∧ (t0 s).dq.length < 8 ∧ (t0 s).am.readErr 0 64 = none ∧
      bitOf (wd d 0) 31 = false ∧ gsendBad d (bitsOf (wd d 1) 19 0) = false ∧
      (t0 s).am.readErr (bitsOf (wd d 8) 20 0) (maskBytes (bitsOf (wd d 0) 30 29) (bitsOf (wd d 3) 31 16)) = none ∧
      kvRead s 0 r.inst r.ctx r.mapVer (addr48 d 4) 64 0 = .ok (lb, s1) ∧ lyFault s1 0 r.ctx r.mapVer (bytesWords 16 lb) = false ∧
      bitsOf (wd d 9) 11 0 < lyChunks (bytesWords 16 lb) ∧ wd d 6 + bitsOf (wd d 3) 31 16 ≤ lyRows (bytesWords 16 lb) ∧
      4 * (wd d 7 + bitsOf (wd d 3) 15 0) ≤ lyRowBytes (bytesWords 16 lb) ∧
      kvRead s1 0 r.inst r.ctx r.mapVer (lyHp (bytesWords 16 lb)) 64 0 = .ok (hb, s2) ∧
      Unheld s (movedOn s2 0 0 r { t0 s2 with
        dq := (t0 s).dq ++ [{ job := .gsend d (bytesWords 16 lb) (bytesWords 16 hb) [] 0 0 }] }) :=
  ⟨_, _, _, _, by decide +kernel, by decide +kernel, by decide +kernel, by decide +kernel, by decide +kernel, by decide +kernel,
    by decide +kernel, ok_pair ([], State.reset) _ (by decide +kernel), by decide +kernel, by decide +kernel, by decide +kernel,
    by decide +kernel, ok_pair ([], State.reset) _ (by decide +kernel), by decide +kernel⟩

/-- An active GSEND of that row with k elements gone. -/
def gsendEnt (k : Nat) : DmaEnt :=
  { job := .gsend gsendWords layerWords [] [] 0 k, active := true, acc := [(66, List.replicate 256 0)] }

theorem test_svu_phase1 : let r := run1 (word 0 0)
    let s := devTile [] { dq := [gsendEnt 0] } r
    let l := layerWords
    ∃ q dpa ins s1 s2 s3, (s.part 0).frozen = false ∧ (t0 s).run = some r ∧ (t0 s).dq.findIdx? DmaEnt.sends = some 0 ∧
      (t0 s).dq[0]? = some (gsendEnt 0) ∧ (gsendEnt 0).job = .gsend gsendWords l [] [] 0 0 ∧ gsendElem gsendWords [] 0 = some (0, 0) ∧
      (t0 s).pm.readErr 0 4 = none ∧ translate s r.ctx r.mapVer (lyAddr l 0 0) false = .ok (q, dpa) ∧ q = 0 ∧
      svuWords s 0 r.ctx r.mapVer [lyAddr l 0 0, lyAddr l 1 0, lyAddr l 2 0] = .ok (some ins, s1) ∧
      writeDva s1 0 r.ctx r.mapVer (lyAddr l 4 0) (good (natLe 4 0)) = .ok s2 ∧
      writeDva s2 0 r.ctx r.mapVer (lyAddr l 5 0) (good (natLe 4 0)) = .ok s3 ∧
      Unheld s (s3.setTile 0 0 { t0 s3 with dq := (t0 s3).dq.set 0 (gsendEnt 1) }) :=
  ⟨_, _, _, _, _, _, by decide +kernel, by decide +kernel, by decide +kernel,
    by decide +kernel, by decide +kernel, by decide +kernel, by decide +kernel, ok_pair (0, 0) _ (by decide +kernel),
    by decide +kernel, ok_some [] State.reset _ (by decide +kernel), ok_okD State.reset _ (by decide +kernel),
    ok_okD State.reset _ (by decide +kernel), by decide +kernel⟩

theorem test_gsend_retire : let r := run1 (word 0 0)
    let e := gsendEnt 64
    let s := devTile [] { dq := [e] } r
    ∃ u, (s.part 0).frozen = false ∧ (t0 s).run = some r ∧ (t0 s).dq = e :: [] ∧ e.job = .gsend gsendWords layerWords [] [] 0 64 ∧
      e.active = true ∧ gsendElem gsendWords [] 64 = none ∧
      e.acc.foldl (fun (m : Mv) sv => m.bind fun s =>
        match writeHbm { s with free := s.free + 1 } 0 r.ctx r.mapVer (lyStat layerWords + 64 * (768 * bitsOf (wd gsendWords 9) 11 0 + sv.1))
            (good (wordsBytes (statTotals sv.2 ++ [lyStep layerWords]) ++ freeTail s.free)) with
        | .error er => ⟨s, some (.acc er)⟩
        | .ok s1 => ⟨s1, none⟩) ⟨s, none⟩ = ⟨u, none⟩ ∧ owes s 0 [0, 1] = false ∧
      Unheld s (u.setTile 0 0 (Tile.touch { t0 u with dq := [] } (s.part 0).count)) :=
  ⟨_, by decide +kernel, by decide +kernel, by decide +kernel, by decide +kernel, by decide +kernel, by decide +kernel,
    mv_ok _ (by decide +kernel), by decide +kernel, by decide +kernel⟩

/-! Nodes. -/

/-- The words of a node of type ty. -/
def nodeWords (ty : Nat) (es : List (Nat × Nat)) : List Nat :=
  es.foldl (fun l e => l.set e.1 e.2) ((ty * 2 ^ 28) :: List.replicate 15 0)

/-- A READY node of context 1. -/
def node (ty : Nat) (es : List (Nat × Nat)) : Inst := { ctx := 1, seg := 1, idx := 0, words := nodeWords ty es, st := .ready }

/-- The state as the node's work begins. -/
abbrev begun (s : State) (i : Inst) : State := startRun (boundary s 0) 0 0 i

/-- The node as its work begins. -/
abbrev latched (s : State) (i : Inst) : Inst := ((begun s i).inst? 0 0).getD kern

theorem dispatches (s : State) (i : Inst) (h : s.inst? 0 0 = some i ∧ mayDispatch s 0 0 i = true ∧ (i.rerun && i.noRerun) = false ∧
    headerBad (boundary s 0) 0 i = false ∧ ((begun s i).inst? 0 0).isSome = true) : Dispatches s 0 0 i (begun s i) (latched s i) :=
  ⟨h.1, h.2.1, h.2.2.1, fun _ => h.2.2.2.1, rfl, some_getD _ _ h.2.2.2.2⟩

/-- The trace record of a dispatch leaves the regulators. -/
theorem traced_regs (u : State) (p : Fin 8) (n : Nat) (i : Inst) (q : Nat) : ((traced u p n i).part q).regs = (u.part q).regs := by
  unfold traced
  split
  · split
    · rw [traceRec_part]
    · rfl
  · rfl

/-- A kernel of five SLI words at 0x6000 on tile 0; with `ind` its arguments lie at 0x7000. -/
def kernelNode (ind : Bool) : Inst :=
  node 0 [(6, (if ind then 2 ^ 30 else 0) + 1), (8, 0x6000), (10, if ind then 0x7000 else 1), (14, 5)]

/-- Device memory with that image, and the node. -/
def kernelState (i : Inst) : State :=
  withInst (device [(0x6000, (List.replicate 5 [0, 3 * 2 ^ 24]).flatten), (0x7000, [1, 2, 3, 4])]) i

/-- The bytes and the state of a read. -/
abbrev gotP {ε : Type} (e : Except ε (List PByte × State)) : List PByte × State := okD ([], State.reset) e

theorem nodeReads (u : State) (i : Inst) (a len : Nat) (hc : closedHbm u 0 i.ctx i.mapVer a len 0 = none)
    (h : isOk (readHbm u 0 i.ctx i.mapVer a len 18) = true)
    (g : (gotP (readHbm u 0 i.ctx i.mapVer a len 18)).1.any (·.2) = false) :
    NodeReads u 0 0 i a len ((gotP (readHbm u 0 i.ctx i.mapVer a len 18)).1.map (·.1)) (gotP (readHbm u 0 i.ctx i.mapVer a len 18)).2 :=
  ⟨hc, _, ok_okD _ _ h, g, rfl⟩

theorem test_kernel_rerun : let i : Inst := { kernelNode false with refs := true, firstAt := some 0, rerun := true }
    let s := kernelState i
    Dispatches s 0 0 i (begun s i) (latched s i) ∧ i.ty = 0 ∧ bitOf (wd i.words 6) 31 = false ∧ (latched s i).refs = true ∧
      Unheld s (traced (startTiles (begun s i) 0 0) 0 0 i) :=
  ⟨dispatches _ _ (by decide +kernel), by decide +kernel, by decide +kernel, by decide +kernel, by decide +kernel⟩
theorem test_kernel_dispatch : let i := kernelNode false
    let s := kernelState i
    let j := latched s i
    ∃ ib v, Dispatches s 0 0 i (begun s i) j ∧ i.ty = 0 ∧ bitOf (wd i.words 6) 31 = false ∧ j.refs = false ∧ kernelBad j = false ∧
      namedRange (begun s i) 0 j j.imageAddr (8 * j.imageWords) false = .ok ∧ bitOf (wd j.words 6) 30 = false ∧
      NodeReads (begun s i) 0 0 j j.imageAddr (8 * j.imageWords) ib v ∧
      ((words64 j.imageWords ib).take 5).all (fun w => opcodeOf w == 3) = true ∧
      loadedImage (begun s i) 0 0 j = none ∧ cbMissing (v.cp j.ctx 0) j.cbMask = none ∧
      sfuMissing (v.cp j.ctx 0) j.bank j.mpMask = none ∧
      Unheld s (traced (startTiles (takeRefs (v.modInst 0 0 fun k => { k with image := words64 j.imageWords ib, args := [1, 0, 0, 0] })
        0 0 j) 0 0) 0 0 i) ∧ (List.range 4).map (fun k => wd j.words (10 + k)) = [1, 0, 0, 0] ∧ bitOf (wd j.words 6) 29 = false :=
  ⟨_, _, dispatches _ _ (by decide +kernel), by decide +kernel, by decide +kernel, by decide +kernel, by decide +kernel,
    by decide +kernel, by decide +kernel, nodeReads _ _ _ _ (by decide +kernel) (by decide +kernel) (by decide +kernel), by decide +kernel,
    by decide +kernel, by decide +kernel, by decide +kernel, by decide +kernel, by decide +kernel, by decide +kernel⟩
/-- With the image loaded ahead. -/
theorem test_kernel_dispatch_loaded : let i := kernelNode false
    let img := List.replicate 5 (word 3 0)
    let s := (kernelState i).setTile 0 0 { Tile.setWords {} 1 img with loaded := some 0 }
    let j := latched s i
    Dispatches s 0 0 i (begun s i) j ∧ j.refs = false ∧ kernelBad j = false ∧ loadedImage (begun s i) 0 0 j = some img ∧
      namedRange (begun s i) 0 j j.imageAddr (8 * j.imageWords) false = .ok ∧ img.all (fun w => opcodeOf w == 3) = true ∧
      Unheld s (traced (startTiles (takeRefs ((begun s i).modInst 0 0 fun k => { k with image := img, args := [1, 0, 0, 0] })
        0 0 j) 0 0) 0 0 i) :=
  ⟨dispatches _ _ (by decide +kernel), by decide +kernel, by decide +kernel, by decide +kernel, by decide +kernel,
    by decide +kernel, by decide +kernel⟩
theorem test_kernel_dispatch_indirect : let i := kernelNode true
    let s := kernelState i
    let j := latched s i
    ∃ rb v0 ib v, Dispatches s 0 0 i (begun s i) j ∧ j.refs = false ∧ kernelBad j = false ∧
      namedRange (begun s i) 0 j j.imageAddr (8 * j.imageWords) false = .ok ∧ bitOf (wd j.words 6) 30 = true ∧
      namedRange (begun s i) 0 j (wd64 j.words 10) 16 false = .ok ∧ NodeReads (begun s i) 0 0 j (wd64 j.words 10) 16 rb v0 ∧
      NodeReads v0 0 0 j j.imageAddr (8 * j.imageWords) ib v ∧ bytesWords 4 rb = [1, 2, 3, 4] :=
  ⟨_, _, _, _, dispatches _ _ (by decide +kernel), by decide +kernel, by decide +kernel, by decide +kernel, by decide +kernel,
    by decide +kernel, nodeReads _ _ _ _ (by decide +kernel) (by decide +kernel) (by decide +kernel),
    nodeReads _ _ _ _ (by decide +kernel) (by decide +kernel) (by decide +kernel), by decide +kernel⟩
theorem test_kernel_image_load : let i := kernelNode false
    let s := kernelState i
    ∃ m v, s.inst? 0 0 = some i ∧ i.ty = 0 ∧ i.svu = false ∧ i.refs = false ∧ i.st = .ready ∧ kernelBad i = false ∧
      (s.part 0).frozen = false ∧ closedHbm s 0 i.ctx (s.ctx i.ctx).mapVer i.imageAddr (8 * i.imageWords) 0 = none ∧
      readHbm s 0 i.ctx (s.ctx i.ctx).mapVer i.imageAddr (8 * i.imageWords) 18 = .ok (m, v) ∧ m.any (·.2) = false ∧
      Unheld s (i.tiles.foldl (fun s t => s.setTile 0 t
        { (s.tile 0 t).setWords (1 - (s.tile 0 t).half) (words64 i.imageWords (m.map (·.1))) with loaded := some 0 }) v) :=
  ⟨_, _, by decide +kernel, by decide +kernel, by decide +kernel, by decide +kernel, by decide +kernel, by decide +kernel,
    by decide +kernel, by decide +kernel, ok_pair ([], State.reset) _ (by decide +kernel), by decide +kernel, by decide +kernel⟩

/-- An SVU kernel with its descriptor at 0x7000, with bits 29 and 30 of word 6 and IMAGE_WORDS, which it does not use, all ones. -/
def svuNode : Inst := node 0 [(6, 2 ^ 31 + 2 ^ 30 + 2 ^ 29), (8, 0x7000), (14, 8191)]

/-- A STREAM of 256 bytes without inputs to 0x4000 by program 7. -/
def streamDesc : List Nat := [65536 + 7, 256, 0x3000, 0, 0, 0, 0, 0, 0, 0, 0, 0, 0x4000]

/-- The LAYER kernel of the layer above. -/
def layerDesc : List Nat := [2 ^ 30, 0, 0, 0, 0x5000]

/-- Device memory with a descriptor d and the layer. -/
def svuState (d : List Nat) (i : Inst) : State := withInst (device [(0x5000, layerWords), (0x7000, d)]) i

theorem test_svu_rerun : let i : Inst := { svuNode with svuDesc := streamDesc, firstAt := some 0, rerun := true }
    let s := svuState streamDesc i
    Dispatches s 0 0 i (begun s i) (latched s i) ∧ i.svu = true ∧ (latched s i).svuDesc ≠ [] ∧
      Unheld s (traced (svuStart (begun s i) 0 0 streamDesc [] [] []) 0 0 i) :=
  ⟨dispatches _ _ (by decide +kernel), by decide +kernel, by decide +kernel, by decide +kernel⟩
theorem test_svu_stream : let i := svuNode
    let s := svuState streamDesc i
    let j := latched s i
    ∃ db v m w, Dispatches s 0 0 i (begun s i) j ∧ i.svu = true ∧ j.svuDesc = [] ∧ bitsOf (wd j.words 6) 28 0 = 0 ∧
      wd j.words 7 = 0 ∧ bitsOf (wd j.words 14) 31 13 = 0 ∧ wd j.words 15 = 0 ∧
      namedRange (begun s i) 0 j j.imageAddr 64 false = .ok ∧ NodeReads (begun s i) 0 0 j j.imageAddr 64 db v ∧
      svuDescBad (bytesWords 16 db) = false ∧ svuIsLayer (bytesWords 16 db) = false ∧
      (∀ r ∈ streamRanges v 0 j (bytesWords 16 db), r = .ok) ∧ streamBad v 0 j (bytesWords 16 db) = false ∧
      closedHbm v 0 j.ctx j.mapVer (addr48 (bytesWords 16 db) 2) 64 0 = none ∧
      readHbm v 0 j.ctx j.mapVer (addr48 (bytesWords 16 db) 2) 64 16 = .ok (m, w) ∧ m.any (·.2) = false ∧
      Unheld s (traced (svuStart w 0 0 (bytesWords 16 db) [] (bytesWords 16 (m.map (·.1))) []) 0 0 i) :=
  ⟨_, _, _, _, dispatches _ _ (by decide +kernel), by decide +kernel, by decide +kernel, by decide +kernel, by decide +kernel,
    by decide +kernel, by decide +kernel, by decide +kernel,
    nodeReads _ _ _ _ (by decide +kernel) (by decide +kernel) (by decide +kernel), by decide +kernel, by decide +kernel, by decide +kernel,
    by decide +kernel, by decide +kernel, ok_pair ([], State.reset) _ (by decide +kernel), by decide +kernel, by decide +kernel⟩

/-! The terms of the LAYER witness. -/

def lyS : State := svuState layerDesc svuNode
def lyJ : Inst := latched lyS svuNode
def lyD : List PByte × State := gotP (readHbm (begun lyS svuNode) 0 lyJ.ctx lyJ.mapVer lyJ.imageAddr 64 18)
def lyDesc : List Nat := bytesWords 16 (lyD.1.map (·.1))
def lyM : List PByte × State := gotP (readHbm lyD.2 0 lyJ.ctx lyJ.mapVer (addr48 lyDesc 4) 64 16)
def lyLayer : List Nat := bytesWords 16 (lyM.1.map (·.1))
def lyH : List PByte × State := gotP (readHbm lyM.2 0 lyJ.ctx lyJ.mapVer (lyHp lyLayer) 64 16)

theorem test_svu_layer : Dispatches lyS 0 0 svuNode (begun lyS svuNode) lyJ ∧
    namedRange (begun lyS svuNode) 0 lyJ lyJ.imageAddr 64 false = .ok ∧
    NodeReads (begun lyS svuNode) 0 0 lyJ lyJ.imageAddr 64 (lyD.1.map (·.1)) lyD.2 ∧ svuDescBad lyDesc = false ∧
    svuIsLayer lyDesc = true ∧ closedHbm lyD.2 0 lyJ.ctx lyJ.mapVer (addr48 lyDesc 4) 64 0 = none ∧ readHbm lyD.2 0 lyJ.ctx lyJ.mapVer (addr48 lyDesc 4) 64 16 = .ok (lyM.1, lyM.2) ∧
    lyM.1.any (·.2) = false ∧ lyFault lyM.2 0 lyJ.ctx lyJ.mapVer lyLayer = false ∧ bitOf (wd lyDesc 0) 29 = false ∧
    closedHbm lyM.2 0 lyJ.ctx lyJ.mapVer (lyStat lyLayer) (49152 * lyChunks lyLayer) 0 = none ∧
    closedHbm lyM.2 0 lyJ.ctx lyJ.mapVer (lyHp lyLayer) 64 0 = none :=
  ⟨dispatches _ _ (by decide +kernel), by decide +kernel, nodeReads _ _ _ _ (by decide +kernel) (by decide +kernel) (by decide +kernel),
    by decide +kernel, by decide +kernel, by decide +kernel, ok_pair ([], State.reset) _ (by decide +kernel), by decide +kernel,
    by decide +kernel, by decide +kernel, by decide +kernel, by decide +kernel⟩
theorem test_svu_layer_totals : (∃ tot, layerTotals lyM.2 0 lyJ lyLayer = .ok (some tot, lyM.2)) ∧
    readHbm lyM.2 0 lyJ.ctx lyJ.mapVer (lyHp lyLayer) 64 16 = .ok (lyH.1, lyH.2) ∧ lyH.1.any (·.2) = false ∧
    ∀ tot, Unheld lyS (traced (svuStart lyH.2 0 0 lyDesc lyLayer (bytesWords 16 (lyH.1.map (·.1))) tot) 0 0 svuNode) := by
  have h : ∀ k ∈ List.range (768 * lyChunks lyLayer), pieces (lyStat lyLayer + 64 * k) 64 = [(lyStat lyLayer + 64 * k, 64)] ∧
      isOk (translate lyM.2 lyJ.ctx lyJ.mapVer (lyStat lyLayer + 64 * k) false) = true ∧
      (okD (9, 0) (translate lyM.2 lyJ.ctx lyJ.mapVer (lyStat lyLayer + 64 * k) false)).1 = 0 := by decide +kernel
  have hq : Quiet lyM.2 0 := by unfold Quiet; decide +kernel
  refine ⟨layerTotals_quiet (fun k hk => ⟨(h k hk).1,
    (okD (9, 0) (translate lyM.2 lyJ.ctx lyJ.mapVer (lyStat lyLayer + 64 * k) false)).2, ?_⟩) (by decide +kernel) hq,
    ok_pair ([], State.reset) _ (by decide +kernel), by decide +kernel, fun tot => ?_⟩
  rotate_left
  · have : heldBy lyS lyH.2 = [] := by decide +kernel
    rw [Unheld, ← this]
    refine heldBy_regs fun q => ?_
    rw [traced_regs]
    simp only [svuStart, modInst_regs]
  have e := ok_pair (9, 0) _ (h k hk).2.1
  rw [(h k hk).2.2] at e
  exact e
theorem test_svu_group : let i : Inst := { svuNode with st := .running, svuDesc := streamDesc }
    let s := svuState streamDesc i
    ∃ ws s1, s.inst? 0 0 = some i ∧ i.svu = true ∧ i.st = .running ∧ i.ended = false ∧ (s.part 0).frozen = false ∧
      (svuUnits s 0 i 66)[0]? = some 0 ∧ phase1Waits s 66 = false ∧ svuGroup s 0 i 0 = .ok (some ws, s1) ∧ groupFault s1 0 i ws = none ∧
      Unheld s (s1.setInst 0 0 { i with svuDone := [(66, 1)], svuOut := ws }) :=
  ⟨_, _, by decide +kernel, by decide +kernel, by decide +kernel, by decide +kernel, by decide +kernel, by decide +kernel,
    by decide +kernel, ok_some [] State.reset _ (by decide +kernel), by decide +kernel, by decide +kernel⟩

/-! COPY. -/

/-- A COPY of 64 bytes from 0x1000 with C_MODE, SRC_KIND and DST_KIND in word 6, and more words. -/
def copyNodeOf (w6 : Nat) (es : List (Nat × Nat)) : Inst := node 1 ([(6, w6), (8, 0x1000), (10, 0x2000), (12, 64)] ++ es)

/-- The bytes and the state that the source of a COPY gives. -/
abbrev copyGot (u : State) (j : Inst) : List PByte × State :=
  gotP (readHbm u 0 j.ctx j.mapVer j.src j.length 18)

theorem copyReads (u : State) (j : Inst) (src : HostRd) (h0 : j.srcKind = 0)
    (hc : closedHbm u 0 j.ctx j.mapVer j.src j.length 0 = none) (h : isOk (readHbm u 0 j.ctx j.mapVer j.src j.length 18) = true)
    (g : (copyGot u j).1.any (·.2) = false) : CopyReads u 0 0 j src ((copyGot u j).1.map (·.1)) (copyGot u j).2 :=
  Or.inl ⟨h0, nodeReads _ _ _ _ hc h g⟩

/-- Device to device. -/
theorem test_copy_linear : let i := copyNodeOf 0 []
    let s := withInst (device []) i
    let j := latched s i
    ∃ bs v u1, Dispatches s 0 0 i (begun s i) j ∧ i.ty = 1 ∧ CopyPasses (begun s i) 0 0 j ∧ i.cMode = 0 ∧
      CopyReads (begun s i) 0 0 j .error bs v ∧ CopyArrives v 0 0 j bs u1 ∧ i.srcKind ≠ 2 ∧ i.dstKind ≠ 3 ∧
      Unheld s (traced u1 0 0 i) :=
  ⟨_, _, _, dispatches _ _ (by decide +kernel), by decide +kernel, by unfold CopyPasses; decide +kernel, by decide +kernel,
    copyReads _ _ _ (by decide +kernel) (by decide +kernel) (by decide +kernel) (by decide +kernel),
    Or.inl ⟨by decide +kernel, _, ok_okD State.reset _ (by decide +kernel), rfl⟩, by decide +kernel, by decide +kernel,
    by decide +kernel⟩
/-- Host to host. -/
theorem test_copy_host : let i := copyNodeOf (2 ^ 26 + 2 ^ 24) []
    let s := withInst (device []) i
    let j := latched s i
    ∃ bs v u1, Dispatches s 0 0 i (begun s i) j ∧ CopyPasses (begun s i) 0 0 j ∧ i.cMode = 0 ∧
      CopyReads (begun s i) 0 0 j (.data (List.replicate 64 7)) bs v ∧ CopyArrives v 0 0 j bs u1 ∧ i.srcKind = 1 ∧ i.dstKind = 1 ∧
      Unheld s (traced u1 0 0 i) :=
  ⟨_, _, _, dispatches _ _ (by decide +kernel), by unfold CopyPasses; decide +kernel, by decide +kernel,
    Or.inr (Or.inl ⟨by decide +kernel, ⟨_, rfl, rfl⟩, by decide +kernel, rfl⟩), Or.inr (Or.inl ⟨by decide +kernel, by decide +kernel, rfl⟩),
    by decide +kernel, by decide +kernel, by decide +kernel⟩
/-- Device to host with ATS on and no translation held: the bytes wait. -/
theorem test_copy_host_waits : let i := copyNodeOf (2 ^ 24) []
    let s := withInst ((device []).setFn 0 { atsEn := true }) i
    let j := latched s i
    ∃ bs v u1, Dispatches s 0 0 i (begun s i) j ∧ CopyPasses (begun s i) 0 0 j ∧ i.cMode = 0 ∧
      CopyReads (begun s i) 0 0 j .error bs v ∧ CopyArrives v 0 0 j bs u1 ∧ i.srcKind = 0 ∧ i.dstKind = 1 ∧
      Unheld s (traced u1 0 0 i) :=
  ⟨_, _, _, dispatches _ _ (by decide +kernel), by unfold CopyPasses; decide +kernel, by decide +kernel,
    copyReads _ _ _ (by decide +kernel) (by decide +kernel) (by decide +kernel) (by decide +kernel),
    Or.inr (Or.inr (Or.inl ⟨by decide +kernel, 2, [], by decide +kernel, rfl⟩)), by decide +kernel, by decide +kernel, by decide +kernel⟩

/-- Context 1 with binding 0 latched to generation 1, whose image 5 in the weight store has one stream region of 1 MiB. -/
def streamState (i : Inst) : State :=
  let reg : List Nat := [2 ^ 31, 0, 0, 0, 1048576, 0, 0, 0]
  let gen : WGen := { st := .loaded, header := List.replicate 64 0, regions := [reg], image := 5, key := [], bound := [0] }
  let s := device []
  withInst ({ s with nvws := { s.nvws with images := [(5, { header := List.replicate 64 0, regions := [reg], hashes := [] })] } }.setCtx 1
    { ctx1 with bindings := [(0, { gens := [(1, gen)] })] }) i

theorem test_copy_stream : let i := copyNodeOf (2 ^ 27) [(8, 0), (12, 0)]
    let s := streamState i
    let j := latched s i
    ∃ bs v u1, Dispatches s 0 0 i (begun s i) j ∧ CopyPasses (begun s i) 0 0 j ∧ i.cMode = 0 ∧ i.srcKind = 2 ∧
      CopyReads (begun s i) 0 0 j (.data []) bs v ∧ CopyArrives v 0 0 j bs u1 ∧ Unheld s (traced u1 0 0 i) :=
  ⟨_, _, _, dispatches _ _ (by decide +kernel), by unfold CopyPasses; decide +kernel, by decide +kernel, by decide +kernel,
    Or.inr (Or.inr ⟨by decide +kernel, by decide, 5, [], [2 ^ 31, 0, 0, 0, 1048576, 0, 0, 0], by decide +kernel,
      ok_okD [] _ (by decide +kernel), rfl⟩), Or.inl ⟨by decide +kernel, _, ok_okD State.reset _ (by decide +kernel), rfl⟩,
    by decide +kernel⟩
/-- A fabric COPY to the module itself. -/
theorem test_copy_fabric : let i := copyNodeOf (3 * 2 ^ 24 + 2 ^ 23) [(7, 2 ^ 13)]
    let s := withInst (device []) i
    let j := latched s i
    ∃ bs v u1, Dispatches s 0 0 i (begun s i) j ∧ CopyPasses (begun s i) 0 0 j ∧ i.cMode = 0 ∧ i.srcKind ≠ 2 ∧ i.dstKind = 3 ∧
      i.overFabric = true ∧ CopyReads (begun s i) 0 0 j .error bs v ∧ CopyArrives v 0 0 j bs u1 ∧ Unheld s (traced u1 0 0 i) :=
  ⟨_, _, _, dispatches _ _ (by decide +kernel), by unfold CopyPasses; decide +kernel, by decide +kernel, by decide +kernel,
    by decide +kernel, by decide +kernel, copyReads _ _ _ (by decide +kernel) (by decide +kernel) (by decide +kernel) (by decide +kernel),
    Or.inr (Or.inr (Or.inr (Or.inl ⟨by decide +kernel, by decide +kernel, by decide +kernel, rfl⟩))), by decide +kernel⟩

/-- A READY connection of context 1 and function 0. -/
def conn1 : Conn := { st := .ready, ctx := 1, fn := 0, words := [] }

theorem test_copy_rdma : let i := copyNodeOf (3 * 2 ^ 24) [(7, 9)]
    let s := withInst { device [] with conns := [(9, conn1)] } i
    let j := latched s i
    ∃ bs v u1, Dispatches s 0 0 i (begun s i) j ∧ CopyPasses (begun s i) 0 0 j ∧ i.cMode = 0 ∧ i.srcKind ≠ 2 ∧ i.dstKind = 3 ∧
      i.overFabric = false ∧ CopyReads (begun s i) 0 0 j .error bs v ∧ CopyArrives v 0 0 j bs u1 ∧
      Unheld s (traced u1 0 0 i) :=
  ⟨_, _, _, dispatches _ _ (by decide +kernel), by unfold CopyPasses; decide +kernel, by decide +kernel, by decide +kernel,
    by decide +kernel, by decide +kernel, copyReads _ _ _ (by decide +kernel) (by decide +kernel) (by decide +kernel) (by decide +kernel),
    Or.inr (Or.inr (Or.inr (Or.inr ⟨by decide +kernel, by decide +kernel, conn1, by decide +kernel, by decide +kernel, by decide +kernel,
      rfl⟩))), by decide +kernel⟩

/-- The records of an export. -/
def kvOutOk : KvOut → Bool
  | .ok .. => true
  | .stop _ => false

/-- Its state and bytes. -/
def kvOutGet : KvOut → State × List Byte
  | .ok s bs => (s, bs)
  | .stop s => (s, [])

theorem kvOut_ok (k : KvOut) (h : kvOutOk k = true) : k = .ok (kvOutGet k).1 (kvOutGet k).2 := by
  cases k with
  | ok s bs => rfl
  | stop s => cases h

/-- The export of an empty sequence over a connection. -/
theorem test_kv_export : let i : Inst := copyNodeOf (2 ^ 28 + 3 * 2 ^ 24) [(7, 9), (8, 0x2000), (12, 16384), (15, 1)]
    let s := withInst { (device (kvWords 0)).setCp 1 0 { pt := some ⟨0x1000, 1⟩ } with conns := [(9, conn1)] } i
    let j := latched s i
    ∃ qb s1 s2 bs u1, Dispatches s 0 0 i (begun s i) j ∧ i.ty = 1 ∧ CopyPasses (begun s i) 0 0 j ∧ i.cMode = 1 ∧
      kvRead (begun s i) 0 0 j.ctx j.mapVer j.src 64 0 = .ok (qb, s1) ∧ seqBad (bytesWords 16 qb) 0 = false ∧
      exportAll s1 0 0 j (bytesWords 16 qb) = .ok s2 bs ∧ bs.length ≤ j.length ∧ CopyArrives s2 0 0 j bs u1 ∧
      Unheld s (traced u1 0 0 i) :=
  ⟨_, _, _, _, _, dispatches _ _ (by decide +kernel), by decide +kernel, by unfold CopyPasses; decide +kernel, by decide +kernel,
    ok_pair ([], State.reset) _ (by decide +kernel), by decide +kernel, kvOut_ok _ (by decide +kernel), by decide +kernel,
    Or.inr (Or.inr (Or.inr (Or.inr ⟨by decide +kernel, by decide +kernel, conn1, by decide +kernel, by decide +kernel, by decide +kernel,
      rfl⟩))), by decide +kernel⟩
/-- The import of no record. -/
theorem test_kv_import : let i : Inst := copyNodeOf (2 * 2 ^ 28) [(12, 0)]
    let s := withInst (device (kvWords 1)) i
    let j := latched s i
    ∃ bs v qb s1 s2 rest top, Dispatches s 0 0 i (begun s i) j ∧ i.ty = 1 ∧ CopyPasses (begun s i) 0 0 j ∧ i.cMode = 2 ∧
      CopyReads (begun s i) 0 0 j .error bs v ∧ kvRead v 0 0 j.ctx j.mapVer j.dst 64 0 = .ok (qb, s1) ∧
      seqBad (bytesWords 16 qb) 0 = false ∧
      importAll s1 0 0 j (bytesWords 16 qb) (bs.length / 64 + 1) bs 0 = (.ok s2 rest, top) ∧
      Unheld s (traced (s2.modInst 0 0 fun k =>
        { k with ended := true, writes := if bs = [] then [] else [⟨j.ctx, j.mapVer, j.dst, 4, top⟩] }) 0 0 i) :=
  ⟨[], _, _, _, _, [], 0, dispatches _ _ (by decide +kernel), by decide +kernel, by unfold CopyPasses; decide +kernel,
    by decide +kernel, copyReads _ _ _ (by decide +kernel) (by decide +kernel) (by decide +kernel) (by decide +kernel),
    ok_pair ([], State.reset) _ (by decide +kernel), by decide +kernel, rfl, by decide +kernel⟩

/-! Waits and conditions. -/

/-- A WAIT on fence 0 of the own context with FENCE_VAL 1. -/
def waitNode : Inst := node 2 [(12, 1)]

/-- A WAIT that runs again. -/
theorem test_wait_fence_rerun : let i : Inst := { waitNode with firstAt := some 0, rerun := true }
    let s := withInst (device []) i
    Dispatches s 0 0 i (begun s i) (latched s i) ∧ i.ty = 2 ∧ i.kind = false ∧ (latched s i).rerun = true :=
  ⟨dispatches _ _ (by decide +kernel), by decide +kernel, by decide +kernel, by decide +kernel⟩
theorem test_wait_fence : let s := withInst (device []) waitNode
    let j := latched s waitNode
    Dispatches s 0 0 waitNode (begun s waitNode) j ∧ waitNode.ty = 2 ∧ waitNode.kind = false ∧
      waitFenceBad (begun s waitNode) 0 j = false :=
  ⟨dispatches _ _ (by decide +kernel), by decide +kernel, by decide +kernel, by decide +kernel⟩

/-- A condition on device memory at 0x1000: WAIT (2), COND (4) or LOOP (5) with the bits `more` in word 6. -/
def condNode (ty more : Nat) : Inst := node ty [(6, 2 ^ 27 + more), (8, 0x1000), (10, 0xFF)]

theorem condReads (s : State) (i : Inst) (rd : HostRd) (h0 : i.cHost = false)
    (h : isOk (readDva s 0 i.ctx i.mapVer i.cAddr i.cWidth 18) = true)
    (g : (gotP (readDva s 0 i.ctx i.mapVer i.cAddr i.cWidth 18)).1.any (·.2) = false) : ∃ w v, CondReads s 0 0 i rd w v :=
  ⟨_, _, Or.inr ⟨h0, _, _, ok_okD _ _ h, g, rfl, rfl⟩⟩

theorem test_wait_poll_again : ∀ ty ∈ [2, 4], let i : Inst := { condNode ty (2 ^ 16) with st := .running }
    let s := withInst (device []) i
    s.inst? 0 0 = some i ∧ pollDue s 0 i = true ∧ (∃ w v, CondReads s 0 0 i .error w v) ∧ i.ty = ty ∧ i.kind = true := by
  intro ty h
  simp only [List.mem_cons, List.not_mem_nil, or_false] at h
  rcases h with rfl | rfl <;>
    exact ⟨by decide +kernel, by decide +kernel, condReads _ _ _ (by decide +kernel) (by decide +kernel) (by decide +kernel),
      by decide +kernel, by decide +kernel⟩
/-- The condition word in host memory. -/
theorem test_wait_poll_host : let i : Inst := { condNode 2 (2 ^ 31) with st := .running }
    let s := withInst (device []) i
    ∃ w v, pollDue s 0 i = true ∧ CondReads s 0 0 i (.data [1, 2, 3, 4]) w v :=
  ⟨_, _, by decide +kernel, Or.inl ⟨by decide +kernel, by decide +kernel, _, rfl, rfl, rfl⟩⟩
theorem test_wait_poll_first : let i := condNode 2 0
    let s := withInst (device []) i
    let j := latched s i
    Dispatches s 0 0 i (begun s i) j ∧ pollDue s 0 i = false ∧ (∀ r ∈ condRange (begun s i) 0 j, r = .ok) ∧
      (∃ w v, CondReads (begun s i) 0 0 j .error w v) ∧ i.ty = 2 ∧ i.kind = true ∧ condBad j false true = false :=
  ⟨dispatches _ _ (by decide +kernel), by decide +kernel, by decide +kernel,
    condReads _ _ _ (by decide +kernel) (by decide +kernel) (by decide +kernel), by decide +kernel, by decide +kernel,
    by decide +kernel⟩
theorem test_cond_poll_first : let i := condNode 4 (2 ^ 16)
    let s := withInst (device []) i
    let j := latched s i
    Dispatches s 0 0 i (begun s i) j ∧ pollDue s 0 i = false ∧ (∀ r ∈ condRange (begun s i) 0 j, r = .ok) ∧
      (∃ w v, CondReads (begun s i) 0 0 j .error w v) ∧ i.ty = 4 ∧ condBad j j.kind true = false :=
  ⟨dispatches _ _ (by decide +kernel), by decide +kernel, by decide +kernel,
    condReads _ _ _ (by decide +kernel) (by decide +kernel) (by decide +kernel), by decide +kernel, by decide +kernel⟩
/-- At the very count at which TIMEOUT has passed. -/
theorem test_wait_timeout : let i : Inst := { waitNode with st := .running, firstAt := some 0 }
    let s := withInst ((device []).setPart 0 { part0 [] with count := us 50000 }) i
    s.inst? 0 0 = some i ∧ i.firstAt = some 0 ∧ i.timeout = some (us 50000) ∧ i.ty = 2 ∧ i.st = .running ∧ i.ended = false ∧
      0 + us 50000 ≤ (s.part 0).count := by decide +kernel

/-! Nodes that run on no tile. -/

/-- Context 1 with subgraph 3 of one EVENT on partition 0. -/
def withSub (s : State) : State := s.setCp 1 0 { segs := [(3, { root := false, nodes := [nodeWords 9 []] })] }

theorem test_call : let i := node 6 [(6, 3)]
    let s := withInst (withSub (device [])) i
    let j := latched s i
    Dispatches s 0 0 i (begun s i) j ∧ i.ty = 6 ∧ j.rerun = false ∧ bitsOf (wd j.words 6) 31 16 = 0 ∧ (j.words.drop 7).all (· == 0) = true ∧
      subgraphOf (begun s i) j.ctx 0 (bitsOf (wd j.words 6) 15 0) = some [nodeWords 9 []] :=
  ⟨dispatches _ _ (by decide +kernel), by decide +kernel, by decide +kernel, by decide +kernel, by decide +kernel, by decide +kernel⟩

/-- The device with node i and, with `kid`, a node that it has made. -/
def again (kid : Bool) (i : Inst) : State :=
  let s := withInst (withSub (device [])) i
  if kid then s.setInst 0 1 { kern with parent := some 0 } else s

/-- A CALL that runs again, with and without a node of its own. -/
theorem test_call_rerun : ∀ kid, let i : Inst := { node 6 [(6, 3)] with firstAt := some 0, rerun := true }
    Dispatches (again kid i) 0 0 i (begun (again kid i) i) (latched (again kid i) i) ∧ i.ty = 6 ∧ (latched (again kid i) i).rerun = true ∧
      hasNodes (begun (again kid i) i) 0 0 = kid := by
  intro kid
  cases kid <;> exact ⟨dispatches _ _ (by decide +kernel), by decide +kernel, by decide +kernel, by decide +kernel⟩
/-- A LOOP that runs again: with a node of its iteration, without one, and stopped. -/
theorem test_loop_rerun : ∀ e ∈ [(true, false), (false, false), (false, true)],
    let i : Inst := { node 5 [(6, 3), (7, 1)] with firstAt := some 0, rerun := true, choice := if e.2 then some true else none }
    let s := again e.1 i
    Dispatches s 0 0 i (begun s i) (latched s i) ∧ i.ty = 5 ∧ pollDue s 0 i = false ∧ (latched s i).rerun = true ∧
      ((latched s i).choice ≠ none ↔ e.2 = true) ∧ hasNodes (begun s i) 0 0 = e.1 ∧ loopBad (latched s i) = false ∧
      (latched s i).kind = false ∧ (latched s i).started < wd (latched s i).words 7 := by
  intro e h
  simp only [List.mem_cons, List.not_mem_nil, or_false] at h
  rcases h with rfl | rfl | rfl <;>
    exact ⟨dispatches _ _ (by decide +kernel), by decide +kernel, by decide +kernel, by decide +kernel, by decide +kernel,
      by decide +kernel, by decide +kernel, by decide +kernel, by decide +kernel⟩
/-- A LOOP of one iteration, before and after it. -/
theorem test_loop_iterations : ∀ k ∈ [0, 1], let i : Inst := { node 5 [(6, 3), (7, 1)] with st := .running, started := k }
    let s := withInst (withSub (device [])) i
    s.inst? 0 0 = some i ∧ i.ty = 5 ∧ pollDue s 0 i = true ∧ i.choice = none ∧
      hasNodes s 0 0 = false ∧ wd i.words 7 = 1 ∧ i.started = k ∧ i.kind = false ∧
      subgraphOf s i.ctx 0 (bitsOf (wd i.words 6) 15 0) = some [nodeWords 9 []] := by decide +kernel
theorem test_loop_while : let i : Inst := { condNode 5 3 with st := .running, words := (condNode 5 3).words.set 7 1 }
    let s := withInst (withSub (device [])) i
    ∃ w v, s.inst? 0 0 = some i ∧ i.ty = 5 ∧ pollDue s 0 i = true ∧ i.started < wd i.words 7 ∧ i.kind = true ∧
      CondReads s 0 0 i .error w v ∧ subgraphOf v i.ctx 0 (bitsOf (wd i.words 6) 15 0) = some [nodeWords 9 []] :=
  ⟨_, _, by decide +kernel, by decide +kernel, by decide +kernel, by decide +kernel, by decide +kernel,
    Or.inr ⟨by decide +kernel, _, _, ok_pair ([], State.reset) _ (by decide +kernel), by decide +kernel, rfl, rfl⟩, by decide +kernel⟩
theorem test_loop_first : let i := node 5 [(6, 3), (7, 1)]
    let s := withInst (withSub (device [])) i
    let j := latched s i
    Dispatches s 0 0 i (begun s i) j ∧ i.ty = 5 ∧ pollDue s 0 i = false ∧ loopBad j = false ∧ j.kind = false ∧
      j.started < wd j.words 7 ∧ subgraphOf (begun s i) j.ctx 0 (bitsOf (wd j.words 6) 15 0) = some [nodeWords 9 []] :=
  ⟨dispatches _ _ (by decide +kernel), by decide +kernel, by decide +kernel, by decide +kernel, by decide +kernel,
    by decide +kernel, by decide +kernel⟩
/-- To a fence of the own context, to the module itself, to host memory, and to device memory. -/
theorem test_signal : ∀ e ∈ [(0, 0), (2 ^ 30, 0), (2 ^ 31, 0x1000), (3 * 2 ^ 30, 0x1000)], let i := node 3 [(6, e.1), (8, e.2)]
    let s := withInst (device []) i
    let j := latched s i
    Dispatches s 0 0 i (begun s i) j ∧ i.ty = 3 ∧ signalBad (begun s i) 0 j = false ∧
      routeRefused (begun s i) 0 j.destModule = false ∧ namedRange (begun s i) 0 j (wd64 j.words 8) j.sBytes true = .ok := by
  intro e h
  simp only [List.mem_cons, List.not_mem_nil, or_false] at h
  rcases h with rfl | rfl | rfl | rfl <;>
    exact ⟨dispatches _ _ (by decide +kernel), by decide +kernel, by decide +kernel, by decide +kernel, by decide +kernel⟩

/-- Binding 0 with generation 1 LOADED. -/
def loadedGen : WGen := { st := .loaded, image := 0, key := [] }

/-- Context 1 with that binding. -/
def withGen (s : State) (g : WGen) : State := s.setCtx 1 { s.ctx 1 with bindings := [(0, { gens := [(1, g)] })] }

theorem test_epoch : let i := node 8 [(7, 1)]
    let s := withInst (withGen (device []) loadedGen) i
    let j := latched s i
    Dispatches s 0 0 i (begun s i) j ∧ i.ty = 8 ∧ bitsOf (wd j.words 6) 31 16 = 0 ∧ (j.words.drop 8).all (· == 0) = true ∧
      tabFind ((begun s i).ctx j.ctx).bindings (bitsOf (wd j.words 6) 15 0) = some { gens := [(1, loadedGen)] } ∧
      tabFind [(1, loadedGen)] (wd j.words 7) = some loadedGen ∧ loadedGen.st = .loaded ∧ 0 ∉ loadedGen.damagedOn :=
  ⟨dispatches _ _ (by decide +kernel), by decide +kernel, by decide +kernel, by decide +kernel, by decide +kernel,
    by decide +kernel, by decide +kernel, by decide +kernel⟩
theorem test_event_join : ∀ ty ∈ [9, 10], let i := node ty []
    let s := withInst (device []) i
    let j := latched s i
    Dispatches s 0 0 i (begun s i) j ∧ i.ty = ty ∧ bitsOf (wd j.words 6) 31 11 = 0 ∧ (j.words.drop 7).all (· == 0) = true ∧
      joinBad j = false := by
  intro ty h
  simp only [List.mem_cons, List.not_mem_nil, or_false] at h
  rcases h with rfl | rfl <;>
    exact ⟨dispatches _ _ (by decide +kernel), by decide +kernel, by decide +kernel, by decide +kernel, by decide +kernel⟩

/-- A SEND of 64 bytes to the module itself: from device memory, from AM, and an arm with RTAG 1. -/
def sendNode (space rtag : Nat) : Inst :=
  node 7 [(6, (if rtag = 0 then 0 else 2 ^ 30 + 3 * 2 ^ 28) + space * 2 ^ 26), (8, 0), (11, rtag * 2 ^ 16), (12, 64)]

theorem test_send : let i := sendNode 0 0
    let s := withInst (device []) i
    let j := latched s i
    ∃ bs v, Dispatches s 0 0 i (begun s i) j ∧ i.ty = 7 ∧ i.isArm s = false ∧ j.staged = none ∧ sendBad (begun s i) j = false ∧
      routeRefused (begun s i) 0 j.destModule = false ∧ egressClosed (begun s i) 0 0 j.destModule (bitsOf (wd j.words 7) 18 13)
        (bitsOf (wd j.words 6) 21 20) (wd64 j.words 10 % 2 ^ 48) j.length = none ∧ sdSpace j = 0 ∧
      namedRange (begun s i) 0 j (wd64 j.words 8) j.length false = .ok ∧
      NodeReads (begun s i) 0 0 j (wd64 j.words 8) j.length bs v ∧ Unheld s (traced (stage v 0 0 bs) 0 0 i) :=
  ⟨_, _, dispatches _ _ (by decide +kernel), by decide +kernel, by decide +kernel, by decide +kernel, by decide +kernel,
    by decide +kernel, by decide +kernel, by decide +kernel, by decide +kernel,
    nodeReads _ _ _ _ (by decide +kernel) (by decide +kernel) (by decide +kernel), by decide +kernel⟩
theorem test_send_scratchpad : let i := sendNode 2 0
    let s := withInst (device []) i
    let j := latched s i
    Dispatches s 0 0 i (begun s i) j ∧ i.isArm s = false ∧ j.staged = none ∧ sendBad (begun s i) j = false ∧ sdSpace j ≠ 0 ∧
      (((begun s i).tile 0 (bitsOf (wd j.words 6) 25 22)).spad (spcOf (sdSpace j))).readErr (wd64 j.words 8) j.length = none ∧
      Unheld s (traced (stage (begun s i) 0 0 (memRead
        (((begun s i).tile 0 (bitsOf (wd j.words 6) 25 22)).spad (spcOf (sdSpace j))).bytes (wd64 j.words 8) j.length)) 0 0 i) :=
  ⟨dispatches _ _ (by decide +kernel), by decide +kernel, by decide +kernel, by decide +kernel, by decide +kernel,
    by decide +kernel, by decide +kernel⟩
theorem test_send_arm : let i := sendNode 0 1
    let s := withInst (device []) i
    let j := latched s i
    ∃ bs v, Dispatches s 0 0 i (begun s i) j ∧ i.isArm s = true ∧ j.staged = none ∧ sendBad (begun s i) j = false ∧
      j.isArm (begun s i) = true ∧ sdSpace j = 0 ∧ NodeReads (begun s i) 0 0 j (wd64 j.words 8) j.length bs v ∧
      Unheld s (traced (stage v 0 0 bs) 0 0 i) :=
  ⟨_, _, dispatches _ _ (by decide +kernel), by decide +kernel, by decide +kernel, by decide +kernel, by decide +kernel,
    by decide +kernel, nodeReads _ _ _ _ (by decide +kernel) (by decide +kernel) (by decide +kernel), by decide +kernel⟩

/-! Commit, records, timeouts. -/

/-- A running node whose execution has ended. -/
def doneNode (i : Inst) : Inst := { i with st := .running, ended := true }

theorem test_commit_wait_error : let i : Inst := { doneNode waitNode with status := .fenceError }
    let s := withInst (device []) i
    s.inst? 0 0 = some i ∧ i.st = .running ∧ instEnded i = true ∧ (s.part 0).frozen = false ∧ instOwes s 0 i = false ∧ i.ty = 2 ∧ i.status = .fenceError ∧
      Unheld s (resolveNode s 0 0 .abandoned .fenceError) := by
  decide +kernel
theorem test_commit_epoch_gone : let i := doneNode (node 8 [(7, 1)])
    let s := withInst (device []) i
    s.inst? 0 0 = some i ∧ instEnded i = true ∧ (s.part 0).frozen = false ∧ instOwes s 0 i = false ∧ i.ty = 8 ∧ epochLoaded s 0 i = false ∧
      Unheld s (failNode s 0 0 0x32B4 [i.ctx, bitsOf (wd i.words 6) 15 0, wd i.words 7, 0]) := by decide +kernel
theorem test_commit_epoch : let i := doneNode (node 8 [(7, 1)])
    let s := withInst (withGen (device []) loadedGen) i
    s.inst? 0 0 = some i ∧ instEnded i = true ∧ ¬ (i.ty = 2 ∧ i.status = .fenceError) ∧ epochLoaded s 0 i = true ∧
      epochWaits s 0 0 i = false ∧ i.crec = false ∧ (s.part 0).frozen = false ∧ instOwes s 0 i = false ∧ Unheld s (commitNode s 0 0) := by decide +kernel
/-- A record that takes the last free entry of a ring of 64. -/
theorem test_commit_record : let i := { doneNode (node 9 []) with words := [9 * 2 ^ 28 + 2 ^ 23] }
    let s := withInst ((device []).setCp 1 0 { ring := some ⟨0, 6, 0, 63⟩, recs := [(0, none)] }) i
    s.inst? 0 0 = some i ∧ instEnded i = true ∧ i.ty = 9 ∧ i.crec = true ∧ (s.cp 1 0).broken = false ∧
      (s.cp 1 0).ring = some ⟨0, 6, 0, 63⟩ ∧ (63 + 2 ^ 32 - leNat (([0, 0, 0, 0] : List Byte).take 4) % 2 ^ 32) % 2 ^ 32 + claimed s 0 1 0 < 2 ^ 6 ∧
      (s.part 0).frozen = false ∧ instOwes s 0 i = false ∧ missingPages s (s.ctx 1).owner 0 4 = [] ∧ Unheld s (commitNode s 0 0) := by
  decide +kernel
theorem test_record_write : let s := (device []).setCp 1 0 { ring := some ⟨0, 6, 0, 63⟩, recs := [(0, some [1, 2])] }
    (s.cp 1 0).recs = (0, some (1 :: [2])) :: [] ∧ (s.cp 1 0).ring = some ⟨0, 6, 0, 63⟩ ∧ (s.cp 1 0).broken = false ∧ (s.part 0).frozen = false ∧
      (63 + 2 ^ 32 - leNat (([0, 0, 0, 0] : List Byte).take 4) % 2 ^ 32) % 2 ^ 32 < 2 ^ 6 ∧ missingPages s (s.ctx 1).owner 0 4 = [] ∧
      missingPages s (s.ctx 1).owner (0 + 32 * (63 % 2 ^ 6)) 32 = [] := by decide +kernel
theorem test_node_budget : let i : Inst := { kernelNode false with st := .running }
    let s := withInst ((device []).setPart 0 { part0 [] with count := us 50000 }) i
    s.inst? 0 0 = some i ∧ scheduled i.ty = true ∧ i.st = .running ∧ i.dispAt + i.budget ≤ (s.part 0).count ∧ (s.part 0).frozen = false := by decide +kernel
theorem test_node_io : let i : Inst := { copyNodeOf (2 ^ 26) [] with st := .running }
    let s := withInst (device []) i
    s.inst? 0 0 = some i ∧ i.st = .running ∧ readsOutside i = true ∧ i.ty = 1 := by decide +kernel
theorem test_ack_timeouts : (let i : Inst := { sendNode 0 0 with st := .committing, acks := [1] };
      let s := withInst ((device []).setPart 0 { part0 [] with count := 50000 }) i;
      s.inst? 0 0 = some i ∧ i.st = .committing ∧ i.held = false ∧ i.step3 = true ∧ i.sentAt + 50000 ≤ (s.part 0).count ∧
        i.arm = none) ∧
    (let i : Inst := { copyNodeOf (3 * 2 ^ 24 + 2 ^ 23) [] with st := .running, acks := [1] };
      let s := withInst ((device []).setPart 0 { part0 [] with count := 50000 }) i;
      s.inst? 0 0 = some i ∧ i.ty = 1 ∧ i.st = .running ∧ i.acks ≠ [] ∧ i.sentAt + 50000 ≤ (s.part 0).count) := by decide +kernel

/-- Contexts 1 and 2, each of which waits on fence 0 of the other. -/
def deadState : State :=
  let w (c o t : Nat) : Inst := { ctx := c, seg := 1, idx := 0, words := nodeWords 2 [(6, o * 2 ^ 10), (12, 1)], st := .running, dispAt := t }
  let s := ((State.reset.setCtx 1 { st := .open, parts := [0] }).setCtx 2 { st := .open, parts := [0] })
  ((s.setPart 0 { inService := true }).setInst 0 0 (w 1 2 5)).setInst 0 1 (w 2 1 6)

theorem test_deadlock_new : ∀ c ∈ findCycles deadState, c ∉ deadState.cycles := by decide +kernel
theorem test_deadlock_again : let s := { deadState with cycles := [[1, 2]] }
    findCycles s = [[1, 2]] ∧ [1, 2] ∈ s.cycles ∧ youngest s [1, 2] = some (0, 1) ∧ (s.inst? 0 1).isSome = true := by decide +kernel

/-- Partition 0 with a schedule of two slots of 1 µs, in slot k at its end. -/
def schedPart (k : Nat) : Part :=
  { inService := true, sched := some [⟨0, 1, 1⟩, ⟨1, 0, 1⟩], slot := k, count := 25 * (k + 1) }

theorem test_slot_next : let s := State.reset.setPart 0 (schedPart 0)
    (s.part 0).sched = some [⟨0, 1, 1⟩, ⟨1, 0, 1⟩] ∧ (s.part 0).frameAt + slotEnd [⟨0, 1, 1⟩, ⟨1, 0, 1⟩] (s.part 0).slot = (s.part 0).count ∧
      (s.part 0).slot + 1 < 2 ∧ (s.part 0).frozen = false ∧ (s.part 0).computeHeld = false := by decide +kernel
theorem test_slot_last : ∀ nx ∈ [none, some [], some [⟨0, 2, 1⟩]], let s := State.reset.setPart 0 { schedPart 1 with schedNext := nx }
    (s.part 0).frozen = false ∧ (s.part 0).computeHeld = false ∧
      (s.part 0).frameAt + slotEnd [⟨0, 1, 1⟩, ⟨1, 0, 1⟩] (s.part 0).slot = (s.part 0).count ∧ 2 ≤ (s.part 0).slot + 1 ∧
      (s.part 0).schedNext = nx := by decide +kernel
/-- A window that ends now, and one a count later. -/
theorem test_grace : let s := State.reset.setPart 0 { graces := [⟨0, 50, [0]⟩, ⟨1, 51, [0]⟩], count := 50 }
    (s.part 0).frozen = false ∧ ((s.part 0).graces.filter fun g => g.ends ≤ (s.part 0).count) = [⟨0, 50, [0]⟩] := by decide +kernel
theorem test_refill : let s := State.reset.setPart 0 { inService := true, count := 25, regs := [(10, { armed := some (256, 64) })] }
    (s.part 0).computeHeld = false ∧ (s.part 0).refillAt + 25 = (s.part 0).count ∧ ((s.part 0).reg 0).armed = none ∧ ((s.part 0).reg 10).armed = some (256, 64) := by
  decide +kernel

/-! The mailbox. -/

/-- The bytes of a request of sequence 1, opcode op, no context, with a payload. -/
def reqBytes (op : Nat) (ws : List Nat) : Mem := memWrite [] 0 (wordsBytes ([65536 + op, 4 * ws.length, 0, 0] ++ ws))

/-- Function 0 with GO set, that request, and requests with these sequence numbers outstanding. -/
def mailS (op : Nat) (seqs : List Nat) : State :=
  { State.reset.setFn 0 { reqBuf := reqBytes op [], go := true, outst := seqs.zipIdx.map (·.swap), reqNo := 16 } with
    mcpReady := true, ready := true }

/-- Its request, numbered. -/
def mailR (s : State) : Req := { (reqOf (copiedBuf s 0).1).2 with no := (s.fn 0).reqNo }

theorem test_mailbox_go : (let s := { State.reset with pins := { rails := true }, boot := { cmi := true, stage := 5 } };
      s.fnLive (0 : Fin 9) = true ∧ s.barUp = true ∧ s.boot.stage ≠ 7) ∧
    (let s := mailS 1 []; s.mcpReady = true ∧ s.stopped = false ∧ nextFn s = some 0 ∧ (s.fn 0).outst.length < 16 ∧
      (∀ x ∈ (s.fn 0).outst, x.2 ≠ (mailR s).seq) ∧ headerChecks s 0 (reqOf (copiedBuf s 0).1).1 (mailR s) = none) := by
  decide +kernel
theorem test_mailbox_refuses :
    (let s := mailS 2 []; headerChecks s 0 (reqOf (copiedBuf s 0).1).1 (mailR s) = some (0x12, noField)) ∧
    (let s := mailS 1 [1]; nextFn s = some 0 ∧ (s.fn 0).outst.length < 16 ∧ ¬ ∀ x ∈ (s.fn 0).outst, x.2 ≠ (mailR s).seq) ∧
    (let s := mailS 1 ((List.range 16).map (· + 2)); nextFn s = some 0 ∧ 16 ≤ (s.fn 0).outst.length) := by decide +kernel
theorem test_mailbox_reply : let r : Reply := { seq := 1, opcode := 1, ctx := 0, status := 0, detail := 0, payload := [] }
    let s := State.reset.setFn 0 { replies := [r], outst := [(0, 1)] }
    (s.fn 0).rspValid = false ∧ s.stopped = false ∧ (s.fn 0).replies.find? (replyMayGo (s.fn 0).outst) = some r := by decide +kernel
/-- A refusal waits behind the reply to request 2, which is outstanding, and goes before it where it is not, though another request
has its sequence number. -/
theorem test_mailbox_order : let r (q : Nat) (after : List Nat) : Reply :=
      { seq := 7, opcode := 1, ctx := 0, status := 0, detail := 0, payload := [], req := q, after }
    [r 3 [2], r 2 []].find? (replyMayGo [(2, 7), (3, 7)]) = some (r 2 []) ∧ [r 3 [2]].find? (replyMayGo [(3, 7), (4, 7)]) = some (r 3 [2]) ∧
      [r 3 [2]].find? (replyMayGo [(2, 7), (3, 7)]) = none := by decide +kernel
theorem test_mailbox_event : let m : EvMsg := { code := 1, ctx := 0, part := none, rep := 1, time := 0, data := [] }
    let s := State.reset.setFn 0 { events := [m] }
    (s.fn 0).rspValid = false ∧ s.stopped = false ∧ (s.fn 0).replies.find? (replyMayGo (s.fn 0).outst) = none ∧
      (s.fn 0).events = m :: [] := by decide +kernel

/-! Messages. -/

/-- The state without its requests, the MCP ready. -/
def calm (s : State) : State := { s with taken := [], mcpReady := true, ready := true }

/-- The state in which function 0 asks r. -/
def asking (s : State) (r : Req) : State := { calm s with taken := [(0, r)] }

/-- A request. -/
def req (op ctx : Nat) (payload : List Nat) : Req := { seq := 1, opcode := op, ctx, payload }

theorem asked (s : State) (op c : Nat) (ws : List Nat)
    (h : s.stopped = false ∧ s.power.a4 = false ∧
      (c = 0 ∨ (s.ctx c).st ≠ .free ∧ (s.ctx c).owner = 0 ∧ (op = 0x0103 ∨ (s.ctx c).st = .open))) :
    Asked (asking s (req op c ws)) 0 op (req op c ws) (calm s) :=
  ⟨rfl, rfl, rfl, h.1, Or.inl h.2.1, h.2.2, rfl⟩

/-- Eight partitions in service and nothing else. -/
def served : State := allParts.foldl (fun s p => s.setPart p { inService := true }) State.reset

/-- What freshId gives where nothing is in use. -/
theorem freshId_empty (s : State) (used : Nat → Bool) (lo n : Nat) (hn : 0 < n) (h : ∀ i, used i = false) :
    freshId s used lo n 0 = some (lo + (Config.freeNat s.free + 0) % n, { s with free := s.free + 1 }) := by
  have e : min n (0 + 1) = 1 := by omega
  simp [freshId, State.takeFree, e, List.range_succ, h]

theorem test_identity : Asked (asking served (req 1 0 [])) 0 1 (req 1 0 []) (calm served) := asked _ _ _ _ (by decide +kernel)
theorem test_ctx_create : let r := req 0x0101 0 [0x81]
    let u := calm served
    ∃ n v, Asked (asking served r) 0 0x0101 r u ∧ NoBits r [0xFFFFFF00] ∧ maskParts (wd r.payload 0 % 256) ≠ [] ∧
      (∀ p ∈ maskParts (wd r.payload 0 % 256), u.ownerOf p = 0 ∧ (u.part p).inService = true) ∧ (liveCtxs u).length < 63 ∧
      u.dbgLevel ≠ 2 ∧ freshId u (fun c => (u.ctx c).st != .free) 1 63 u.ctxs.length = some (n, v) :=
  ⟨_, _, asked _ _ _ _ (by decide +kernel), by unfold NoBits; decide +kernel, by decide +kernel, by decide +kernel, by decide +kernel, by decide +kernel,
    freshId_empty _ _ _ _ (by decide) (fun _ => rfl)⟩
/-- The longest drain that is allowed. -/
theorem test_ctx_destroy : Asked (asking (device []) (req 0x0102 1 [1000000])) 0 0x0102 (req 0x0102 1 [1000000]) (calm (device [])) ∧
    wd (req 0x0102 1 [1000000]).payload 0 ≤ 1000000 := ⟨asked _ _ _ _ (by decide +kernel), by decide⟩
theorem test_ctx_query : Asked (asking (device []) (req 0x0103 1 [])) 0 0x0103 (req 0x0103 1 []) (calm (device [])) :=
  asked _ _ _ _ (by decide +kernel)
theorem test_ctx_drain : let s := (device []).setCtx 1 { ctx1 with st := .draining }
    (s.ctx 1).st = .draining ∧ (∀ p ∈ (s.ctx 1).parts, (s.part p).reset = none) ∧ commitsDone s 1 = true ∧ hasTxns s 1 = false ∧
      recordWaits s 1 = false ∧ (s.ctx 1).drainBy ≤ s.hub := by decide +kernel
theorem test_ctx_zero : (((device []).setCtx 1 { ctx1 with st := .zeroing }).ctx 1).st = .zeroing := by decide +kernel

/-- The device with an open context 2 as well. -/
def twoCtx (gs : List Grant) : State := ((device []).setCtx 2 { st := .open, parts := [0] }).setCtx 1 { ctx1 with grants := gs }


theorem test_fence_grant : ∃ ws : List Nat, let r := req 0x0110 1 ws
    let g := grantOf r.payload
    NoBits r [0xFFFFFCC0, 0xE000F000] ∧ 1 ≤ g.count ∧ g.count ≤ 4096 ∧ Asked (asking (twoCtx []) r) 0 0x0110 r (calm (twoCtx [])) ∧
      g.first + g.count ≤ 512 * ((calm (twoCtx [])).ctx r.ctx).parts.length ∧ g.grantee ≠ 0 ∧
      ((calm (twoCtx [])).ctx g.grantee).st = .open ∧ ((calm (twoCtx [])).ctx r.ctx).grants.length < 64 :=
  ⟨[2, 511 + 65536], by unfold NoBits; decide +kernel, by decide +kernel, by decide +kernel, asked _ _ _ _ (by decide +kernel), by decide +kernel, by decide +kernel,
    by decide +kernel, by decide +kernel⟩
theorem test_fence_revoke : ∃ ws : List Nat, let r := req 0x0111 1 ws
    let g := grantOf r.payload
    NoBits r [0xFFFFFCC0, 0xE000F000] ∧ 1 ≤ g.count ∧ g.count ≤ 4096 ∧
      Asked (asking (twoCtx [g]) r) 0 0x0111 r (calm (twoCtx [g])) ∧
      g.first + g.count ≤ 512 * ((calm (twoCtx [g])).ctx r.ctx).parts.length ∧ g ∈ ((calm (twoCtx [g])).ctx r.ctx).grants :=
  ⟨[2, 511 + 65536], by unfold NoBits; decide +kernel, by decide +kernel, by decide +kernel, asked _ _ _ _ (by decide +kernel), by decide +kernel,
    by decide +kernel⟩
/-- The largest page table. -/
theorem test_kv_table_set : let r := req 0x0230 1 [1048576, 0, 4096, 0]
    let u := calm (device [])
    Asked (asking (device []) r) 0 0x0230 r u ∧ PartOk u 0 r (bitsOf (wd r.payload 0) 23 21) ∧
      NoBits r [0xFF000000, 0xFFFFFFFF, 0, 0xFFFF0000] ∧ bitsOf (wd r.payload 0) 20 0 = 1048576 ∧ wd64 r.payload 2 % 4096 = 0 :=
  ⟨asked _ _ _ _ (by decide +kernel), by unfold PartOk; decide +kernel, by unfold NoBits; decide +kernel, by decide +kernel, by decide +kernel⟩

/-! Device memory. -/

/-- The device with allocation 3 of one small page in unit 600, which `done` says is being freed. -/
def allocS (maps : List Mapping) (freeing : Option Nat) : State :=
  (device []).setCtx 1 { ctx1 with maps, allocs := [(3, { part := 0, big := false, pages := [600], freeing })] }

/-- One mapped page at 0. -/
def smallMap : Mapping := { dva := 0, units := [600], big := false, writable := true, part := 0, handle := 3, born := 0 }

theorem test_mem_map : let r := req 0x0203 1 [3, 0, 1, 0, 0, 0]
    let u := calm (allocS [] none)
    let x := u.ctx 1
    ∃ b : Alloc, Asked (asking (allocS [] none) r) 0 0x0203 r u ∧ NoBits r [0, 0x7FE00000, 0xFFE00000, 0xFFFFFFFF, 0, 0xFFFF0000] ∧
      tabFind x.allocs (wd r.payload 0) = some b ∧ beingFreed u b = false ∧ 1 ≤ bitsOf (wd r.payload 2) 20 0 ∧
      wd64 r.payload 4 % 2 ^ 48 + 65536 ≤ 2 ^ 48 ∧ meetsMap x (wd64 r.payload 4 % 2 ^ 48) 65536 = false ∧
      bitsOf (wd r.payload 1) 20 0 + bitsOf (wd r.payload 2) 20 0 ≤ b.pages.length ∧ b.big = false :=
  ⟨{ part := 0, big := false, pages := [600] }, asked _ _ _ _ (by decide +kernel), by unfold NoBits; decide +kernel, by decide +kernel, by decide +kernel,
    by decide +kernel, by decide +kernel, by decide +kernel, by decide +kernel, rfl⟩
theorem test_mem_unmap : let r := req 0x0204 1 [1, 0, 0, 0]
    let u := calm (allocS [smallMap] none)
    let x := u.ctx 1
    let lives := (liveMaps x).filter fun m => m.handle != 0
    Asked (asking (allocS [smallMap] none) r) 0 0x0204 r u ∧ NoBits r [0xFFE00000, 0xFFFFFFFF, 0, 0xFFFF0000] ∧
      wd64 r.payload 2 % 2 ^ 48 % 65536 = 0 ∧ 0 < 65536 * bitsOf (wd r.payload 0) 20 0 ∧
      (∀ i, i < 65536 * bitsOf (wd r.payload 0) 20 0 / 65536 → ∃ m ∈ lives, m.covers x.mapVer (65536 * i) = true) ∧
      ∀ m ∈ lives, m.big = false :=
  ⟨asked _ _ _ _ (by decide +kernel), by unfold NoBits; decide +kernel, by decide +kernel, by decide +kernel, by decide +kernel, by decide +kernel⟩
theorem test_mem_free : let r := req 0x0202 1 [3]
    let u := calm (allocS [] none)
    Asked (asking (allocS [] none) r) 0 0x0202 r u ∧ (tabFind (u.ctx 1).allocs (wd r.payload 0)).isSome = true ∧
      beingFreed u { part := 0, big := false, pages := [600] } = false ∧ ∀ m ∈ liveMaps (u.ctx r.ctx), m.handle ≠ wd r.payload 0 :=
  ⟨asked _ _ _ _ (by decide +kernel), by decide +kernel, by decide +kernel, by decide +kernel⟩
theorem test_mem_free_zero : let s := { allocS [] (some 0) with ops := [(0, { fn := 0, seq := 1, opcode := 0x0202, ctx := 1, payload := [3] })] }
    let a : Alloc := { part := 0, big := false, pages := [600], freeing := some 0 }
    tabFind (s.ctx 1).allocs 3 = some a ∧ a.freeing = some 0 ∧ beingFreed s a = true ∧ stillHeld s 1 3 = false ∧
      (s.part a.part).reset = none := by decide +kernel

theorem pickPages_one (k : Nat) : 1 ≤ (pickPages [] k true 3 1).length := by
  have h : ∀ f, (freeUnits [] f).length = 32 := fun f => by
    rw [freeUnits, List.filter_eq_self.2 (by simp)]
    simp
  have e : (userFrames k).filter (fun f => (3 : Nat) == 3 || f % 3 == 3) = userFrames k := List.filter_eq_self.2 (by simp)
  have e2 : (userFrames k).filter (fun f => (freeUnits [] f).length == 32) = userFrames k := List.filter_eq_self.2 (by simp [h])
  simp only [pickPages, e, e2, if_true, List.length_map, List.length_take]
  simp [userFrames]

/-- One large page of any colour. -/
theorem test_mem_alloc : let r := req 0x0201 1 [0x130, 1]
    let u := calm (device [])
    let pages := pickPages (u.part 0).hbm.used (Config.freeNat u.free) (bitOf (wd r.payload 0) 8) (bitsOf (wd r.payload 0) 5 4) 1
    ∃ h v, Asked (asking (device []) r) 0 0x0201 r u ∧ PartOk u 0 r (bitsOf (wd r.payload 0) 18 16) ∧
      NoBits r [0xFFF8FECF, 0xFFE00000] ∧ bitsOf (wd r.payload 1) 20 0 = 1 ∧ 1 ≤ pages.length ∧
      freshId { u with free := u.free + 1 } (fun h => (tabFind (u.ctx r.ctx).allocs h).isSome) 1 4294967295
        (u.ctx r.ctx).allocs.length = some (h, v) :=
  ⟨_, _, asked _ _ _ _ (by decide +kernel), by unfold PartOk; decide +kernel, by unfold NoBits; decide +kernel, by decide +kernel,
    pickPages_one _, freshId_empty _ _ _ _ (by decide) (fun _ => rfl)⟩

/-! Windows, programs, repairs. -/

/-- The last 2 MiB of BAR2. -/
theorem test_bar2_window : let off := 2 ^ 36 - 2097152
    let r := req 0x0210 1 [2 ^ 31 + 2 ^ 30, 0, off % 2 ^ 32, off / 2 ^ 32, 0, 0, 2097152, 0]
    let u := calm (device [])
    Asked (asking (device []) r) 0 0x0210 r u ∧ NoBits r [0x3FFFFFF0, 0xFFFFFFFF] ∧ bitOf (wd r.payload 0) 30 = true ∧
      (u.fn 0).bar2 = [] ∧ wd64 r.payload 2 % 2097152 = 0 ∧ wd64 r.payload 4 % 2097152 = 0 ∧ wd64 r.payload 6 % 2097152 = 0 ∧
      0 < wd64 r.payload 6 ∧ wd64 r.payload 2 + wd64 r.payload 6 = bar2Bytes (u.fn 0) ∧ wd64 r.payload 4 + wd64 r.payload 6 ≤ 2 ^ 48 :=
  ⟨asked _ _ _ _ (by decide +kernel), by unfold NoBits; decide +kernel, by decide +kernel, by decide +kernel, by decide +kernel,
    by decide +kernel, by decide +kernel, by decide +kernel, by decide +kernel, by decide +kernel⟩
theorem test_bar2_window_out : let r := req 0x0210 1 [0, 0, 0, 0, 0, 0, 0, 0]
    let x : Window := { ctx := 1, dva := 0, units := 1, writable := true, off := 0 }
    let s := (device []).setFn 0 { bar2 := [(0, x)] }
    Asked (asking s r) 0 0x0210 r (calm s) ∧ NoBits r [0x3FFFFFF0, 0xFFFFFFFF] ∧ bitOf (wd r.payload 0) 30 = false ∧
      tabFind ((calm s).fn 0).bar2 (bitsOf (wd r.payload 0) 3 0) = some x ∧ x.ctx = r.ctx :=
  ⟨asked _ _ _ _ (by decide +kernel), by unfold NoBits; decide +kernel, by decide +kernel, by decide +kernel, rfl⟩
/-- Sixty-four steps of ADD. -/
theorem test_svu_prog_load : let s := (device []).setCtx 1 { ctx1 with progs := [] }
    let r := req 0x0220 1 ([64, 0] ++ List.replicate 64 (2 ^ 27))
    let u := calm s
    ∃ h v, Asked (asking s r) 0 0x0220 r u ∧ bitsOf (wd r.payload 0) 6 0 = 64 ∧ NoBits r [0xFFFFFF80, 0xFFFFFFFF] ∧
      (∀ x ∈ (r.payload.drop 2).take 64, svuWordBad x = false) ∧ (∀ p ∈ (u.ctx r.ctx).parts, (u.part p).svuWords + 64 ≤ 2048) ∧
      freshId u (fun h => (tabFind (u.ctx r.ctx).progs h).isSome) 1 65535 (u.ctx r.ctx).progs.length = some (h, v) :=
  ⟨_, _, asked _ _ _ _ (by decide +kernel), by decide +kernel, by unfold NoBits; decide +kernel, by decide +kernel,
    by decide +kernel, freshId_empty _ _ _ _ (by decide) (fun _ => rfl)⟩

/-- Partition 7 in test. -/
def testing : State := served.setPart 7 { inTest := true }

/-- QUERY, SOFT_PPR, HARD_PPR and SPARE_ROW of stack 23. -/
theorem test_hbm_repair : ∀ m ∈ [0, 1, 2, 3], let r := req 0x0A03 0 [m * 2 ^ 28 + 23 * 2 ^ 16, 0]
    let u := calm testing
    Asked (asking testing r) 0 0x0A03 r u ∧ (asking testing r).hbmOp = none ∧ NoBits r [0x07E00EFF, 0xFC0C0000] ∧
      repStack r.payload = 23 ∧ bitsOf (wd r.payload 1) 25 24 ≠ 3 ∧ (u.part (repStack r.payload / 3)).inTest = true ∧
      repMethod r.payload = m ∧ bitOf (wd r.payload 0) 27 = false := by
  intro m h
  simp only [List.mem_cons, List.not_mem_nil, or_false] at h
  rcases h with rfl | rfl | rfl | rfl <;>
    exact ⟨asked _ _ _ _ (by decide +kernel), by decide +kernel, by unfold NoBits; decide +kernel, by decide +kernel,
      by decide +kernel, by decide +kernel, by decide +kernel, by decide +kernel⟩
theorem test_hbm_repair_done : let s := { testing with hbmOp := some ⟨0, 2, [2 * 2 ^ 28 + 23 * 2 ^ 16, 0]⟩ }
    s.hbmOp = some ⟨0, 2, [2 * 2 ^ 28 + 23 * 2 ^ 16, 0]⟩ := rfl

/-! Graphs. -/

theorem pair_eq {α β : Type} {a : α × β} {x : α} (h : a.1 = x) : a = (x, a.2) := Prod.ext h rfl

/-- A root segment of one EVENT inline, and a subgraph of one from device memory. -/
theorem test_graph_post : (let r := req 0x0301 1 ([2 ^ 30 + 1, 0, 0, 0] ++ nodeWords 9 []);
      let u := calm (device []);
      ∃ ns v, PartOk u 0 r 0 ∧ Asked (asking (device []) r) 0 0x0301 r u ∧ NoBits r [0x1FF8E000, 0xFFFFFFFF] ∧
        bitsOf (wd r.payload 0) 12 0 = 1 ∧ bitOf (wd r.payload 0) 30 = true ∧ bitOf (wd r.payload 0) 29 = false ∧
        wd64 r.payload 2 = 0 ∧ postNodes u r 0 1 .error = (some ns, v) ∧ segFault (v.cp r.ctx 0).segs ns = none ∧
        storedNodes v 0 + 1 ≤ 16384 ∧ bitOf (wd r.payload 0) 31 = false ∧ worstTotal v 0 + worstOf (v.cp r.ctx 0).segs 9 ns ≤ 4096) ∧
    (let s := device [(0x1000, nodeWords 9 [])];
      let r := req 0x0301 1 [2 ^ 31 + 1, 0, 0x1000, 0];
      let u := calm s;
      ∃ ns v, PartOk u 0 r 0 ∧ Asked (asking s r) 0 0x0301 r u ∧ bitOf (wd r.payload 0) 30 = false ∧
        wd64 r.payload 2 % 64 = 0 ∧ postNodes u r 0 1 .error = (some ns, v) ∧ segFault (v.cp r.ctx 0).segs ns = none ∧
        bitOf (wd r.payload 0) 31 = true) :=
  ⟨⟨_, _, by unfold PartOk; decide +kernel, asked _ _ _ _ (by decide +kernel), by unfold NoBits; decide +kernel,
      by decide +kernel, by decide +kernel, by decide +kernel, by decide +kernel, rfl, by decide +kernel, by decide +kernel,
      by decide +kernel, by decide +kernel⟩,
    ⟨[nodeWords 9 []], _, by unfold PartOk; decide +kernel, asked _ _ _ _ (by decide +kernel), by decide +kernel,
      by decide +kernel, pair_eq (by decide +kernel), by decide +kernel, by decide +kernel⟩⟩
theorem test_subgraph_release : let s := withSub (device [])
    let r := req 0x0302 1 [3]
    let u := calm s
    let g : Seg := { root := false, nodes := [nodeWords 9 []] }
    PartOk u 0 r 0 ∧ Asked (asking s r) 0 0x0302 r u ∧ NoBits r [0xFFF80000] ∧
      tabFind (u.cp r.ctx 0).segs (bitsOf (wd r.payload 0) 15 0) = some g ∧ g.root = false ∧
      (∀ e ∈ (u.cp r.ctx 0).segs, ∀ ws ∈ e.2.nodes, subOf ws ≠ some 3) ∧
      ∀ e ∈ (u.part 0).insts, e.2.ctx = r.ctx → e.2.seg = 3 → e.2.parent = none :=
  ⟨by unfold PartOk; decide +kernel, asked _ _ _ _ (by decide +kernel), by unfold NoBits; decide +kernel, by decide +kernel,
    by decide +kernel, by decide +kernel, by decide +kernel⟩
/-- With no node, with one short of its commit point, and with one past it; scope 2 names every node. -/
theorem test_graph_abort : ∀ st ∈ [none, some NodeSt.waiting, some NodeSt.committing],
    let s := (device []).setPart 0 { part0 [] with insts := match st with | some x => [(0, { waitNode with st := x })] | none => [] }
    let r := req 0x0303 1 [2 * 2 ^ 30, 0, 0]
    let u := calm s
    let named := abortNames u r 0
    PartOk u 0 r 0 ∧ Asked (asking s r) 0 0x0303 r u ∧ NoBits r [0x3FF8FFFF, 0x0000F000] ∧ bitsOf (wd r.payload 0) 31 30 ≠ 3 ∧
      ((named.filter (·.2.st.short)).map (·.1) = if st = some .waiting then [0] else []) ∧
      ((named.filter fun e => !e.2.st.short).map (·.1) = if st = some .committing then [0] else []) := by
  intro st h
  simp only [List.mem_cons, List.not_mem_nil, or_false] at h
  rcases h with rfl | rfl | rfl <;>
    exact ⟨by unfold PartOk; decide +kernel, asked _ _ _ _ (by decide +kernel), by unfold NoBits; decide +kernel,
      by decide +kernel, by decide +kernel, by decide +kernel⟩
/-- The smallest and the largest ring. -/
theorem test_cpl_ring_set : ∀ k ∈ [6, 16], let r := req 0x0304 1 [k, 0, 4096, 0, 4, 0]
    let u := calm (device [])
    PartOk u 0 r 0 ∧ Asked (asking (device []) r) 0 0x0304 r u ∧ NoBits r [0xFFF8FFE0, 0xFFFFFFFF] ∧
      bitsOf (wd r.payload 0) 4 0 = k ∧ wd64 r.payload 2 % 4096 = 0 ∧ wd64 r.payload 4 % 4 = 0 := by
  intro k h
  simp only [List.mem_cons, List.not_mem_nil, or_false] at h
  rcases h with rfl | rfl <;>
    exact ⟨by unfold PartOk; decide +kernel, asked _ _ _ _ (by decide +kernel), by unfold NoBits; decide +kernel,
      by decide +kernel, by decide +kernel, by decide +kernel⟩
theorem test_graph_query : let r := req 0x0305 1 [0]
    PartOk (calm (device [])) 0 r 0 ∧ Asked (asking (device []) r) 0 0x0305 r (calm (device [])) ∧ NoBits r [0xFFF8FFFF] :=
  ⟨by unfold PartOk; decide +kernel, asked _ _ _ _ (by decide +kernel), by unfold NoBits; decide +kernel⟩


/-! Weights. -/

theorem leNat_lt (bs : List Byte) : leNat bs < 256 ^ bs.length := by
  induction bs with
  | nil => simp [leNat]
  | cons b bs ih =>
    have := b.isLt
    simp only [leNat, List.length_cons, Nat.pow_succ]
    omega

theorem natLe_length (n v : Nat) : (natLe n v).length = n := by
  induction n generalizing v with
  | zero => rfl
  | succ n ih => simp [natLe, ih]

theorem leNat_natLe (n v : Nat) (h : v < 256 ^ n) : leNat (natLe n v) = v := by
  induction n generalizing v with
  | zero => simp at h; simp [natLe, leNat, h]
  | succ n ih =>
    have h2 : v / 256 < 256 ^ n := by rw [Nat.pow_succ] at h; omega
    simp [natLe, leNat, ih _ h2]
    omega

/-- Words written as bytes read back. -/
theorem bytesWords_wordsBytes (ws : List Nat) (rest : List Byte) (h : ∀ x ∈ ws, x < 2 ^ 32) :
    bytesWords ws.length (wordsBytes ws ++ rest) = ws := by
  induction ws with
  | nil => rfl
  | cons x ws ih =>
    have e : wordsBytes (x :: ws) ++ rest = natLe 4 x ++ (wordsBytes ws ++ rest) := by simp [wordsBytes]
    have l := natLe_length 4 x
    have a : (natLe 4 x ++ (wordsBytes ws ++ rest)).take 4 = natLe 4 x := List.take_left' l
    have b : (natLe 4 x ++ (wordsBytes ws ++ rest)).drop 4 = wordsBytes ws ++ rest := List.drop_left' l
    simp only [List.length_cons, bytesWords, e, a, b]
    rw [leNat_natLe 4 x (by have := h x (by simp); omega), ih fun y hy => h y (by simp [hy])]

/-- The check value of the empty key. -/
def kc : Nat := leNat ((Config.sha256 ([] ++ [4])).take 8)

theorem kc_lt : kc < 2 ^ 64 := by
  have h := leNat_lt ((Config.sha256 ([] ++ [4])).take 8)
  have l : ((Config.sha256 ([] ++ [4])).take 8).length ≤ 8 := List.length_take_le ..
  have m : 256 ^ ((Config.sha256 ([] ++ [4])).take 8).length ≤ 256 ^ 8 := Nat.pow_le_pow_right (by decide) l
  have e : (256 : Nat) ^ 8 = 2 ^ 64 := by decide
  exact e ▸ Nat.lt_of_lt_of_le h m

/-- The header of an unsigned image of one chunk and one region. -/
def imgHdr : List Nat :=
  [0x4C574731, 2 ^ 24 + 1, 0, 0, 1048576, 0, 0, 0, kc % 2 ^ 32, kc / 2 ^ 32, 48, 0, 0, 0, 0, 0]

/-- Its region: resident on partition 0 at 0. -/
def imgRegion : List Nat := [0, 0, 0, 0, 1048576, 0, 0, 0, 0, 0, 0, 0]

/-- The image. -/
def img : NvImage := { header := imgHdr, regions := [imgRegion], hashes := [] }

theorem img_key : keyMismatch img [] = false := by
  have e : ∀ k, k % 2 ^ 32 + 2 ^ 32 * (k / 2 ^ 32) = k := fun k => Nat.mod_add_div k _
  have h : wd64 img.header 8 = kc := e kc
  unfold keyMismatch
  rw [h]
  simp [kc]

theorem img_checks (w : List Nat) (h : ((wordsBytes ((w.drop 10).take 8)).any (· != 0)) = false) :
    firstBad (imageChecks img (some []) w) = none := by
  have a : imageBad img = false := by decide +kernel
  have b : hdrSigned img.header = false := by decide +kernel
  unfold imageChecks
  refine firstBad_cons a (firstBad_cons img_key (firstBad_cons ?_ (firstBad_cons ?_ firstBad_nil)))
  · simpa [b] using h
  · simp [b]

/-- Context 1 with a key under handle 0; the weight store holds the image under handle 5. -/
def weightS : State :=
  { (device []).setCtx 1 { ctx1 with keys := [(0, [])] } with nvws := { images := [(5, img)], mounted := true } }

/-- A LOAD of generation 1 of binding 0 from the weight store. -/
def loadWords : List Nat := [1, 1, 5, 0, 0, 0, 0x4000000, 0, 2097152, 0, 0, 0, 0, 0, 0, 0, 0, 0]

/-- An INSTALL from host memory. -/
def installWords : List Nat := (2 ^ 31 + 2 ^ 29) :: List.replicate 17 0

theorem test_weight_key_import : let r := req 0x0501 1 (List.replicate 402 0)
    Asked (asking weightS r) 0 0x0501 r (calm weightS) ∧ NoBits r [0xFFFFFFF0, 0xFFFFFFFF] :=
  ⟨asked _ _ _ _ (by decide +kernel), by unfold NoBits; decide +kernel⟩

theorem freeFrames_none (s : State) (p : Nat) (h : (s.part p).hbm.used = []) : freeFrames s p = 33820 := by
  have e : ∀ f, (freeUnits [] f).length = 32 := fun f => by
    rw [freeUnits, List.filter_eq_self.2 (by simp)]
    simp
  rw [freeFrames, h, List.filter_eq_self.2 (by simp [e]), List.length_range]

/-- Of an image that lies at no Ethernet peer nothing is asked. -/
theorem askHead_other {s : State} {c : Nat} {w : List Nat} {l : List (Bool × Nat × Nat)} {d : HostRd} (h : wSource w ≠ 2) :
    askHead s c w l d = s := by simp [askHead, h]

/-- From the weight store, with three loads running. -/
theorem test_weight_load : let r := req 0x0502 1 loadWords
    let u := { calm weightS with loads := List.replicate 3 (0, { op := 1, ctx := 2, words := [], key := [], image := img, todo := [] }) }
    Asked { asking weightS r with loads := u.loads } 0 0x0502 r u ∧
      (∀ l, askHead u r.ctx r.payload l .error = u) ∧ namedImage u r.payload .error = some img ∧
      firstBad (wParts u 0 r.ctx r.payload ++ wFields u r.ctx r.payload ++
        imageChecks img (tabFind (u.ctx r.ctx).keys (bitsOf (wd r.payload 0) 15 12)) r.payload) = none ∧
      bitOf (wd r.payload 0) 31 = false ∧ firstBad (loadChecks u r.ctx img r.payload) = none ∧
      (∀ p ∈ (u.ctx r.ctx).parts, framesFor img p ≤ freeFrames u p) ∧
      (∀ B, tabFind (u.ctx r.ctx).bindings (wBinding r.payload) = some B → ∀ e ∈ B.gens, e.2.st ≠ .loading) ∧ loadsRun u < 4 := by
  intro r u
  have ky : tabFind (u.ctx r.ctx).keys (bitsOf (wd r.payload 0) 15 12) = some [] := by decide +kernel
  refine ⟨⟨rfl, rfl, rfl, by decide +kernel, Or.inl (by decide +kernel), Or.inr (by decide +kernel), rfl⟩,
    fun l => askHead_other (by decide +kernel), ?_, firstBad_append (by decide +kernel) (ky ▸ img_checks loadWords (by decide +kernel)), by decide +kernel, by decide +kernel, ?_, ?_,
    by decide +kernel⟩
  · have a : wSource loadWords = 0 := by decide +kernel
    have d : wd loadWords 2 % 65536 = 5 := by decide +kernel
    have c : tabFind u.nvws.images 5 = some img := rfl
    simp only [namedImage, r, req, a, d, c, if_true]
  · intro p hp
    have e : p = 0 := by
      have : (u.ctx r.ctx).parts = [0] := by decide +kernel
      simpa [this] using hp
    rw [e, freeFrames_none _ _ (by decide +kernel)]
    decide +kernel
  · intro B h
    have e : tabFind (u.ctx r.ctx).bindings (wBinding r.payload) = none := by decide +kernel
    simp [e] at h

/-- What the source returned for the INSTALL. -/
def imgBytes : List Byte := wordsBytes (imgHdr ++ imgRegion)

theorem img_parse : parseImage imgBytes = img := by
  have hk := kc_lt
  have a : bytesWords 16 imgBytes = imgHdr := by
    have e : imgBytes = wordsBytes imgHdr ++ wordsBytes imgRegion := by simp [imgBytes, wordsBytes]
    rw [e]
    refine bytesWords_wordsBytes imgHdr _ fun x hx => ?_
    simp only [imgHdr, List.mem_cons, List.not_mem_nil, or_false] at hx
    rcases hx with rfl | rfl | rfl | rfl | rfl | rfl | rfl | rfl | rfl | rfl | rfl | rfl | rfl | rfl | rfl | rfl <;> omega
  have d : imgBytes.drop (64 + 48 * 0) = wordsBytes imgRegion := by rfl
  have b : bytesWords 12 (wordsBytes imgRegion) = imgRegion := by decide +kernel
  have n : hdrRegions imgHdr = 1 := by decide +kernel
  have sg : hdrSigned imgHdr = false := by decide +kernel
  simp only [parseImage, a, n, sg]
  simp [d, b, img, List.range_succ]

theorem pickStack_empty (v : Nvws) (n k : Nat) (h : v.used = []) (hn : n ≤ 1900000) : pickStack v n k = some (k % 4) := by
  have e : ∀ s0 j, tabGet 0 v.used j + stackChunks n s0 j ≤ 1900000 := fun s0 j => by
    have : stackChunks n s0 j ≤ n := by
      have := List.length_filter_le (fun c => (c + s0) % 4 == j) (List.range n)
      simpa [stackChunks] using this
    have z : tabGet 0 v.used j = 0 := by rw [h]; rfl
    omega
  simp [pickStack, e]

/-- From host memory into the empty weight store. -/
theorem test_install : let s := { weightS with nvws := {} }
    let r := req 0x0502 1 installWords
    let u := calm s
    let inst := u.loads.filter fun e => bitOf (wd e.2.words 0) 31
    ∃ s0 h v, Asked (asking s r) 0 0x0502 r u ∧ (∀ l, askHead u r.ctx r.payload l (.data imgBytes) = u) ∧
      namedImage u r.payload (.data imgBytes) = some img ∧
      firstBad (wParts u 0 r.ctx r.payload ++ wFields u r.ctx r.payload ++
        imageChecks img (tabFind (u.ctx r.ctx).keys (bitsOf (wd r.payload 0) 15 12)) r.payload) = none ∧
      bitOf (wd r.payload 0) 31 = true ∧ (wSource r.payload = 1 ∨ wSource r.payload = 2) ∧ wd r.payload 1 = 0 ∧
      u.nvws.images.length + inst.length < 256 ∧ pickStack u.nvws (hdrChunks img.header) (Config.freeNat u.free) = some s0 ∧
      loadsRun u < 4 ∧ freshId { u with free := u.free + 1 }
        (fun h => (tabFind u.nvws.images h).isSome || inst.any fun e => e.2.handle == h) 1 65535
        (u.nvws.images.length + inst.length) = some (h, v) := by
  have ky : tabFind ((calm { weightS with nvws := {} }).ctx 1).keys (bitsOf (wd installWords 0) 15 12) = some [] := by decide +kernel
  refine ⟨_, _, _, asked _ _ _ _ (by decide +kernel), fun l => askHead_other (by decide +kernel), ?_,
    firstBad_append (by decide +kernel) (ky ▸ img_checks installWords (by decide +kernel)),
    by decide +kernel, by decide +kernel, by decide +kernel, by decide +kernel, pickStack_empty _ _ _ rfl (by decide +kernel),
    by decide +kernel, freshId_empty _ _ _ _ (by decide) fun _ => rfl⟩
  have a : wSource installWords = 1 := by decide +kernel
  have l : imgBytes.length = 112 := by decide +kernel
  have z : wd (bytesWords 16 imgBytes) 10 = 48 := by
    have := congrArg (fun m => wd m.header 10) img_parse
    exact this
  simp [namedImage, req, a, l, z, img_parse]

/-- A load (or, with bit 31, an install) under number 1 that waits for chunk 0 and has tried it k times. -/
def loadOf (bit31 : Bool) (todo : List Nat) (k : Nat) : Load :=
  { op := 1, ctx := 1, words := if bit31 then 2 ^ 31 :: loadWords.drop 1 else loadWords, key := [], image := img, todo, tries := [(0, k)] }

/-- The state in which it runs, no regulator dry. -/
def loading (l : Load) (hub : Nat) : State :=
  { weightS with loads := [(1, l)], hub
                 parts := allParts.map fun p => (p, { part0 [] with inService := (weightS.part p).inService }) }

/-- A good chunk for a load and for an install, two bad ones and a third, and a request 2,000 ms old. -/
theorem test_weight_shards : (∀ b, let l := loadOf b [0] 0
      tabFind (loading l 0).loads 1 = some l ∧ 0 ∈ l.todo ∧ bitOf (wd l.words 0) 31 = b ∧
        (∃ plain, shardPlain (chargeLoad (shardAnswered (loading l 0) l) l 0) l 0 (some []) = some plain) ∧ ∀ t, Unheld (loading l 0) t) ∧
    (∀ k ≤ 2, let l := loadOf false [0] k;
      tabFind (loading l 0).loads 1 = some l ∧ 0 ∈ l.todo ∧ shardPlain (chargeLoad (shardAnswered (loading l 0) l) l 0) l 0 none = none ∧
        tabGet 0 l.tries 0 = k ∧ ∀ t, Unheld (loading l 0) t) ∧
    (let l := loadOf false [0] 0;
      tabFind (loading l 50000000).loads 1 = some l ∧ 0 ∈ l.todo ∧
        tabGet l.reqAt l.reReq 0 + wTimeout l.words = (loading l 50000000).hub) := by
  refine ⟨fun b => ⟨rfl, by decide +kernel +revert, by decide +kernel +revert, ?_,
      fun t => unheld_wet t (by decide +kernel +revert)⟩, fun k _ => ⟨rfl, by simp [loadOf], rfl, rfl, fun t => unheld_wet t (by decide +kernel +revert)⟩,
    ⟨rfl, by simp [loadOf], by decide +kernel⟩⟩
  have a : wSource (loadOf b [0] 0).words = 0 := by decide +kernel +revert
  have d : wd (loadOf b [0] 0).words 2 % 65536 = 5 := by decide +kernel +revert
  have c : tabFind (chargeLoad (shardAnswered (loading (loadOf b [0] 0) 0) (loadOf b [0] 0)) (loadOf b [0] 0) 0).nvws.images 5 =
      some img := by cases b <;> rfl
  have e : chunkOk (loadOf b [0] 0).image.header (loadOf b [0] 0).image.hashes 0 = fun _ => true := by
    funext x
    have : hdrSigned img.header = false := by decide +kernel
    simp [chunkOk, loadOf, this]
  exact ⟨openChunk (loadOf b [0] 0).key 0 (tabGet [] img.chunks 0), by simp only [shardPlain, a, d, c, e, if_true]⟩
/-- A load and an install with nothing to come. -/
theorem test_weight_load_complete : ∀ b, let l := loadOf b [] 0
    tabFind (loading l 0).loads 1 = some l ∧ l.todo = [] ∧ bitOf (wd l.words 0) 31 = b :=
  fun b => ⟨rfl, rfl, by decide +kernel +revert⟩

/-- The operation of a codebook load of slot 7, due at its deadline. -/
def cbOp : LongOp := { fn := 0, seq := 1, opcode := 0x0510, ctx := 1, payload := [0xFFFF0307], deadline := some 9, todo := [0] }

/-- Drop of a generation that is loading, and of one that is loaded. -/
theorem test_weight_drop : ∀ ld : Bool, let r := req 0x0503 1 [0, 1]
    let gen := if ld then { loadedGen with st := .loading } else loadedGen
    let s := { withGen weightS gen with loads := if ld then [(1, loadOf false [0] 0)] else [] }
    let u := calm s
    Asked (asking s r) 0 0x0503 r u ∧ bitOf (wd r.payload 0) 31 = false ∧ NoBits r [0x7FF0FFFF] ∧
      genOf u r.ctx (bitsOf (wd r.payload 0) 19 16) (wd r.payload 1) = some gen ∧ gen.st ≠ .dropping ∧
      (if ld then loadFor u r.ctx 0 1 = some (1, loadOf false [0] 0) else loadFor u r.ctx 0 1 = none) := by
  intro ld
  refine ⟨asked _ _ _ _ (by cases ld <;> decide +kernel), by decide +kernel, by unfold NoBits; decide +kernel, ?_, ?_, ?_⟩ <;>
    cases ld <;> first | decide +kernel | rfl
theorem test_weight_drop_complete : let gen := { loadedGen with st := .dropping }
    genOf (withGen weightS gen) (1 : Fin 64) (0 : Fin 16) 1 = some gen ∧ gen.st = .dropping ∧ gen.bound = [] ∧
      genHeld (withGen weightS gen) (1 : Fin 64) (0 : Fin 16) 1 gen.units = false ∧
      (([(4, { cbOp with opcode := 0x0503, payload := [0, 1] })] : Tab LongOp).find? fun e => e.2.opcode == 0x0503 &&
        e.2.ctx == (1 : Fin 64).val && !bitOf (wd e.2.payload 0) 31 && bitsOf (wd e.2.payload 0) 19 16 == (0 : Fin 16).val &&
        wd e.2.payload 1 == 1) = some (4, { cbOp with opcode := 0x0503, payload := [0, 1] }) := by decide +kernel
theorem test_nvws_erase : let r := req 0x0503 0 [2 ^ 31, 5]
    let u := calm weightS
    Asked (asking weightS r) 0 0x0503 r u ∧ bitOf (wd r.payload 0) 31 = true ∧ NoBits r [0x7FF0FFFF] ∧
      tabFind u.nvws.images (wd r.payload 1) = some img ∧ imageBusy u (wd r.payload 1) = false :=
  ⟨asked _ _ _ _ (by decide +kernel), by decide +kernel, by unfold NoBits; decide +kernel, rfl, by decide +kernel⟩
theorem test_weight_query : let r := req 0x0504 1 []
    Asked (asking weightS r) 0 0x0504 r (calm weightS) := asked _ _ _ _ (by decide +kernel)

/-- A repair of the last byte of the region, and of a byte beyond every region. -/
def repairOf (off : Nat) : Repair := { ctx := 1, binding := 0, gen := 1, part := 0, off, len := 1 }

/-- The generation of the image, with its frame. -/
def imgGen : WGen := { loadedGen with header := imgHdr, regions := [imgRegion], srcKind := 1, units := [(0, List.range 32)] }

/-- No answer for a byte of the region, and a byte that no region holds. -/
theorem test_weight_repair : ∀ off ∈ [1048575, 1048576], let x := repairOf off
    let s := { withGen weightS imgGen with repairs := [x] }
    (s.repairs.find? fun r => r.ctx == (1 : Fin 64).val && r.binding == (0 : Fin 16).val && r.gen == 1) = some x ∧
      genOf s (1 : Fin 64) (0 : Fin 16) 1 = some imgGen ∧
      repairBytes imgGen x.part x.off (x.off / 64 * 64) ((x.off + x.len + 63) / 64 * 64) (fun _ => none) =
        if off = 1048575 then none else some (List.replicate 64 0) := by
  intro off h
  simp only [List.mem_cons, List.not_mem_nil, or_false] at h
  rcases h with rfl | rfl <;> exact ⟨rfl, rfl, by decide +kernel⟩

/-! Codebooks. -/

/-- Sixteen codebook entries from −2 to 2: the first spans 1, the last 1/16. -/
def cbWords : List Nat :=
  [0xC0000000, 0x3F800000] ++ (List.range 14).flatMap (fun j => [0x3F880000 + 2 ^ 19 * j, 0]) ++ [0x3FF80000, 0x3D800000] ++
    List.replicate 32 0

/-- The device with codebook slot 7 of both kinds in state st. -/
def cbS (q : CbSlot) : State := (device []).setCp 1 0 { cbW := [(7, q)], cbA := [(7, q)] }

/-- Generation 0xFFFF into slot 7 of both kinds, with NO_WAIT, where the slots hold generation 1 without references. -/
theorem test_codebook_load : let s := cbS { st := .valid, gen := 1 }
    let r := req 0x0510 1 ([0xFFFF0387, 0, 0, 0] ++ cbWords)
    let u := calm s
    let ts := allTargets u r.ctx (wd r.payload 0)
    Asked (asking s r) 0 0x0510 r u ∧ NoBits r [0x0000FC38, 0, 0xFFFFFFFF, 0xFFFFFFFF] ∧ cbBad (cbEntries r.payload) = false ∧
      bitsOf (wd r.payload 0) 9 8 ≠ 0 ∧ wd r.payload 0 / 65536 ≠ 0 ∧
      (∀ q ∈ ts, q.gen ≠ wd r.payload 0 / 65536 ∧ cbBusy q = false) ∧ bitOf (wd r.payload 0) 7 = true ∧ (∀ q ∈ ts, q.refs = 0) ∧
      ts.length = 2 :=
  ⟨asked _ _ _ _ (by decide +kernel), by unfold NoBits; decide +kernel, by decide +kernel, by decide +kernel, by decide +kernel,
    by decide +kernel, by decide +kernel, by decide +kernel, by decide +kernel⟩
theorem test_codebook_release : let s := cbS { st := .valid, gen := 1, refs := 2 }
    let r := req 0x0511 1 [0x307]
    let u := calm s
    Asked (asking s r) 0 0x0511 r u ∧ NoBits r [0xFFFFFCF8] ∧ bitsOf (wd r.payload 0) 9 8 ≠ 0 ∧
      ∀ q ∈ allTargets u r.ctx (wd r.payload 0), cbBusy q = false :=
  ⟨asked _ _ _ _ (by decide +kernel), by unfold NoBits; decide +kernel, by decide +kernel, by decide +kernel⟩

/-- The last slot of the load, and one of two. -/
theorem test_codebook_written : ∀ two : Bool, let o : CbSlot := { st := .writing, next := some (true, 3, [(0, 0)], 4) }
    let s := { (device []).setCp 1 0 { cbW := [(7, o)], cbA := if two then [(7, o)] else [] } with ops := [(4, cbOp)] }
    let x := s.cp (1 : Fin 64) (0 : Fin 8)
    tabGet {} x.cbW (7 : Fin 8) = o ∧ tabFind s.ops 4 = some cbOp ∧
      cbOp.todo.any (fun p => cbLeft (s.setCp (1 : Fin 64) (0 : Fin 8)
        { x with cbW := tabSet x.cbW (7 : Fin 8) { st := .valid, size32 := true, gen := 3, entries := [(0, 0)] } }) (1 : Fin 64) p 4) = two := by
  decide +kernel
theorem test_codebook_limit : let s := { device [] with ops := [(4, cbOp)], hub := 9 }
    (s.ops.find? fun e => e.2.opcode == 0x0510 && e.2.ctx == (1 : Fin 64).val && wd e.2.payload 0 % 8 == (7 : Fin 8).val &&
      e.2.deadline.any (· ≤ s.hub)) = some (4, cbOp) := by decide +kernel
theorem test_codebook_query : let r := req 0x0512 1 []
    Asked (asking (device []) r) 0 0x0512 r (calm (device [])) := asked _ _ _ _ (by decide +kernel)

/-! Micro-programs. -/

/-- Sixteen steps of OP 1 into slot 15, and 248 segments from segment 8 on. -/
theorem test_sfu_writes : (let r := req 0x0520 1 ([16 * 256 + 15, 256, 0, 0x3F800000] ++ List.replicate 8 0 ++ List.replicate 16 (2 ^ 27));
      let u := calm (device []);
      standbyHeld u r.ctx = false ∧ preparing u r.ctx = false ∧ Asked (asking (device []) r) 0 0x0520 r u ∧
        NoBits r [0xFF0EE0E0, 0xFFFF0000] ∧ bitsOf (wd r.payload 0) 12 8 = 16 ∧
        (∀ x ∈ (r.payload.drop 12).take 16, mpStepBad x = false) ∧ mpLookupBad r.payload = false) ∧
    (let r := req 0x0521 1 ([248 * 65536 + 8 * 256 + 15, 0, 0, 0] ++ List.replicate 992 0x3F800000);
      let u := calm (device []);
      standbyHeld u r.ctx = false ∧ preparing u r.ctx = false ∧ Asked (asking (device []) r) 0 0x0521 r u ∧
        NoBits r [0xFF0000F0, 0xFFFFFFFF, 0xFFFFFFFF, 0xFFFFFFFF] ∧ bitsOf (wd r.payload 0) 23 16 = 248 ∧
        bitsOf (wd r.payload 0) 15 8 + 248 = 256 ∧ ∀ x ∈ (r.payload.drop 4).take (4 * 248), (ofF32 x).isFin = true) :=
  ⟨⟨by decide +kernel, by decide +kernel, asked _ _ _ _ (by decide +kernel), by unfold NoBits; decide +kernel, by decide +kernel,
      by decide +kernel, by decide +kernel⟩,
    ⟨by decide +kernel, by decide +kernel, asked _ _ _ _ (by decide +kernel), by unfold NoBits; decide +kernel, by decide +kernel,
      by decide +kernel, by decide +kernel⟩⟩
theorem test_sfu_bank_prepare : let r := req 0x0522 1 [0x80, 5]
    let u := calm (device [])
    Asked (asking (device []) r) 0 0x0522 r u ∧ NoBits r [0xFFFFFF7F] ∧ preparing u r.ctx = false ∧
      bitOf (wd r.payload 0) 7 = true ∧ standbyHeld u r.ctx = false :=
  ⟨asked _ _ _ _ (by decide +kernel), by unfold NoBits; decide +kernel, by decide +kernel, by decide +kernel, by decide +kernel⟩

/-- The operation of a preparation, due at its deadline. -/
def prepOp : LongOp := { cbOp with opcode := 0x0522 }

theorem test_sfu_bank_copied : let s := { (device []).setCp 1 0 { prep := some 4, copying := true } with ops := [(4, prepOp)], hub := 9 }
    ((s.cp (1 : Fin 64) (0 : Fin 8)).prep = some 4 ∧ (s.cp (1 : Fin 64) (0 : Fin 8)).copying = true ∧ tabFind s.ops 4 = some prepOp ∧
      setDel prepOp.todo 0 = []) ∧
    (s.ops.find? fun e => e.2.opcode == 0x0522 && e.2.ctx == (1 : Fin 64).val && e.2.deadline.any (· ≤ s.hub)) = some (4, prepOp) := by
  decide +kernel
theorem test_sfu_bank_switch : (let r := req 0x0523 1 [];
      Asked (asking (device []) r) 0 0x0523 r (calm (device [])) ∧ preparing (calm (device [])) r.ctx = false) ∧
    (let r := req 0x0524 1 [];
      Asked (asking (device []) r) 0 0x0524 r (calm (device []))) :=
  ⟨⟨asked _ _ _ _ (by decide +kernel), by decide +kernel⟩, asked _ _ _ _ (by decide +kernel)⟩

/-! Power, schedule and job messages. -/

theorem test_power_messages : (let r := req 0x0601 0 [2 ^ 31 + 5];
      let s := { (State.reset.setFn 0 { latUs := 9 }) with power := { State.reset.power with a4 := true } };
      let u := { calm s with power := s.power };
      Asked { asking s r with power := s.power } 0 0x0601 r u ∧ NoBits r [0x7F000000] ∧ bitOf (wd r.payload 0) 31 = true ∧
        u.power.a4 = true ∧ bitsOf (wd r.payload 0) 23 0 < (u.fn 0).latUs) ∧
    (∀ c ∈ [0, 40, 160], let r := req 0x0602 0 [c];
      Asked (asking State.reset r) 0 0x0602 r (calm State.reset) ∧ NoBits r [0xFFFFFF00] ∧ bitsOf (wd r.payload 0) 7 0 = c) ∧
    (let r := req 0x0603 0 [70];
      Asked (asking State.reset r) 0 0x0603 r (calm State.reset) ∧ NoBits r [0xFFFFFF80] ∧ bitsOf (wd r.payload 0) 6 0 = 70) ∧
    (let r := req 0x0604 0 [];
      Asked (asking State.reset r) 0 0x0604 r (calm State.reset)) := by
  refine ⟨⟨⟨rfl, rfl, rfl, by decide +kernel, Or.inr (by decide +kernel), Or.inl rfl, rfl⟩, by unfold NoBits; decide +kernel,
      by decide +kernel, by decide +kernel, by decide +kernel⟩, ?_,
    ⟨asked _ _ _ _ (by decide +kernel), by unfold NoBits; decide +kernel, by decide +kernel⟩, asked _ _ _ _ (by decide +kernel)⟩
  intro c h
  simp only [List.mem_cons, List.not_mem_nil, or_false] at h
  rcases h with rfl | rfl | rfl <;>
    exact ⟨asked _ _ _ _ (by decide +kernel), by unfold NoBits; decide +kernel, by decide +kernel⟩
/-- A frame of exactly one second on partition 0: all its slots but one are of 1 µs. -/
theorem test_sched_table : let r := req 0x0701 0 ([256 + 0, 0] ++ (2 ^ 30 + 999745) :: List.replicate 255 (2 ^ 30 + 1))
    let u := calm served
    let ws := (r.payload.drop 2).take (bitsOf (wd r.payload 0) 8 0)
    Asked (asking served r) 0 0x0701 r u ∧ NoBits r [0xFFF8FE00, 0xFFFFFFFF] ∧ bitsOf (wd r.payload 0) 8 0 = 256 ∧
      (∀ x ∈ ws, slotBad u 0 x = false) ∧ frameUs (ws.map slotOf) = 1000000 :=
  ⟨asked _ _ _ _ (by decide +kernel), by unfold NoBits; decide +kernel, by decide +kernel, by decide +kernel, by decide +kernel⟩
/-- All eleven regulators, each at its full rate and burst; one alone. -/
theorem test_regulator_set : ∀ n ∈ [1, 11], let r := req 0x0702 0 (n :: (List.range n).map fun i => i * 2 ^ 24 + 256 * 256 + 64)
    let u := calm served
    let ws := (r.payload.drop 1).take (bitsOf (wd r.payload 0) 3 0)
    Asked (asking served r) 0 0x0702 r u ∧ NoBits r (0xFFF8FFF0 :: ws.map fun _ => 0x00FE0080) ∧ bitsOf (wd r.payload 0) 3 0 = n ∧
      (∀ x ∈ ws, regBad x = false) ∧ (ws.map fun x => (regEntry x).1).Nodup := by
  intro n h
  simp only [List.mem_cons, List.not_mem_nil, or_false] at h
  rcases h with rfl | rfl <;>
    exact ⟨asked _ _ _ _ (by decide +kernel), by unfold NoBits; decide +kernel, by decide +kernel, by decide +kernel,
      by decide +kernel⟩
theorem test_schedule_messages : (let r := req 0x0703 0 [7 * 65536, 10000];
      Asked (asking served r) 0 0x0703 r (calm served) ∧ NoBits r [0xFFF8FFFF] ∧ wd r.payload 1 = 10000) ∧
    (let r := req 0x0704 0 [7 * 65536];
      Asked (asking served r) 0 0x0704 r (calm served) ∧ (calm served).ownerOf (bitsOf (wd r.payload 0) 18 16) = 0 ∧
        NoBits r [0xFFF8FFFF]) ∧
    (let r := req 0x0805 1 [3, 600000];
      Asked (asking (device []) r) 0 0x0805 r (calm (device [])) ∧ wd r.payload 1 = 600000) :=
  ⟨⟨asked _ _ _ _ (by decide +kernel), by unfold NoBits; decide +kernel, by decide +kernel⟩,
    ⟨asked _ _ _ _ (by decide +kernel), by decide +kernel, by unfold NoBits; decide +kernel⟩,
    ⟨asked _ _ _ _ (by decide +kernel), by decide +kernel⟩⟩

/-! Service. -/

/-- A record of the event log. -/
def rec0 : LogRec := { seq := 0, code := 0x12E0, ctx := 0, part := none, count := 1, time := 0, data := [] }

/-- The general area, the fatal area, and the last flash slot. -/
theorem test_log_read : ∀ a ∈ [(0, 0), (1, 0), (2, 255)], let r := req 0x0801 0 [a.1, a.2, 127]
    let s := { State.reset with log := { general := [rec0], fatal := [rec0] } }
    let u := calm s
    Asked (asking s r) 0 0x0801 r u ∧ NoBits r [0xFFFFFFFC, 0, 0] ∧ wd r.payload 2 = 127 ∧ bitsOf (wd r.payload 0) 1 0 = a.1 ∧
      wd r.payload 1 = a.2 ∧ (if a.1 = 0 then u.log.general else u.log.fatal).getLast? = some rec0 := by
  intro a h
  simp only [List.mem_cons, List.not_mem_nil, or_false] at h
  rcases h with rfl | rfl | rfl <;>
    exact ⟨asked _ _ _ _ (by decide +kernel), by unfold NoBits; decide +kernel, by decide +kernel, by decide +kernel,
      by decide +kernel, by decide +kernel⟩
/-- The lowest and the highest limits. -/
theorem test_escalation_set : ∀ a ∈ [[2, 1, 3, 10], [10, 60, 32, 240]],
    let r := req 0x0802 0 [((wd a 0 * 256 + wd a 1) * 256 + wd a 2) * 256 + wd a 3, 1]
    Asked (asking State.reset r) 0 0x0802 r (calm State.reset) ∧ NoBits r [0, 0xFFFFFFFE] ∧
      [bitsOf (wd r.payload 0) 31 24, bitsOf (wd r.payload 0) 23 16, bitsOf (wd r.payload 0) 15 8, bitsOf (wd r.payload 0) 7 0] = a := by
  intro a h
  simp only [List.mem_cons, List.not_mem_nil, or_false] at h
  rcases h with rfl | rfl <;>
    exact ⟨asked _ _ _ _ (by decide +kernel), by unfold NoBits; decide +kernel, by decide +kernel⟩
/-- Partitions 0 and 7 out of service, and the module. -/
theorem test_service_restore : ∀ m : Bool, let r := req 0x0803 0 [if m then 2 ^ 31 else 0x81]
    let s := { State.reset with moduleOos := m }
    let u := { calm s with moduleOos := m }
    Asked { asking s r with moduleOos := m } 0 0x0803 r u ∧ NoBits r [0x7FFFFF00] ∧ bitOf (wd r.payload 0) 31 = m ∧
      (m = true → u.moduleOos = true) ∧ (m = false → maskParts (wd r.payload 0 % 256) = [0, 7] ∧
        ∀ p ∈ maskParts (wd r.payload 0 % 256), u.offDuty p = true ∧ (u.part p).inTest = false) := by
  intro m
  exact ⟨⟨rfl, rfl, rfl, by cases m <;> decide +kernel, Or.inl (by cases m <;> decide +kernel), Or.inl rfl, rfl⟩,
    by unfold NoBits; cases m <;> decide +kernel, by cases m <;> decide +kernel, id, by cases m <;> decide +kernel⟩
theorem test_partition_reset : let r := req 0x0804 0 [7 * 65536 + 1]
    Asked (asking served r) 0 0x0804 r (calm served) ∧ NoBits r [0xFFF8FFFE] ∧
      (calm served).offDuty (bitsOf (wd r.payload 0) 18 16) = false :=
  ⟨asked _ _ _ _ (by decide +kernel), by unfold NoBits; decide +kernel, by decide +kernel⟩
/-- The save of partition 7, and the last page of its dump. -/
theorem test_state_save : (let r := req 0x0904 0 [7 * 65536];
      Asked (asking served r) 0 0x0904 r (calm served) ∧ ((asking served r).part 7).saveOp = none ∧ NoBits r [0xFFF8FFFF] ∧
        ((calm served).part (bitsOf (wd r.payload 0) 18 16)).inService = true) ∧
    (let s := served.setPart 7 { inService := true, dump := { valid := true } };
      let r := req 0x0905 0 [2 ^ 31 + 7 * 65536, dumpSize - 4096, 4096, 0, 0, 0];
      let u := calm s;
      Asked (asking s r) 0 0x0905 r u ∧ NoBits r [0x7FF8FFFF, 0, 0, 0xFFFFFFFF] ∧ wd r.payload 1 % 4096 = 0 ∧
        wd r.payload 2 % 4096 = 0 ∧ wd r.payload 2 ≤ 1048576 ∧ 0 < wd r.payload 2 ∧
        (u.part (bitsOf (wd r.payload 0) 18 16)).dump.valid = true ∧ wd r.payload 1 + wd r.payload 2 = dumpSize) :=
  ⟨⟨asked _ _ _ _ (by decide +kernel), by decide +kernel, by unfold NoBits; decide +kernel, by decide +kernel⟩,
    ⟨asked _ _ _ _ (by decide +kernel), by unfold NoBits; decide +kernel, by decide +kernel, by decide +kernel, by decide +kernel,
      by decide +kernel, by decide +kernel, by decide +kernel⟩⟩
theorem test_state_saved : ∀ l ∈ [0, 2], let s := { served.setPart 7 { inService := true, saveOp := some 4 } with dbgLevel := l }
    (s.part (7 : Fin 8)).saveOp = some 4 ∧ s.dbgLevel = l := by decide +kernel

/-! Test mode. -/

theorem test_test_mode : (let r := req 0x0A01 0 [0x81];
      let u := calm served;
      NoBits r [0xFFFFFF00] ∧ Asked (asking served r) 0 0x0A01 r u ∧ maskParts (wd r.payload 0 % 256) = [0, 7] ∧
        (∀ p ∈ maskParts (wd r.payload 0 % 256), ((asking served r).part p).reset = none) ∧
        ∀ p ∈ maskParts (wd r.payload 0 % 256), u.ctxsOn p = [] ∧ (u.part p).inTest = false ∧ (u.part p).testExit = none) ∧
    (let r := req 0x0A02 0 [0x80];
      let u := calm testing;
      NoBits r [0xFFFFFF00] ∧ Asked (asking testing r) 0 0x0A02 r u ∧ maskParts (wd r.payload 0 % 256) ≠ [] ∧
        ∀ p ∈ maskParts (wd r.payload 0 % 256), (u.part p).inTest = true) ∧
    (let r := req 0x0A04 0 [0xFFFFFF, 63];
      Asked (asking served r) 0 0x0A04 r (calm served) ∧ NoBits r [0xFF000000, 0xFFFFFFC0]) :=
  ⟨⟨by unfold NoBits; decide +kernel, asked _ _ _ _ (by decide +kernel), by decide +kernel, by decide +kernel, by decide +kernel⟩,
    ⟨by unfold NoBits; decide +kernel, asked _ _ _ _ (by decide +kernel), by decide +kernel, by decide +kernel⟩,
    ⟨asked _ _ _ _ (by decide +kernel), by unfold NoBits; decide +kernel⟩⟩

/-! Debug and attestation. -/

/-- A challenge of level 1 that ends at count 10. -/
def chal0 : Challenge := { level := 1, nonce := List.replicate 32 0, expires := 10 }

/-- The state with that challenge at hub count h. -/
def challenged (h : Nat) : State := { served with sec := { served.sec with chal := some chal0 }, hub := h }

/-- An answer to it, without key and signature. -/
def token0 : List Byte := challengeBytes served.sec.serial chal0 ++ List.replicate 7888 0

theorem test_debug_challenge : let r := req 0x0901 0 [2]
    Asked (asking served r) 0 0x0901 r (calm served) ∧ NoBits r [0xFFFFFFFC] ∧ bitsOf (wd r.payload 0) 1 0 = 2 :=
  ⟨asked _ _ _ _ (by decide +kernel), by unfold NoBits; decide +kernel, by decide +kernel⟩
/-- To level 0; to level 2 with a context; to level 1 before the challenge ends, and as it ends. -/
theorem test_debug_unlock : (∀ l ∈ [0, 2], let r := req 0x0902 0 [l, 0, 0, 0]
      let u := calm (device []);
      Asked (asking (device []) r) 0 0x0902 r u ∧ NoBits r [0xFFFFFFFC, 0xFFFFFFFF] ∧ bitsOf (wd r.payload 0) 1 0 = l ∧
        wd r.payload 2 = 0 ∧ wd r.payload 3 = 0 ∧ liveCtxs u ≠ []) ∧
    (∀ h ∈ [9, 10], let r := req 0x0902 0 [1, 0];
      let u := calm (challenged h);
      Asked (asking (challenged h) r) 0 0x0902 r u ∧ NoBits r [0xFFFFFFFC, 0xFFFFFFFF] ∧ u.sec.chal = some chal0 ∧
        ((chal0.level = bitsOf (wd r.payload 0) 1 0 ∧ u.hub < chal0.expires ∧ token0.take 56 = challengeBytes u.sec.serial chal0) ↔
          h = 9)) ∧
    (challenged 10).sec.chal = some chal0 ∧ chal0.expires = (challenged 10).hub := by
  refine ⟨?_, ?_, rfl, rfl⟩ <;> intro x h <;> simp only [List.mem_cons, List.not_mem_nil, or_false] at h <;>
    rcases h with rfl | rfl <;>
    refine ⟨asked _ _ _ _ (by decide +kernel), by unfold NoBits; decide +kernel, ?_⟩ <;> decide +kernel
theorem test_attest_quote : (let r := req 0x0903 1 (List.replicate 12 0 ++ [17472, 0]);
      Asked (asking (device []) r) 0 0x0903 r (calm (device [])) ∧ firstBad (quoteChecks r) = none ∧
        bitsOf (wd r.payload 0) 31 30 = 0 ∧ wd r.payload 12 = 17472) ∧
    (let u := calm (device []);
      let r := req 0x0903 1 ([2 ^ 30] ++ List.replicate 11 0 ++ [(certChain u).length, 0]);
      Asked (asking (device []) r) 0 0x0903 r u ∧ firstBad (quoteChecks r) = none ∧ bitsOf (wd r.payload 0) 31 30 = 1 ∧
        wd r.payload 12 = (certChain u).length) := by
  refine ⟨⟨asked _ _ _ _ (by decide +kernel), by decide +kernel, by decide +kernel, by decide +kernel⟩,
    asked _ _ _ _ (by decide +kernel), ?_, by decide +kernel, rfl⟩
  generalize (certChain (calm (device []))).length = n
  have a : bitsOf 1073741824 31 30 = 1 := by decide +kernel
  simp [firstBad, quoteChecks, reservedCheck, reservedAt, req, wd, a]
theorem test_attest_quote_done : let q : QuoteOp := ⟨4, [], 0⟩
    let s := { served with quotes := [(2, q)], ops := [(4, cbOp)] }
    tabFind s.quotes 2 = some q ∧ tabFind s.ops q.op = some cbOp := by decide +kernel

/-! Registers and functions. -/

/-- The device with its rails up, BAR0 answering and the MCP ready. -/
def barS (s : State) : State :=
  { s with pins := { s.pins with rails := true }, boot := { s.boot with cmi := true }, ready := true, mcpReady := true }

/-- Word and doubleword accesses that are valid, ones that are not, and FENCE_SEL of partition 7. -/
theorem test_registers : let s := barS served
    s.barUp = true ∧ s.boot.stage ≠ 7 ∧ s.fnLive (0 : Fin 9) = true ∧ barInvalid s 0 0x1000 8 = false ∧ barInvalid s 0 0x300C 4 = false ∧
      barInvalid s 0 0x1004 8 = true ∧ barInvalid s 0 0xFFFFFC 4 = true ∧ s.ownerOf (7 : Fin 8) = 0 := by decide +kernel
/-- A port that serves, one that drains after 2 ms (for a new plan, and by FP_CONTROL), and a disabled one. -/
theorem test_ports : let s (P : Port) : State := { (barS served).setPort 5 P with hub := 50000, plan := some [] }
    ((s {}).port (5 : Fin 6)).disable = false ∧
    (∀ b, let P : Port := { disable := b, replan := !b, disabling := some 0 };
      ((s P).port (5 : Fin 6)).disabling = some 0 ∧ ((s P).port (5 : Fin 6)).disable = b ∧ 0 + 50000 = (s P).hub) ∧
    (let P : Port := { disable := true, st := .disabled };
      ((s P).port (5 : Fin 6)).disable = true ∧ ((s P).port (5 : Fin 6)).st = .disabled ∧ (s P).plan = some []) := by decide +kernel
theorem test_dbg_resume : let s := { (barS served).setPart 7 { inService := true, frozen := true } with dbgLevel := 2 }
    s.dbgLevel = 2 ∧ (s.part (7 : Fin 8)).frozen = true ∧ (s.part (7 : Fin 8)).saveOp = none := by decide +kernel

/-- A window at the end of BAR2 onto the first 2 MiB of context 1. -/
def endWindow : Window := { ctx := 1, dva := 0, units := 1, writable := true, off := 2 ^ 36 - 2097152 }

/-- The device with that window. -/
def winS : State := (barS (device [])).setFn 0 { bar2 := [(0, endWindow)] }

/-- The last byte of BAR2 through the window, and a byte before it. -/
theorem test_bar2 : let s := winS
    ∃ bs v v2, s.barUp = true ∧ s.fnLive (0 : Fin 9) = true ∧ 2 ^ 36 - 1 + 1 = bar2Bytes (s.fn 0) ∧
      windowOf s 0 (2 ^ 36 - 1) 1 = some endWindow ∧ windowUp s = true ∧
      readDva s hubUnit 1 (s.ctx 1).mapVer (0 + (2 ^ 36 - 1 - endWindow.off)) 1 17 = .ok (bs, v) ∧ endWindow.writable = true ∧
      writeDva s hubUnit 1 (s.ctx 1).mapVer (0 + (2 ^ 36 - 1 - endWindow.off)) (good [7]) = .ok v2 ∧
      windowOf s 0 (endWindow.off - 1) 1 = none ∧
      windowUp { s with ready := false } = false :=
  ⟨_, _, _, by decide +kernel, by decide +kernel, by decide +kernel, by decide +kernel, by decide +kernel,
    ok_pair ([], State.reset) _ (by decide +kernel), rfl, ok_okD State.reset _ (by decide +kernel), by decide +kernel, by decide +kernel⟩
/-- A read and a write of a window onto addresses that are not mapped. -/
theorem test_bar2_fault : let wn : Window := { endWindow with dva := 2 ^ 40 }
    let s := (barS (device [])).setFn 0 { bar2 := [(0, wn)] }
    ∃ e v, s.barUp = true ∧ s.fnLive (0 : Fin 9) = true ∧ windowOf s 0 (2 ^ 36 - 1) 1 = some wn ∧ windowUp s = true ∧
      readDva s hubUnit 1 (s.ctx 1).mapVer (2 ^ 40 + (2 ^ 36 - 1 - wn.off)) 1 17 = .error (e, v) ∧
      isOk (writeDva s hubUnit 1 (s.ctx 1).mapVer (2 ^ 40 + (2 ^ 36 - 1 - wn.off)) (good [7])) = false :=
  ⟨_, _, by decide +kernel, by decide +kernel, by decide +kernel, by decide +kernel, err_pair (.unmapped 0, State.reset) _ (by decide +kernel),
    by decide +kernel⟩
theorem test_functions : let s := { barS served with pcie := { (barS served).pcie with vfEn := true, numVfs := 8 } }
    s.fnLive (0 : Fin 9) = true ∧ s.fnLive (8 : Fin 9) = true ∧ s.pins.rails = true ∧ s.boot.cmi = true := by decide +kernel
/-- Rails up, Sunrise not over. -/
theorem test_functions_retry : let s := { State.reset with pins := { rails := true } }
    s.pins.rails = true ∧ s.boot.cmi = false := by decide +kernel
/-- A running COPY from host memory whose translation is refused. -/
theorem test_ats : let i := { copyNodeOf (2 ^ 26) [] with st := .running }
    let s := withInst ((device []).setFn 0 { atsEn := true }) i
    (s.fn (0 : Fin 9)).atsEn = true ∧ s.inst? (0 : Fin 8) 0 = some i ∧ i.st = .running ∧ i.ended = false ∧
      i.needsHost 0x1FFF = true ∧ i.needsHost 0x2000 = false ∧ (s.ctx i.ctx).owner = 0 ∧ xlWaiters s 0 (· == 1) = [] ∧
      (s.part (0 : Fin 8)).frozen = false := by decide +kernel
/-- A COPY that waits with 64 bytes for the translation of its destination's page, on a partition that a save holds and one that none
does, with a cache that is empty and one that is full. -/
theorem test_ats_waits : ∀ held, ∀ old ∈ [[], (List.range 2048).map (· + 10)],
    let i := { copyNodeOf (2 ^ 24) [] with st := .running, hostWait := some (List.replicate 64 7), xlWait := [2] }
    let s := withInst (((device []).setPart 0 { part0 [] with frozen := held }).setFn 0 { atsEn := true, ats := old, xlReq := [2] }) i
    let came (l : List Nat) : State := pagesHere (s.setFn 0 { s.fn 0 with ats := setIns l 2, xlReq := (s.fn 0).xlReq.filter (· != 2) }) 0 (· == 2)
    s.inst? (0 : Fin 8) 0 = some i ∧ (s.part 0).frozen = held ∧ i.st = .running ∧ i.ended = false ∧ (s.fn (0 : Fin 9)).atsEn = true ∧
      2 ∉ (s.fn 0).ats ∧
      (if old = [] then (s.fn 0).ats.length < 2048 else 2048 ≤ (s.fn 0).ats.length) ∧
      Unheld s (came old) ∧ Unheld s (came (old.drop 1)) ∧ xlWaiters s 0 (· == 2) = [(0, 0)] ∧ s.inst? (0 : Fin 8) 1 = none := by
  decide +kernel
/-- The ring of context 1, whose last byte lies in the page of 0x17FF. -/
theorem test_ats_ring : let s := (device []).setCp 1 0 { ring := some ⟨0x1000, 6, 0x5000, 0⟩ }
    s.inst? (0 : Fin 8) 0 = none ∧ ringCtxs s (0 : Fin 9) (0 : Fin 8) 0x17FF = [1] ∧ ringCtxs s (0 : Fin 9) (0 : Fin 8) 0x5003 = [1] ∧
      ringCtxs s (0 : Fin 9) (0 : Fin 8) 0x2000 = [] ∧ xlWaiters s 0 (· == 1) = [] := by decide +kernel

/-! RDMA and Ethernet. -/

/-- An open of a window of 2^47 bytes that ends at 2^48. -/
theorem test_conn_open : let r := req 0x0120 1 (List.replicate 13 0 ++ [0x8000, 0, 0x8000])
    let u := calm (device [])
    ∃ h v, Asked (asking (device []) r) 0 0x0120 r u ∧ NoBits r [0x0FFC1FC0, 0xFF000000, 0xFF000000, 0xFF000000, 0, 0, 0, 0, 0,
        0xFFFF0000, 0, 0xFFFFF000, 0, 0xFFFF0000] ∧ wd64 r.payload 12 + wd64 r.payload 14 = 2 ^ 48 ∧ u.conns.length < 1024 ∧
      (u.conns.filter fun e => e.2.ctx == r.ctx).length < 64 ∧
      freshId u (fun h => (tabFind u.conns h).isSome) 1 4294967295 u.conns.length = some (h, v) :=
  ⟨_, _, asked _ _ _ _ (by decide +kernel), by unfold NoBits; decide +kernel, by decide +kernel, by decide +kernel, by decide +kernel,
    freshId_empty _ _ _ _ (by decide) (fun _ => rfl)⟩

/-- A connection of context 1 with key 5 and the access bits acc, on 64 KiB from 0. -/
def connOf (acc : Nat) : Conn :=
  { st := .ready, ctx := 1, fn := 0, key := 5, words := acc * 2 ^ 29 :: List.replicate 13 0 ++ [65536, 0] }

/-- The device with that connection. -/
def connS (c : Conn) : State := { barS (device []) with conns := [(9, c)] }

theorem test_conn_life : (∀ st ∈ [ConnSt.opening, .ready], tabFind (connS { connOf 3 with st }).conns 9 = some { connOf 3 with st }) ∧
    (tabFind (connS (connOf 3)).ops 0 = none ∧ (tabFind ({ connS (connOf 3) with ops := [(4, prepOp)] } : State).ops 4).isSome = true) ∧
    (let s := connS (connOf 3);
      let r := req 0x0121 1 [9];
      let u := calm s;
      Asked (asking s r) 0 0x0121 r u ∧ tabFind u.conns (wd r.payload 0) = some (connOf 3) ∧ (connOf 3).ctx = r.ctx ∧
        (connOf 3).st ≠ .opening ∧ connUsed u (wd r.payload 0) = false) :=
  ⟨by decide +kernel, by decide +kernel, asked _ _ _ _ (by decide +kernel), by decide +kernel, by decide +kernel, by decide +kernel,
    by decide +kernel⟩
/-- The last byte of the window with both rights and fence 511, and one byte beyond. -/
theorem test_rdma_inbound : let s := connS (connOf 3)
    ∃ v m v2, tabFind s.conns 9 = some (connOf 3) ∧ windowUp s = true ∧ inboundOk (connOf 3) 5 65535 1 true = true ∧
      writeDva s hubUnit 1 (s.ctx 1).mapVer 65535 (good [7]) = .ok v ∧ (fencePlace s 1 511).isSome = true ∧
      inboundOk (connOf 3) 5 65535 1 false = true ∧ readDva s hubUnit 1 (s.ctx 1).mapVer 65535 1 17 = .ok (m, v2) ∧
      m.any (·.2) = false ∧ inboundOk (connOf 3) 5 65536 1 true = false ∧ inboundOk (connOf 3) 5 65536 1 false = false ∧
      inboundOk (connOf 3) 6 0 1 true = false ∧ inboundOk (connOf 1) 5 0 1 true = false ∧ inboundOk (connOf 2) 5 0 1 false = false ∧
      Unheld s (setFence (chargeOwners v 1 65535 1) 1 511 1) ∧
      Unheld s (chargeOwners { v2 with ethOut := v2.ethOut ++ [{ conn := 9, kind := 4, addr := 65535, bytes := m.map (·.1) }] } 1 65535 1) ∧
      fencePlace s 1 512 = none :=
  ⟨_, _, _, by decide +kernel, by decide +kernel, by decide +kernel, ok_okD State.reset _ (by decide +kernel), by decide +kernel,
    by decide +kernel, ok_pair ([], State.reset) _ (by decide +kernel), by decide +kernel, by decide +kernel, by decide +kernel,
    by decide +kernel, by decide +kernel, by decide +kernel, by decide +kernel, by decide +kernel, by decide +kernel⟩
/-- A READ and a WRITE beyond what is mapped. -/
theorem test_rdma_inbound_fault : let c : Conn := { connOf 3 with words := 3 * 2 ^ 29 :: List.replicate 14 0 ++ [0x8000] }
    let s := connS c
    ∃ e v, tabFind s.conns 9 = some c ∧ windowUp s = true ∧ inboundOk c 5 (2 ^ 40) 1 false = true ∧ inboundOk c 5 (2 ^ 40) 1 true = true ∧
      readDva s hubUnit 1 (s.ctx 1).mapVer (2 ^ 40) 1 17 = .error (e, v) ∧
      isOk (writeDva s hubUnit 1 (s.ctx 1).mapVer (2 ^ 40) (good [7])) = false :=
  ⟨_, _, by decide +kernel, by decide +kernel, by decide +kernel, by decide +kernel, err_pair (.unmapped 0, State.reset) _ (by decide +kernel),
    by decide +kernel⟩
/-- The seventh and the eighth expiry, 1 ms after the request, and the answer to a COPY over the connection, on a partition that a save
holds and one that none does. -/
theorem test_rdma_transport : ∀ k ∈ [6, 7], ∀ held, let c := { connOf 3 with outst := [(0, 0)], retries := k }
    let i := { copyNodeOf (3 * 2 ^ 24) [(7, 9)] with st := .running }
    let s := { withInst ((connS c).setPart 0 { part0 [] with frozen := held }) i with hub := 25000 }
    tabFind s.conns 9 = some c ∧ c.outst = (0, 0) :: [] ∧ c.retries = k ∧ c.sentAt + 25000 = s.hub ∧ (s.part 0).frozen = held ∧
      s.inst? 0 0 = some i ∧ i.st = .running ∧ i.overRdma = true := by decide +kernel

/-! The fabric. -/

/-- A plan of one cube: this module is 0, module 1 is its neighbour on port 0. -/
def onePlan : List Byte := wordsBytes ([0, 0, 0, 0x10101, 2 ^ 31] ++ List.replicate 11 0 ++ [2 ^ 31])

/-- The device with that plan, port 5 in state st and lane pair 7 of it as l; port 0 as P. -/
def fabS (P : Port) (st : PortSt) (l : LanePair) : State :=
  { (barS (device [])).setPort 0 P with plan := some onePlan, ports := [(0, P), (5, { st, lps := [(7, l)] })], hub := 50000000 }

/-- Received, lost lock, without progress for 20 µs; retraining; training again; the identity. -/
theorem test_lanes : (let s := fabS {} .up { up := true, replay := [(0, [])], lastAck := 50000000 - 500 };
      laneLive s (5 : Fin 6) (7 : Fin 8) = true ∧ (s.lp (5 : Fin 6) (7 : Fin 8)).replay ≠ [] ∧
        (s.lp (5 : Fin 6) (7 : Fin 8)).lastAck + 500 = s.hub) ∧
    (let i : Identity := { port := 3, lanePair := 7, moduleId := 8191, serial := 2 ^ 64 - 1 };
      let s := fabS {} .up { retraining := true, locked := true, seen := true, identity := some i };
      (s.lp (5 : Fin 6) (7 : Fin 8)).retraining = true ∧ (s.lp (5 : Fin 6) (7 : Fin 8)).seen = true ∧
        exchanging s (5 : Fin 6) (7 : Fin 8) = true ∧ identityIn (identityBlock i) = some i ∧
        (s.lp (5 : Fin 6) (7 : Fin 8)).identity = some i) ∧
    (∀ t ∈ [none, some 49975000], let i : Identity := { port := 0, lanePair := 0, moduleId := 0, serial := 0 };
      let s := fabS {} .up { retraining := true, locked := true, identAt := t };
      (s.lp (5 : Fin 6) (7 : Fin 8)).seen = false ∧ exchanging s (5 : Fin 6) (7 : Fin 8) = true ∧
        (∀ x, (s.lp (5 : Fin 6) (7 : Fin 8)).identAt = some x → x + 25000 = s.hub) ∧ identityIn (identityBlock i) = some i ∧
        (s.lp (5 : Fin 6) (7 : Fin 8)).identity ≠ some i) ∧
    (let i : Identity := { port := 0, lanePair := 0, moduleId := 0, serial := 0 };
      let s := fabS {} .training { locked := true };
      exchanging s (5 : Fin 6) (7 : Fin 8) = true ∧ (s.lp (5 : Fin 6) (7 : Fin 8)).retraining = false ∧
        partnerRejected s (5 : Fin 6) (7 : Fin 8) i = false) := by decide +kernel
theorem test_port_retry : (let s := fabS {} .down {};
      s.plan.isSome = true ∧ (s.port (5 : Fin 6)).disable = false ∧ (s.port (5 : Fin 6)).st = .down ∧
        (s.port (5 : Fin 6)).retryAt + 50000000 = s.hub) ∧
    (let s := fabS { absentBy := some 50000000 } .down {};
      (s.port (0 : Fin 6)).absentBy = some 50000000 ∧ 50000000 = s.hub) := by decide +kernel

/-- A packet of type ty to module m. -/
def packetTo (ty m : Nat) : Packet := { ptype := ty, destModule := m, srcModule := 1, rtag := 0 }

/-- The state in which lane pair 7 of port 5 holds q. -/
def heldS (P : Port) (q : Packet) : State := fabS P .up { up := true, rxq := [q], heldAt := [(q.cls, 50000000 - 25000)] }

/-- Port 0, up, with credits for every class. -/
def upPort : Port := { st := .up, lps := [(7, { up := true, credits := (List.range 10).map fun c => (c, 64) })] }

/-- A passing WRITE through a port that is up and one that is down, and one that no route serves. -/
theorem test_packet_forward : (let s := heldS upPort (packetTo 0 1);
      let q := packetTo 0 1;
      headPacket (s.lp (5 : Fin 6) (7 : Fin 8)) (fun q => passing s q && forwardable s 5 7 q) = some (0, q) ∧ s.routePort q.destModule = some 0 ∧
        s.portUsable 0 = true ∧ reduces q = false) ∧
    (let s := heldS {} (packetTo 0 1);
      headPacket (s.lp (5 : Fin 6) (7 : Fin 8)) (fun q => passing s q && forwardable s 5 7 q) = some (0, packetTo 0 1) ∧ s.routePort 1 = some 0 ∧
        s.portUsable 0 = false) ∧
    (let s := heldS {} (packetTo 0 64);
      headPacket (s.lp (5 : Fin 6) (7 : Fin 8)) (fun q => passing s q && forwardable s 5 7 q) = some (0, packetTo 0 64) ∧ s.routePort 64 = none) := by decide +kernel
/-- A reduction packet held for 1 ms without an arm. -/
theorem test_reduce_hold : let q := { packetTo 1 1 with rtag := 5 }
    let s := heldS {} q
    headPacket (s.lp (5 : Fin 6) (7 : Fin 8)) (fun q => passing s q && reduces q) = some (0, q) ∧
      tabFind (s.lp (5 : Fin 6) (7 : Fin 8)).heldAt q.cls = some (50000000 - 25000) ∧ 50000000 - 25000 + 25000 = s.hub ∧
      armMatch (s.part (7 : Fin 8)) q = none := by decide +kernel
/-- A WRITE, an ADD, a SIGNAL and an ACK for this module. -/
theorem test_packet_arrivals : ∀ ty ∈ [0, 1, 2, 3], let q := packetTo ty 0
    let s := heldS {} q
    headPacket (s.lp (5 : Fin 6) (7 : Fin 8)) (fun q => q.ptype == ty && q.destModule == s.moduleId) = some (0, q) ∧
      heldForExit s q = false := by decide +kernel
/-- A new ABORT, and one that was seen within the last 10 s. -/
theorem test_abort : ∀ old : Bool, let q := packetTo 4 0
    let s := { heldS {} q with abortsSeen := if old then [(1, 0, 0)] else [] }
    let t := takeHead s (5 : Fin 6) (7 : Fin 8) 0 q
    let seen := t.abortsSeen.filter fun a => s.hub < a.2.2 + 250000000
    headPacket (s.lp (5 : Fin 6) (7 : Fin 8)) (fun q => q.ptype == 4) = some (0, q) ∧
      (if old then ∃ a ∈ seen, a.1 = q.srcModule ∧ a.2.1 = q.rtag else ∀ a ∈ seen, a.1 = q.srcModule → a.2.1 ≠ q.rtag) := by
  decide +kernel

/-! Watchdogs and partition resets. -/

/-- Partition 7 as P in a running module. -/
def partS (P : Part) : State := (barS served).setPart 7 P

/-- The scrub, a fourth and a fifth parity error, stacks awake for 100 µs, a kernel still for 10 ms, a heartbeat still for 2 ms, a
tile killed 2 µs ago. -/
theorem test_watchdogs : (let s := partS { inService := true, hbm := { ca := [(95, 3)] } };
      let P := s.part (7 : Fin 8);
      P.inService = true ∧ P.reset = none ∧ P.hbm.selfRefresh = false ∧ s.pins.rails = true ∧ tabGet 0 P.hbm.ca (95 : Fin 96) + 1 < 5 ∧
        s.staysOut (7 : Fin 8) = false) ∧
    (let s := partS { inService := true, hbm := { ca := [(95, 4)] } };
      4 ≤ tabGet 0 (s.part (7 : Fin 8)).hbm.ca (95 : Fin 96)) ∧
    (let s := partS { inService := true, act := 3, count := 2500, hbm := { wokenAt := some 0 } };
      let P := s.part (7 : Fin 8);
      P.hbm.wokenAt = some 0 ∧ P.act = 3 ∧ 0 + 2500 = P.count) ∧
    (let s := (partS { inService := true, count := 250000 }).setTile 7 15 { run := some (run1 0) };
      (s.tile (7 : Fin 8) (15 : Fin 16)).run = some (run1 0) ∧ (run1 0).ended = false ∧ (s.part (7 : Fin 8)).frozen = false ∧
        (run1 0).progress + 250000 = (s.part (7 : Fin 8)).count) ∧
    (let s := (partS { inService := true, count := 50000 }).setTile 7 15 { killedAt := some 49950 };
      let P := s.part (7 : Fin 8);
      s.running = true ∧ P.inService = true ∧ P.act ≠ 3 ∧ P.beatAt + 50000 = P.count ∧
        (s.tile (7 : Fin 8) (15 : Fin 16)).killedAt = some 49950 ∧ 49950 + 50 = P.count) ∧
    (let s := { partS { inService := true, count := 2500000 } with hub := 2500000 };
      s.running = true ∧ (s.part (7 : Fin 8)).dcpAt + 2500000 = (s.part (7 : Fin 8)).count ∧ dcpInReset s (7 : Fin 8) = false ∧
        s.mcpAt + 2500000 = s.hub) ∧
    (let line := systemLine;
      let s := partS { inService := true, hbm := { ue := [line] } };
      line ∈ (s.part (7 : Fin 8)).hbm.ue ∧ systemLine ≤ line ∧ line < dpaLines) := by decide +kernel

/-- Partition 7 in a reset at step x, its items and cores as given. -/
def resetS (x : Reset) (items : Tab TrainSt) (cores : Tab Nat) : State :=
  let s := partS { inService := true, reset := some x }
  { s with boot := { s.boot with items, cores } }

/-- Every step, with and without the memory path, trained and not. -/
theorem test_reset_steps : (let x : Reset := { cause := 0, startedAt := 0 };
      let s := resetS x [] [];
      (s.part (7 : Fin 8)).reset = some x ∧ x.step = .sundown ∧ ∀ e ∈ ((thaw s (7 : Fin 8)).part (7 : Fin 8)).insts, e.2.st ≠ .committing) ∧
    (let x : Reset := { cause := 0, startedAt := 0 };
      let s := (resetS x [] []).setInst 7 0 { kern with st := .committing, acks := [3] };
      (s.part (7 : Fin 8)).reset = some x ∧ x.step = .sundown ∧ ∃ e ∈ ((thaw s (7 : Fin 8)).part (7 : Fin 8)).insts, e.2.st = .committing) ∧
    (∀ oos stays : Bool, let x : Reset := { cause := 0, startedAt := 0, step := .compute, toOos := oos, stays };
      ((resetS x [] []).part (7 : Fin 8)).reset = some x ∧ x.step = .compute ∧ x.toOos = oos ∧ x.stays = stays) ∧
    (let x : Reset := { cause := 0, startedAt := 0, step := .reinit };
      ((resetS x [] []).part (7 : Fin 8)).reset = some x ∧ x.step = .reinit ∧ x.memPath = false) ∧
    (let x : Reset := { cause := 0, startedAt := 0, step := .reinit, memPath := true };
      let s := resetS x [(21, .done), (22, .done), (23, .done)] [];
      (s.part (7 : Fin 8)).reset = some x ∧ x.memPath = true ∧ ∀ i ∈ stacksOf 7, s.item i = .done) ∧
    (let x : Reset := { cause := 0, startedAt := 0, step := .reinit, memPath := true };
      let s := resetS x [(21, .done), (22, .done), (23, .failed)] [];
      (s.part (7 : Fin 8)).reset = some x ∧ x.memPath = true ∧ ∃ i ∈ stacksOf 7, s.item i = .failed) ∧
    (let x : Reset := { cause := 0, startedAt := 0, step := .ending };
      let s := resetS x [] ((List.range 113).map fun k => (896 + k, 2));
      (s.part (7 : Fin 8)).reset = some x ∧ x.step = .ending ∧ coresRun s 7 = true) := by decide +kernel

/-! Supplies and bring-up. -/

/-- The module at reset with these pins at hub count h. -/
def pinS (pins : Pins) (h : Nat) : State := { State.reset with pins, hub := h }

theorem test_supplies : State.reset.pins.standby = false ∧
    (let s := pinS { standby := true } 0;
      s.pins.standby = true ∧ s.pins.pwrEn = false ∧ s.pins.fellAt = none ∧ s.pins.resetN = false) ∧
    (let s := pinS { standby := true, fellAt := some 1 } 12500001;
      s.pins.fellAt = some 1 ∧ 1 + 12500000 = s.hub) ∧
    (let s := pinS { standby := true, fellAt := some 1 } 12500000;
      s.pins.standby = true ∧ s.pins.pwrEn = false ∧ s.pins.fellAt = some 1 ∧ s.hub + 1 = 1 + 12500000) ∧
    (let s := pinS { standby := true, pwrEn := true, fellAt := some 1 } 12500001;
      s.pins.fellAt = some 1 ∧ s.pins.pwrEn = true ∧ s.pins.ramping = false ∧ s.pins.rails = false ∧ s.pins.latched = false ∧
        1 + 12500000 = s.hub) ∧
    (let s := pinS { standby := true, pwrEn := true, ramping := true, resetN := true } 0;
      s.pins.resetN = true ∧ s.pins.ramping = true ∧ s.pins.refclk = true) ∧
    (let s := { barS served with pins := { (barS served).pins with pwrEn := true } };
      s.pins.pwrEn = true ∧ s.running = true ∧ s.pins.rails = true) ∧ State.reset.pins.pwrEn = false ∧
    (let s := { pinS { standby := true, latched := true } 24999 with twilight := [[0x5303, 0, 12000, 5]] };
      s.pins.rails = false ∧ s.pins.ramping = false ∧ s.pins.latched = true ∧
        s.twilight.getLast? = some [0x5303, 0, 12000, 5] ∧ s.hub < wd [0x5303, 0, 12000, 5] 1 + 25000) := by decide +kernel

/-- The module in stage k of its bring-up, with these items and cores. -/
def stageS (k : Nat) (items : Tab TrainSt) (cores : Tab Nat) : State :=
  { State.reset with pins := { rails := true, resetN := true, standby := true, pwrEn := true }
                     boot := { dawn := true, stage := k, cmi := 3 ≤ k, items, cores }, hub := 125000000 }

/-- Every item trained. -/
def allDone : Tab TrainSt := (List.range 72).map fun i => (i, .done)

theorem test_stages : (stageS 1 [] []).inStage 1 = true ∧ (stageS 2 [] []).inStage 2 = true ∧
    (let s := stageS 3 [] [];
      s.boot.settled = false ∧ s.boot.cmi = true ∧ s.boot.dawnEndAt + 125000000 = s.hub ∧ s.inStage 3 = true ∧
        s.nvws.mounted = false) ∧
    (∀ t ∈ [TrainSt.saved, .refining, .cold, .coldRetry], (stageS 3 [(71, t)] []).item (71 : Fin 72) = t) ∧
    (let s := stageS 3 allDone [];
      s.inStage 3 = true ∧ stacksDone s (7 : Fin 8) = true ∧ ((7 : Fin 8) : Nat) ∉ s.boot.zeroed) := by decide +kernel
/-- A core of partition 7 that has not failed, and one that has failed once, with no image to fetch. -/
theorem test_cores : ∀ v ∈ [0, 1], let s0 := stageS 3 allDone [(896 + 112, v)]
    let s := { s0 with boot := { s0.boot with zeroed := [7] } }
    imagesPlaced s (7 : Fin 8) = true ∧ tabGet 0 s.boot.cores (128 * (7 : Fin 8).val + (112 : Fin 113).val) = v ∧
      fetchedOk s (7 : Fin 8) (112 : Fin 113) = false ∧ (s.part (7 : Fin 8)).testExit = none := by decide +kernel

/-- A bundle whose only image, of kind 3 (the CP), is its own first four bytes, which are zero. -/
def coreBundle : List Byte :=
  List.replicate 0x40 0 ++ wordsBytes [3 * 2 ^ 24, 0, 4, 0] ++ Config.sha256 (List.replicate 4 0)

/-- The CP of partition 7 fetches it. -/
theorem test_core_fetched : let s0 := stageS 3 allDone []
    let s := { s0 with boot := { s0.boot with zeroed := [7] }, sec := { s0.sec with run := coreBundle } }
    imagesPlaced s (7 : Fin 8) = true ∧ tabGet 0 s.boot.cores (128 * (7 : Fin 8).val + (112 : Fin 113).val) < 2 ∧
      fetchedOk s (7 : Fin 8) (112 : Fin 113) = true ∧ (s.part (7 : Fin 8)).testExit = none := by
  intro s0 s
  refine ⟨by decide +kernel, by decide +kernel, ?_, by decide +kernel⟩
  have a : bunImage coreBundle 3 = some (0, 4, Config.sha256 (List.replicate 4 0)) := rfl
  have b : bunBytes coreBundle 3 = List.replicate 4 0 := rfl
  have c : coreKind (112 : Fin 113) = 3 := rfl
  have r : s.sec.running = coreBundle := rfl
  have m : ∀ d, memByte (s.part (7 : Fin 8)).hbm.mem d = 0 := fun _ => rfl
  simp only [fetchedOk, bunDigestOk, r, c, a, b, m]
  simp
/-- Partition 7 alone came up; every port is waived. -/
theorem test_readiness : let s0 := stageS 3 allDone ((List.range 113).map fun k => (896 + k, 2))
    let s := { s0 with boot := { s0.boot with zeroed := [7], partFailed := [0, 1, 2, 3, 4, 5, 6] }, nvws := { mounted := true }
                       ports := (List.range 6).map fun k => (k, { waived := true }) }
    s.inStage 3 = true ∧ s.stopped = false ∧ (∀ p ∈ allParts, partOut s p = true ∨ partUp s p = true) ∧ s.nvws.mounted = true ∧
      fabricReady s = true := by decide +kernel
/-- Bundle words whose ADVANCE is set. -/
def advanceBundle : List Byte := wordsBytes [0, 2 ^ 21, 0, 0]

theorem test_after_readiness : let s0 := stageS 5 allDone []
    let s := { s0 with ready := true, boot := { s0.boot with refined := [71] }, sec := { s0.sec with run := advanceBundle } }
    s.ready = true ∧ ((71 : Fin 72) : Nat) ∈ s.boot.refined ∧ s.item (71 : Fin 72) = .done ∧ s.sec.raised = false ∧
      bunAdvance s.sec.running = true := by decide +kernel

/-! Power. -/

/-- A step to each deeper state at its idle time and exit tolerance, and an exit from each. -/
theorem test_activity : ∀ k ∈ [1, 2, 3],
    let s := (partS { inService := true, act := k - 1, idleAt := some 0, count := us (entryUs k) }).setFn 0 { latUs := exitUs k }
    s.running = true ∧ (s.part (7 : Fin 8)).act < 3 ∧ targetAt s (7 : Fin 8) ((s.part (7 : Fin 8)).act + 1) = true ∧ s.power.e ≤ 0 + 45000 ∧
      1 ≤ ((partS { act := k }).part (7 : Fin 8)).act ∧ ((partS { act := k }).part (7 : Fin 8)).act ≤ 3 := by decide +kernel
/-- All partitions in A3 for 10 s, with the permission and a tolerance of 350 ms; and in A4. -/
theorem test_a4 : let s := (barS (allParts.foldl (fun s p => s.setPart p { inService := true, act := 3, count := 250000000 })
      State.reset)).setFn 0 { latUs := 350000, allowA4 := true }
    s.ready = true ∧ s.running = true ∧ s.power.a4 = false ∧ mayEnterA4 s = true ∧
      ({ s with power := { s.power with a4 := true } } : State).running = true ∧
      ({ s with keptCounts := some (5, [7]) } : State).keptCounts = some (5, [7]) := by decide +kernel
/-- Demand below the envelope, which is news; at it; and below it with filler to spare. -/
theorem test_envelope : ∀ x ∈ [(30000, 0), (40000, 0), (30000, 20000)],
    let s := { barS served with power := { (barS served).power with e := 40000 } }
    let m : Measured := { (⟨x.1, 0, 0, 0, 0, 0, 0, 0, 0, 0⟩ : Measured) with fillerMw := x.2 }
    let e := nextE s.power.e m.dMw (s.power.capSteps * 25000) (s.power.floorPct * m.aMw / 100)
    s.ready = true ∧ s.running = true ∧ s.power.nextAt ≤ s.hub ∧ s.power.short = false ∧
      (if x.1 = 40000 then e ≤ m.dMw else m.dMw < e ∧ (if x.2 = 0 then m.dMw + m.fillerMw < e else e ≤ m.dMw + m.fillerMw)) := by
  decide +kernel
/-- Filler; a throttled and an unthrottled partition at their next step; the outlet. -/
theorem test_protection : (let s := { partS { inService := true, duty := 16 } with power := { (barS served).power with e := 1 } };
      let P := s.part (7 : Fin 8);
      P.inService = true ∧ P.reset = none ∧ P.act = 0 ∧ P.duty = 16 ∧ (s.tile (7 : Fin 8) (15 : Fin 16)).run = none ∧
        s.power.dMw < s.power.e ∧ s.pins.rails = true ∧ P.throttling = false ∧ s.pins.outletHot = false) ∧
    (let s := partS { inService := true, duty := 15, throttling := true, count := 25000 };
      let P := s.part (7 : Fin 8);
      s.pins.rails = true ∧ P.throttling = true ∧ P.throttleAt + 2500 ≤ P.count ∧ P.duty < 16 ∧ P.throttleAt + 25000 = P.count) := by
  decide +kernel

/-! Records and packets. -/

/-- The words of a valid plan of one cube with every port waived. -/
def planWords : List Nat :=
  [0x54500100, 0, 0, 0x10101, 2 ^ 31, 0] ++ List.replicate 6 (2 ^ 30) ++ [0, 0, 0, 0, 2 ^ 31] ++ List.replicate 127 0

/-- That plan with its CRC. -/
def goodPlan : List Byte := wordsBytes planWords ++ natLe 4 3163298405

/-- The running CRC before each twelve words of it. -/
def planCrcs : List Nat :=
  [4294967295, 567502197, 4124747734, 1746517218, 3523940606, 3166971199, 3287068321, 2574680656, 3720199739, 2794358211, 1123092693, 2118004549, 1131668890]

theorem plan_crcs : ∀ i < 12, (wordsBytes ((planWords.drop (12 * i)).take 12)).foldl crcByte (planCrcs.getD i 0) = planCrcs.getD (i + 1) 0 := by
  decide +kernel

theorem plan_crc : crc32c (goodPlan.take 0x240) = 3163298405 := by
  have e : goodPlan.take 0x240 = (List.range 12).flatMap fun i => wordsBytes ((planWords.drop (12 * i)).take 12) := by decide +kernel
  have h : ∀ k ≤ 12, ((List.range k).flatMap fun i => wordsBytes ((planWords.drop (12 * i)).take 12)).foldl crcByte 0xFFFFFFFF =
      planCrcs.getD k 0 := by
    intro k
    induction k with
    | zero => intro _; rfl
    | succ k ih =>
      intro hk
      rw [List.range_succ, List.flatMap_append, List.foldl_append, ih (by omega)]
      simpa using plan_crcs k (by omega)
  rw [crc32c, e, h 12 (Nat.le_refl _)]
  decide +kernel

theorem good_plan : planFault goodPlan = none := by
  unfold planFault
  dsimp only
  rw [plan_crc]
  decide +kernel

/-- A plan of the wrong length, and a valid one for a module that has one. -/
theorem test_cabling_plan : planFault [] = some 0 ∧ (stageS 3 [] []).mcpReady = false ∧ (stageS 3 [] []).mcRuns = true ∧
    (let s := { barS served with plan := some onePlan };
      s.mcpReady = true ∧ s.plan = some onePlan ∧ s.mcRuns = true ∧ s.boot.stage ≠ 7) ∧ (stageS 7 [] []).mcRuns = true := by decide +kernel
/-- Every field at its largest. -/
theorem test_packet_fits : PacketFits { ptype := 15, tc := 3, vc := 1, dstDie := 7, dstSpace := 3, destModule := 8191, srcModule := 8191
                                        txn := 4095, destCtx := 63, srcCtx := 63, srcEpoch := 255, len := 2047, dstTile := 15, op := 15
                                        status := 255, addrHi := 65535, addrLo := 2 ^ 32 - 1, rtag := 65535, low := 65535 } := by
  unfold PacketFits
  decide +kernel

/-! Steps. -/

theorem test_reset_idle : State.reset.pending = [] := rfl
/-- From the reset state, on the empty queue and with a command at its front, a step goes on and keeps the invariants' hypotheses. -/
theorem test_reset_steps_on : DebugMarked State.reset ∧ MemoryCanonical State.reset ∧ (∃ t, step State.reset = .next t) ∧
    ∃ t, exec .standbyPowerUp State.reset = .next t :=
  ⟨by unfold DebugMarked; decide +kernel, by unfold MemoryCanonical; decide +kernel, ⟨_, rfl⟩, ⟨_, rfl⟩⟩

end Sys2Proof.Tests
end

section
/-! PROOFS. Accesses to the registers of BAR0 (R21, R24, R1093, R1101): which words are assigned outside Recovery, what a write to an
assigned word does, and that a refused access leaves only a log record and a completion. -/

namespace Sys2Proof.Machine

/-! Writing a table or a port twice. -/

/-- The later of two puts at one key stands. -/
@[simp] theorem tabSet_tabSet {α : Type} (t : Tab α) (k : Nat) (x y : α) : tabSet (tabSet t k x) k y = tabSet t k y := by
  induction t with
  | nil => simp [tabSet]
  | cons e t ih =>
    obtain ⟨j, z⟩ := e
    by_cases hlt : k < j
    · simp [tabSet, hlt]
    · by_cases heq : k = j
      · simp [tabSet, heq]
      · simp [tabSet, hlt, heq, ih]

@[simp] theorem State.setPort_setPort (s : State) (k : Nat) (x y : Port) : (s.setPort k x).setPort k y = s.setPort k y := by
  simp [State.setPort]

/-! The map of BAR0 outside Recovery (R1093). -/

/-- The PF exists always (R597). -/
@[simp] theorem State.fnLive_pf (s : State) : s.fnLive 0 = true := rfl

/-- The MSI-X table of every function. -/
theorem regWord_msix {s : State} (hst : s.boot.stage ≠ 7) (k : Nat) {o : Nat} (ho : o < 0x8000) :
    regWord s k (0x10000 + o) = some (msixWord s k o) := by
  unfold regWord
  rw [if_neg (by omega), if_neg hst, if_neg (by omega), if_neg (by omega), if_neg (by omega), if_pos (by grind),
    Nat.add_sub_cancel_left]

/-- The block of a partition, for the PF and the partition's owner (R597). -/
theorem regWord_partition {s : State} (hst : s.boot.stage ≠ 7) {k p o : Nat} (hp : p < 8) (ho : o < 0x10000)
    (hk : k = 0 ∨ s.ownerOf p = k) : regWord s k (0x100000 + 0x10000 * p + o) = ptWord s k p o := by
  have hpart : (0x100000 + 0x10000 * p + o - 0x100000) / 65536 = p := by omega
  have hoff : (0x100000 + 0x10000 * p + o) % 65536 = o := by omega
  unfold regWord
  rw [if_neg (by omega), if_neg hst, if_neg (by omega), if_neg (by omega), if_neg (by omega), if_neg (by grind),
    if_neg (by grind), if_neg (by grind), if_pos (by grind), hpart, hoff, if_pos (by simpa using hk)]

/-- The block of a fabric port, for the PF. -/
theorem regWord_port {s : State} (hst : s.boot.stage ≠ 7) {port o : Nat} (hp : port < 6) (ho : o < 0x4000) :
    regWord s 0 (0x200000 + 0x4000 * port + o) = fpWord s port o := by
  have hport : (0x200000 + 0x4000 * port + o - 0x200000) / 0x4000 = port := by omega
  have hoff : (0x200000 + 0x4000 * port + o) % 0x4000 = o := by omega
  unfold regWord
  rw [if_neg (by omega), if_neg hst, if_neg (by omega), if_neg (by omega), if_neg (by omega), if_neg (by grind),
    if_neg (by grind), if_neg (by grind), if_neg (by grind), if_neg (by simp), if_pos (by grind), hport, hoff]

/-- DBG_RESUME is assigned at debug level 2 (R1061). -/
theorem regWord_dbgResume {s : State} (hst : s.boot.stage ≠ 7) (hl : s.dbgLevel = 2) :
    regWord s 0 0x800008 = some (s.sec.resumePart % 8) := by
  simp [regWord, dbgWord, hst, hl]

/-! The guard of a register write (R24). -/

/-- A 32-bit access to an assigned word is accepted. -/
theorem barInvalid_of_regWord {s : State} {k o w : Nat} (ho : o % 4 = 0) (h : regWord s k o = some w) :
    barInvalid s k o 4 = false := by
  simp [barInvalid, ho, h]

/-- A function that exists writes an assigned word. -/
theorem barGuard_of_regWord {s : State} {k o w : Nat} (hup : s.barUp = true) (hk : s.fnLive k = true) (ho : o % 4 = 0)
    (h : regWord s k o = some w) (f : State → State) : barGuard s k o f = f s := by
  simp [barGuard, hup, hk, barInvalid_of_regWord ho h]

/-! What each write does. -/

/-- A write that R24 accepts goes to the words that it covers, the lower first. -/
theorem execRegisterWrite_of_valid {s : State} {k : Fin 9} {o wdt : Nat} (v : W64) (hup : s.barUp = true)
    (hk : s.fnLive k = true) (ho : o < 0x1000000) (hv : barInvalid s k o wdt = false) :
    execRegisterWrite k o wdt v s = .next (let t := writeWord s k o (v.toNat % 2 ^ 32)
      if wdt = 8 then writeWord t k (o + 4) (v.toNat / 2 ^ 32) else t) := by
  have hbar : ¬0x1000000 ≤ o := by omega
  simp [execRegisterWrite, next, hbar, hup, hk, hv]

/-- One that R24 refuses is only logged. -/
theorem execRegisterWrite_of_invalid {s : State} {k : Fin 9} {o wdt : Nat} (v : W64) (hup : s.barUp = true)
    (hk : s.fnLive k = true) (ho : o < 0x1000000) (hv : barInvalid s k o wdt = true) :
    execRegisterWrite k o wdt v s = .next (barReject s k o) := by
  have hbar : ¬0x1000000 ≤ o := by omega
  simp [execRegisterWrite, next, hbar, hup, hk, hv]

/-- A refused access is logged; a read completes with all ones. -/
theorem execBar0AccessInvalid_of_invalid {s : State} {k : Fin 9} {o wdt : Nat} (wr : Bool) (hup : s.barUp = true)
    (hk : s.fnLive k = true) (hv : barInvalid s k o wdt = true) :
    execBar0AccessInvalid k o wdt wr s = .next (let t := barReject s k o
      if wr then t else { t with cpls := t.cpls ++ [{ fn := k, bytes := List.replicate wdt 0xFF }] }) := by
  simp [execBar0AccessInvalid, next, hup, hk, hv]

/-- PT_FENCE_SEL is written by the PF and by the partition's owner (R1097). -/
theorem execPtFenceSelWrite_of_owner {s : State} {k : Fin 9} {p : Fin 8} (v : W32) (hup : s.barUp = true)
    (hk : s.fnLive k = true) (hst : s.boot.stage ≠ 7) (hp : (k : Nat) = 0 ∨ s.ownerOf p = k) :
    execPtFenceSelWrite k p v s = .next (setFenceSel s k p v.toNat) := by
  have hw : regWord s k (0x100048 + 0x10000 * p) = ptWord s k p 0x48 := by
    rw [← regWord_partition hst p.isLt (by decide) hp, Nat.add_right_comm]
  simp only [execPtFenceSelWrite, next]
  rw [barGuard_of_regWord hup hk (by omega) (hw.trans rfl)]

/-- The PF writes FP_CONTROL of every port. -/
theorem barGuard_fpControl {s : State} (port : Fin 6) (hup : s.barUp = true) (hst : s.boot.stage ≠ 7) (f : State → State) :
    barGuard s 0 (0x200004 + 0x4000 * port) f = f s := by
  have hw : regWord s 0 (0x200004 + 0x4000 * port) = fpWord s port 4 := by
    rw [← regWord_port hst port.isLt (by decide), Nat.add_right_comm]
  exact barGuard_of_regWord hup s.fnLive_pf (by omega) (hw.trans rfl) f

/-- DISABLE becomes 1, and the port drains from here on (R819). -/
theorem disablePort_of_enabled {s : State} {k : Nat} (h : (s.port k).disable = false) :
    disablePort s k = s.setPort k { s.port k with disable := true, disabling := some s.hub } := by
  simp [disablePort, h]

/-- A disabled port trains, with a new absent limit (R820, R838). -/
theorem enablePort_of_disabled {s : State} {k : Nat} {b : List Byte} (hd : (s.port k).disable = true)
    (hst : (s.port k).st = .disabled) (hp : s.plan = some b) :
    enablePort s k = startPort (s.setPort k { s.port k with
      disable := false, disabling := if (s.port k).replan then (s.port k).disabling else none
      absentBy := some (s.hub + 25000000 * planLimit b) }) k := by
  simp [enablePort, retrainPort, hd, hst, hp]

/-- A port that has drained, or has had its 2 ms, goes quiet (R819). -/
theorem execPortDisableDone_of_drained {s : State} {port : Fin 6} {t : Nat} (ht : (s.port port).disabling = some t)
    (h : portDrained s port = true ∨ t + 50000 ≤ s.hub) :
    execPortDisableDone port s = .next
      (if (s.port port).disable then quietPort s port .disabled else retrainPort (quietPort s port .down) port) := by
  rcases h with hdrained | hlate
  · simp [execPortDisableDone, next, ht, hdrained]
  · have hlt : ¬s.hub < t + us 2000 := Nat.not_lt.2 hlate
    simp [execPortDisableDone, next, ht, hlt]

/-- At debug level 2 a partition that a save has left frozen goes on (R640). -/
theorem resumePart_of_frozen {s : State} {p : Nat} (hl : s.dbgLevel = 2) (hf : (s.part p).frozen = true)
    (hs : (s.part p).saveOp = none) :
    resumePart s p = thaw (s.setPart p { s.part p with frozen := false }) p := by
  simp [resumePart, hl, hf, hs]

/-- A vector loses its mask, and its pending message is sent where MSI-X is enabled (R869). -/
theorem unmask_eq (s : State) (k v : Nat) : unmask s k v =
    (let f := s.fn k
     let e : Vec := tabGet {} f.vecs v
     let t := s.setFn k { f with vecs := tabSet f.vecs v { e with masked := false, pending := false } }
     if e.pending && f.msixEn then raiseVector t k v else t) := by
  dsimp only [unmask]
  cases (tabGet {} (s.fn k).vecs v : Vec).pending <;> cases (s.fn k).msixEn <;> rfl

/-- Every function clears the mask of a vector of its own. -/
theorem execMsixUnmask_eq {s : State} {k : Fin 9} (v : Fin 2048) (hup : s.barUp = true) (hk : s.fnLive k = true)
    (hst : s.boot.stage ≠ 7) : execMsixUnmask k v s = .next (unmask s k v) := by
  have hw : regWord s k (0x1000C + 16 * v) = some (msixWord s k (0xC + 16 * v)) := by
    rw [← regWord_msix hst k (by omega), ← Nat.add_assoc]
  simp only [execMsixUnmask, next]
  rw [barGuard_of_regWord hup hk (by omega) hw]

/-- Settles O45: outside Recovery the word that each command writes is assigned, so that it passes the guard of R24, and a refused access
fails it. That a port made quiet by a new cabling plan trains again is the model's reading (DEDUCED, log entry 54). -/
theorem registerAccessesAct : Obligations.RegisterAccessesAct := by
  unfold Obligations.RegisterAccessesAct
  intro s k hup hk
  refine ⟨fun o wdt v ho _ hv => execRegisterWrite_of_valid v hup hk ho hv,
    fun p v hst hp => execPtFenceSelWrite_of_owner v hup hk hst hp,
    fun port => ⟨fun hst hd => ?disable, fun t ht h => execPortDisableDone_of_drained ht h, fun b hst hd hs hp => ?enable⟩,
    fun p hst hl hf hs => ?resume, fun v hst => ?unmask,
    fun o wdt wr hv => ⟨execBar0AccessInvalid_of_invalid wr hup hk hv, fun _ ho v => execRegisterWrite_of_invalid v hup hk ho hv⟩⟩
  case disable =>
    show execFpControlDisable port s = _
    rw [execFpControlDisable, barGuard_fpControl port hup hst, disablePort_of_enabled hd, next]
  case enable =>
    show execFpControlEnable port s = _
    rw [execFpControlEnable, barGuard_fpControl port hup hst, enablePort_of_disabled hd hs hp, next]
  case resume =>
    show execDbgResumeGo p s = _
    rw [execDbgResumeGo, barGuard_of_regWord hup s.fnLive_pf rfl (regWord_dbgResume hst hl)]
    exact congrArg next (resumePart_of_frozen hl hf hs)
  case unmask =>
    show execMsixUnmask k v s = _
    rw [execMsixUnmask_eq v hup hk hst, unmask_eq]

end Sys2Proof.Machine
end

section
/-! PROOFS. Matrix passes: what an integer group leaves in its INT32 accumulator (R81), what a pass that runs to its end writes, and how
a streamed command retires (R102, R154, R156). -/

namespace Sys2Proof.Machine

/-! Two's complement: the model's readings and those of bit vectors. -/

/-- The sign bit of a word is its top bit. -/
theorem bitOf_toNat_msb {w : Nat} (a : BitVec w) : bitOf a.toNat (w - 1) = a.msb := by
  rw [BitVec.msb_eq_getLsbD_last, BitVec.getLsbD, Nat.testBit_eq_decide_div_mod_eq, bitOf, Nat.shiftRight_eq_div_pow]
  rfl

/-- The signed reading of a word of `w` bits is its signed value. -/
theorem sInt_toNat {w : Nat} (a : BitVec w) : sInt w a.toNat = a.toInt := by
  rw [sInt, bitOf_toNat_msb, Nat.mod_eq_of_lt a.isLt, BitVec.toInt_eq_msb_cond]

/-- The low bits of a whole number are those of its word. -/
theorem uNat_eq_toNat_ofInt (w : Nat) (v : Int) : uNat w v = (BitVec.ofInt w v).toNat := (BitVec.toNat_ofInt v).symm

/-! The clamp to 32 bits. -/

theorem clampS32_of_fits {v : Int} (hlo : -2 ^ 31 ≤ v) (hhi : v < 2 ^ 31) : clampS 32 v = v := by
  unfold clampS
  omega

theorem clampS32_of_high {v : Int} (h : 2 ^ 31 ≤ v) : clampS 32 v = 2 ^ 31 - 1 := by
  unfold clampS
  omega

theorem clampS32_of_low {v : Int} (h : v < -2 ^ 31) : clampS 32 v = -2 ^ 31 := by
  unfold clampS
  omega

/-! One group of an integer pair. -/

/-- The exact sum of a group's products, as the model folds it. -/
theorem foldl_zipWith_mul (xs ws : List Int) :
    (List.zipWith (· * ·) xs ws).foldl (· + ·) 0 = ((List.zip xs ws).map fun e => e.1 * e.2).sum := by
  rw [← List.sum_eq_foldl, List.map_zip_eq_zipWith]
  rfl

/-- A group adds exactly before it meets the clamp (R81). -/
theorem intStep_toNat (acc : BitVec 32) (xs ws : List Int) : intStep acc.toNat xs ws =
    (let v := acc.toInt + ((List.zip xs ws).map fun e => e.1 * e.2).sum
     (uNat 32 (clampS 32 v), if clampS 32 v = v then 0 else isatFlag)) := by
  rw [intStep, sInt_toNat, foldl_zipWith_mul]

/-- Settles O17: the group's sum is exact, and the three cases are those of the clamp that it meets (R81). -/
theorem integerGroupSaturates : Obligations.IntegerGroupSaturates := by
  unfold Obligations.IntegerGroupSaturates
  intro acc xs ws v
  have hstep : intStep acc.toNat xs ws = (uNat 32 (clampS 32 v), if clampS 32 v = v then 0 else isatFlag) :=
    intStep_toNat acc xs ws
  refine ⟨fun hlo hhi => ?fits, fun h => ?high, fun h => ?low⟩
  case fits => rw [hstep, clampS32_of_fits hlo hhi, if_pos rfl, uNat_eq_toNat_ofInt]
  case high =>
    have hne : (2 ^ 31 - 1 : Int) ≠ v := by omega
    rw [hstep, clampS32_of_high h, if_neg hne]
    rfl
  case low =>
    have hne : (-2 ^ 31 : Int) ≠ v := by omega
    rw [hstep, clampS32_of_low h, if_neg hne]
    rfl

/-! Passes and commands of a tile. -/

/-- A pass that runs to its end leaves its results in the tile and is counted with its flags in its command; the conflicts that it meets
are counted first. -/
theorem execMatrixPassStart_of_ok {s s1 : State} {p : Fin 8} {t : Fin 16} {conf : Nat} {sp : Spc} {r : Run} {i : Nat} {c : MCmd}
    {y : Tile} {f : Nat} (hf : (s.part p).frozen = false) (hr : (s.tile p t).run = some r) (hs : countConflicts s p t conf sp = s1)
    (hi : nextPass (s.tile p t).mq = some i) (hc : (s.tile p t).mq[i]? = some c)
    (hrun : runPass (s1.tile p t) (s1.cp r.ctx p).cbW (s1.cp r.ctx p).cbA r.cbMask c = .ok (y, f)) :
    execMatrixPassStart p t conf sp s = .next (s1.setTile p t (Tile.touch
      { y with mq := y.mq.set i { c with pass := c.pass + 1, flags := flagsOr c.flags f } } (s1.part p).count)) := by
  simp [execMatrixPassStart, next, hf, hr, hs, hi, hc, hrun]

/-- The oldest command retires once its passes have all streamed, and its flags join the kernel's (R102, R154). -/
theorem execMatrixCommandComplete_of_streamed {s : State} {p : Fin 8} {t : Fin 16} {r : Run} {c : MCmd} {rest : List MCmd}
    (hf : (s.part p).frozen = false) (hr : (s.tile p t).run = some r) (hq : (s.tile p t).mq = c :: rest) (hc : c.total ≤ c.pass) :
    execMatrixCommandComplete p t s = .next (s.setTile p t
      { s.tile p t with mq := rest, run := some { r with astat := flagsOr r.astat c.flags, progress := (s.part p).count } }) := by
  have hlt : ¬c.pass < c.total := Nat.not_lt.2 hc
  simp [execMatrixCommandComplete, next, hf, hr, hq, hlt]

/-- Settles O16: a pass that runs to its end and a command that has streamed take the one path that each step has left. That the pass's
arithmetic happens as a whole and that the conflicts come as an operand are the model's readings (log entries 24 and 28). -/
theorem matrixPassesRunAndRetire : Obligations.MatrixPassesRunAndRetire := by
  unfold Obligations.MatrixPassesRunAndRetire
  intro s p t r sp x hf hr
  refine ⟨?pass, fun c rest hq hc => ?complete⟩
  case pass =>
    intro conf i f c y s1 hi hc hrun
    show execMatrixPassStart p t conf sp s = _
    exact execMatrixPassStart_of_ok hf hr rfl hi hc hrun
  case complete =>
    show execMatrixCommandComplete p t s = _
    exact execMatrixCommandComplete_of_streamed hf hr hq hc

end Sys2Proof.Machine
end

section
/-! PROOFS. Words that put work into a tile's queues, and the words that wait for it (R150 to R153, R214 to R216, R413, R451): a word
whose reserved bits are 0 and whose queue has room is decided by what it reads in AM, and a word that waits stays where it is. -/

namespace Sys2Proof.Machine

section
variable {s : State} {p : Fin 8} {t : Fin 16} {r : Run} {w : Nat}

/-! The guards of the words. -/

/-- Two fields of 0 pass the test of the reserved bits. -/
theorem reserved_clear {a b : Nat} (ha : a = 0) (hb : b = 0) : ¬(a != 0 || b != 0) = true := by simp [ha, hb]

/-- A wait word with its reserved bits 0 and a COUNT that its queue can hold passes its test. -/
theorem wait_legal {a c : Nat} (ha : a = 0) (hc : c < 4) : ¬(a != 0 || 4 ≤ c) = true := by simp [ha, hc]

/-- A wait word moves on exactly when at most COUNT entries are outstanding. -/
theorem wait_eq_ite_le (s : State) (p : Fin 8) (t : Fin 16) (r : Run) (x : Tile) (c n : Nat) :
    (if c < n then s else finish s p t x r) = if n ≤ c then movedOn s p t r x else s := by
  simp only [← Nat.not_le, ite_not]
  rfl

/-! MMUL (R150 to R153, R166). -/

/-- An MMUL stalls while four commands are outstanding (R153). -/
theorem execMmul_of_full (h : Stands s p t 0x40 r w) (hi : bitsOf w 55 52 = 0) (lo : bitsOf w 33 15 = 0)
    (hfull : maxMatrix ≤ (s.tile p t).mq.length) : execMmul p t s = .next s := by
  rw [execMmul, issue_stands h, if_neg (reserved_clear hi lo), if_pos hfull, next]

/-- An MMUL whose descriptor reads well and meets no refusal adds its command. -/
theorem execMmul_of_accepted {c : MCmd} (h : Stands s p t 0x40 r w) (hi : bitsOf w 55 52 = 0) (lo : bitsOf w 33 15 = 0)
    (hroom : (s.tile p t).mq.length < maxMatrix) (hregs : (s.tile p t).regBad [] [] (offRegs w) = false)
    (hread : readCmd (s.tile p t) w = .ok c) (hok : c.refusal (bitOf w 39) (bitOf w 45) (64 * bitsOf w 14 0) = none) :
    execMmul p t s = .next (movedOn s p t r { s.tile p t with mq := (s.tile p t).mq ++ [c] }) := by
  rw [execMmul, issue_stands h, if_neg (reserved_clear hi lo), if_neg (Nat.not_le.2 hroom), withRegs_clean hregs]
  simp only [hread, hok]
  rfl

/-! MMULG (R451 to R463). -/

/-- An MMULG stalls as an MMUL does (R153); O15 has no clause for it. -/
theorem execMmulg_of_full (h : Stands s p t 0x50 r w) (hi : bitsOf w 55 52 = 0) (lo : bitsOf w 33 30 = 0)
    (hfull : maxMatrix ≤ (s.tile p t).mq.length) : execMmulg p t s = .next s := by
  rw [execMmulg, issue_stands h, if_neg (reserved_clear hi lo), if_pos hfull, next]

/-- The command that an MMULG adds: the one that its header gives, with the extension g, the mask and, under GACC, its buffers (R452,
R458, R459). -/
def mmulgCmd (x : Tile) (r : Run) (c : MCmd) (g : List Nat) : MCmd :=
  let b := if bitOf (wd g 0) 31 then gaccBufs x r g else (none, 0)
  { c with gext := some g, gsrc := b.1, gdst := b.2
           mask := memRead x.am.bytes (bitsOf (wd g 1) 20 0) (maskBytes (bitsOf (wd g 0) 30 29) (subM (c.subs.headD []))) }

/-- What the run notes of an MMULG with extension g: under GACC the tensor and its two buffers (R458). -/
def mmulgRun (r : Run) (g : List Nat) : Run :=
  if bitOf (wd g 0) 31 then
    { r with gnamed := setIns r.gnamed (bitsOf (wd g 0) 7 0)
             gbufs := tabSet r.gbufs (bitsOf (wd g 0) 7 0) (bitsOf (wd g 2) 19 0, bitsOf (wd g 3) 19 0) }
  else r

/-- An MMULG whose extension, descriptor and mask read well and meet no refusal adds its command, and the run notes the tensor. -/
theorem execMmulg_of_accepted {c : MCmd} {g : List Nat} (h : Stands s p t 0x50 r w) (hi : bitsOf w 55 52 = 0)
    (lo : bitsOf w 33 30 = 0) (hroom : (s.tile p t).mq.length < maxMatrix) (hregs : (s.tile p t).regBad [] [] (offRegs w) = false)
    (hg : memWords (s.tile p t).am.bytes (64 * bitsOf w 29 15) 16 = g)
    (hgline : (s.tile p t).am.readErr (64 * bitsOf w 29 15) 64 = none) (hread : readCmd (s.tile p t) w = .ok c)
    (hgood : gradBad c g = false)
    (hmask : (s.tile p t).am.readErr (bitsOf (wd g 1) 20 0)
      (maskBytes (bitsOf (wd g 0) 30 29) (subM (c.subs.headD []))) = none)
    (hok : (mmulgCmd (s.tile p t) r c g).refusal (bitOf w 39) (bitOf w 45) (64 * bitsOf w 14 0) = none) :
    execMmulg p t s = .next (movedOn s p t (mmulgRun r g)
      { s.tile p t with mq := (s.tile p t).mq ++ [mmulgCmd (s.tile p t) r c g] }) := by
  rw [execMmulg, issue_stands h, if_neg (reserved_clear hi lo), if_neg (Nat.not_le.2 hroom), withRegs_clean hregs]
  rw [mmulgCmd] at hok
  simp only [hg, hgline, hread, hgood, hmask, hok]
  rfl

/-! DMA (R214 to R216, R225). -/

/-- A DMA stalls while eight descriptors are outstanding (R216). -/
theorem execDma_of_full (h : Stands s p t 0x42 r w) (hi : bitsOf w 55 52 = 0) (lo : bitsOf w 39 15 = 0)
    (hfull : maxDma ≤ (s.tile p t).dq.length) : execDma p t s = .next s := by
  rw [execDma, issue_stands h, if_neg (reserved_clear hi lo), if_pos hfull, next]

/-- A DMA whose descriptor reads well and is valid adds it to the queue. -/
theorem execDma_of_accepted {d : List Nat} {so dof : Nat} (h : Stands s p t 0x42 r w) (hi : bitsOf w 55 52 = 0)
    (lo : bitsOf w 39 15 = 0) (hroom : (s.tile p t).dq.length < maxDma)
    (hregs : (s.tile p t).regBad [] []
      ((if bitOf w 51 then [bitsOf w 50 46] else []) ++ (if bitOf w 45 then [bitsOf w 44 40] else [])) = false)
    (hline : (s.tile p t).am.readErr (64 * bitsOf w 14 0) 64 = none)
    (hd : memWords (s.tile p t).am.bytes (64 * bitsOf w 14 0) 16 = d)
    (hso : (if bitOf w 51 then (s.tile p t).sreg (bitsOf w 50 46) else 0) = so)
    (hdof : (if bitOf w 45 then (s.tile p t).sreg (bitsOf w 44 40) else 0) = dof)
    (hok : dmaBad (s.cp r.ctx p).cbW (r.cbMask % 256) d (addr48 d 2 + so) (addr48 d 4 + dof) = false) :
    execDma p t s = .next (movedOn s p t r { s.tile p t with dq := (s.tile p t).dq ++ [{ job := .desc d so dof }] }) := by
  rw [execDma, issue_stands h, if_neg (reserved_clear hi lo), if_neg (Nat.not_le.2 hroom), withRegs_clean hregs]
  simp only [hline, hd, hso, hdof, hok]
  rfl

/-! MWAIT, DWAIT and KVWAIT (R150, R214, R413). -/

/-- MWAIT waits for matrix commands; a COUNT of four and above is illegal. -/
theorem execMwait_eq_ite_le (h : Stands s p t 0x41 r w) (hres : bitsOf w 55 3 = 0) (hcount : bitsOf w 2 0 < 4) :
    execMwait p t s = .next (if (s.tile p t).mq.length ≤ bitsOf w 2 0 then movedOn s p t r (s.tile p t) else s) := by
  rw [execMwait, issue_stands h, if_neg (wait_legal hres hcount), wait_eq_ite_le, next]

/-- DWAIT waits for DMA descriptors; every COUNT is legal. -/
theorem execDwait_eq_ite_le (h : Stands s p t 0x43 r w) (hres : bitsOf w 55 3 = 0) :
    execDwait p t s = .next (if (s.tile p t).dq.length ≤ bitsOf w 2 0 then movedOn s p t r (s.tile p t) else s) := by
  rw [execDwait, issue_stands h, if_neg (by simp [hres]), wait_eq_ite_le, next]

/-- KVWAIT waits for appends; a COUNT of four and above is illegal. -/
theorem execKvwait_eq_ite_le (h : Stands s p t 0x45 r w) (hres : bitsOf w 55 3 = 0) (hcount : bitsOf w 2 0 < 4) :
    execKvwait p t s = .next (if (s.tile p t).kvq.length ≤ bitsOf w 2 0 then movedOn s p t r (s.tile p t) else s) := by
  rw [execKvwait, issue_stands h, if_neg (wait_legal hres hcount), wait_eq_ite_le, next]

end

/-- Settles O15: a word that adds to a queue passes its guards in the order of the model, reserved bits, room, registers, lines of AM,
checks, and then only the entry is left to add; a word at a full queue and a wait word leave the state as it is until the queue has
drained (R153, R214, R216, R413). -/
theorem queueAndWaitWordsComplete : Obligations.QueueAndWaitWordsComplete := by
  unfold Obligations.QueueAndWaitWordsComplete
  refine ⟨fun s p t r w => ⟨?mmul, ?mmulg, ?dma, ?mmulFull, ?dmaFull⟩, fun s p t r w hres => ⟨?mwait, ?dwait, ?kvwait⟩⟩
  case mmul => exact fun _ => execMmul_of_accepted
  case mmulg => exact fun _ h hi lo hroom hregs => execMmulg_of_accepted h hi lo hroom hregs rfl
  case dma => exact fun h hi lo hroom hregs hline => execDma_of_accepted h hi lo hroom hregs hline rfl rfl rfl
  case mmulFull => exact execMmul_of_full
  case dmaFull => exact execDma_of_full
  case mwait => exact fun h => execMwait_eq_ite_le h hres
  case dwait => exact fun h => execDwait_eq_ite_le h hres
  case kvwait => exact fun h => execKvwait_eq_ite_le h hres

end Sys2Proof.Machine
end

section
/-! PROOFS. Codebook slots (R264 to R273, R1112): a load or a release that passes its checks drains the slots that it names, a written
slot settles its load, and a load whose limit has passed ends where a slot still waits. -/

namespace Sys2Proof.Machine

/-! Loads and releases: their checks, then the slots that they name. -/

section
variable {s u : State} {k : Fin 9} {r : Req} {w0 : Nat}

/-- A CODEBOOK_LOAD whose checks pass gives its target slots their new contents and drains them (R249, R264 to R268). -/
theorem execCodebookLoad_of_accepted (hw0 : wd r.payload 0 = w0) (h : Asked s k 0x0510 r u)
    (hres : NoBits r [0x0000FC38, 0, 0xFFFFFFFF, 0xFFFFFFFF]) (hes : cbBad (cbEntries r.payload) = false)
    (hkinds : bitsOf w0 9 8 ≠ 0) (hgen : w0 / 65536 ≠ 0)
    (hts : ∀ q ∈ allTargets u r.ctx w0, q.gen ≠ w0 / 65536 ∧ cbBusy q = false)
    (hrefs : bitOf w0 7 = true → ∀ q ∈ allTargets u r.ctx w0, q.refs = 0) :
    execCodebookLoad k s = .next ((u.ctx r.ctx).parts.foldl (fun v p => modTargets v r.ctx p w0 fun q =>
      drainSlot { q with st := .loadWait, next := some (bitOf w0 6, w0 / 65536, cbEntries r.payload, u.nextOp) })
      (limitedOp u k r (u.ctx r.ctx).parts (wd r.payload 1))) := by
  subst hw0
  have hnew : ((allTargets u r.ctx (wd r.payload 0)).any fun q => q.gen == wd r.payload 0 / 65536) = false := by
    simpa using fun q hq => (hts q hq).1
  have hidle : (allTargets u r.ctx (wd r.payload 0)).any cbBusy = false := by simpa using fun q hq => (hts q hq).2
  have hnowait : (bitOf (wd r.payload 0) 7 && (allTargets u r.ctx (wd r.payload 0)).any fun q => q.refs != 0) = false := by
    simpa using hrefs
  rw [execCodebookLoad, runOp_asked h, next]
  refine congrArg _ (checked_go ?_)
  exact firstBad_reserved _ hres <| firstBad_cons hes <| firstBad_cons (by simpa using hkinds) <|
    firstBad_cons (by simpa using hgen) <| firstBad_cons hnew <| firstBad_cons hidle <| firstBad_cons hnowait firstBad_nil

/-- A CODEBOOK_RELEASE whose checks pass drains the target slots that are not empty already (R265, R272). -/
theorem execCodebookRelease_of_accepted (hw0 : wd r.payload 0 = w0) (h : Asked s k 0x0511 r u) (hres : NoBits r [0xFFFFFCF8])
    (hkinds : bitsOf w0 9 8 ≠ 0) (hts : ∀ q ∈ allTargets u r.ctx w0, cbBusy q = false) :
    execCodebookRelease k s = .next (settleReleases ((u.ctx r.ctx).parts.foldl (fun v p =>
      modTargets v r.ctx p w0 fun q => if q.st == .empty then q else drainSlot { q with st := .releaseWait })
      (longOp u k r (u.ctx r.ctx).parts 0 0)) r.ctx) := by
  subst hw0
  have hidle : (allTargets u r.ctx (wd r.payload 0)).any cbBusy = false := by simpa using hts
  rw [execCodebookRelease, runOp_asked h, next]
  refine congrArg _ (checked_go ?_)
  exact firstBad_reserved _ hres <| firstBad_cons (by simpa using hkinds) <| firstBad_cons hidle firstBad_nil

end

/-! Written slots, and the load that they belong to (R268, R270, R1049). -/

/-- A load with no slot left to write is measured and answers. -/
theorem settleLoad_of_written {s : State} {c n : Nat} {l : LongOp} (hl : tabFind s.ops n = some l)
    (hdone : l.todo.all (fun p => !cbLeft s c p n) = true) :
    settleLoad s c n =
      endOp (extendCmr { s with ops := tabSet s.ops n { l with todo := [] } } c 0x0510 (wordsBytes l.payload)) n 0 [] := by
  have hleft : (l.todo.filter fun p => cbLeft s c p n) = [] := by simpa [List.filter_eq_nil_iff] using hdone
  simp [settleLoad, hl, hleft]

/-- A load with a slot left to write keeps the partitions that have one. -/
theorem settleLoad_of_left {s : State} {c n : Nat} {l : LongOp} (hl : tabFind s.ops n = some l)
    (hmore : l.todo.any (fun p => cbLeft s c p n) = true) :
    settleLoad s c n = { s with ops := tabSet s.ops n { l with todo := l.todo.filter fun p => cbLeft s c p n } } := by
  have hleft : (l.todo.filter fun p => cbLeft s c p n) ≠ [] := by simpa [List.filter_eq_nil_iff] using hmore
  simp [settleLoad, hl, hleft]

/-- A slot in WRITING is VALID with its new contents, and its load is settled. -/
theorem execCodebookSlotWriteDone_of_writing {s : State} {p : Fin 8} {c : Fin 64} {a : Bool} {q : Fin 8} {o : CbSlot} {size32 : Bool}
    {gen n : Nat} {es : List (Nat × Nat)} (ho : tabGet {} (if a then (s.cp c p).cbA else (s.cp c p).cbW) q = o)
    (hst : o.st = .writing) (hnext : o.next = some (size32, gen, es, n)) :
    execCodebookSlotWriteDone p c a q s = .next (
      let o1 : CbSlot := { st := .valid, size32, gen, entries := es, refs := o.refs }
      settleLoad (s.setCp c p (if a then { s.cp c p with cbA := tabSet (s.cp c p).cbA q o1 }
        else { s.cp c p with cbW := tabSet (s.cp c p).cbW q o1 })) c n) := by
  simp only [execCodebookSlotWriteDone, next, ho, hst, hnext, CbSlot.written]

/-! The wait limit (R269, R270). -/

/-- The load that the limit looks for ends where one of its slots still waits. -/
theorem execCodebookWaitLimit_of_due {s : State} {c : Fin 64} {q : Fin 8} {n : Nat} {o : LongOp}
    (h : (s.ops.find? fun e => e.2.opcode == 0x0510 && e.2.ctx == c.val && wd e.2.payload 0 % 8 == q.val &&
      e.2.deadline.any (· ≤ s.hub)) = some (n, o)) :
    execCodebookWaitLimit c q s = .next (if cbWaiting s c n then endOp (stopCodebook s c n) n 0x0504 [] else s) := by
  rw [execCodebookWaitLimit, next, (List.find?_congr fun e _ => ?samePredicate).trans h]
  case samePredicate =>
    dsimp only
    cases e.2.deadline <;> rfl

/-- Settles O40: a load or a release that passes its checks has only its slots left to drain; a written slot settles its load, which
answers or goes on by whether a slot is left; the wait limit finds the load that it is due for; a query reads the slots, where one in
WRITING still tells its old SIZE and GEN (R264 to R273; log entry 128). -/
theorem codebooksLoadAndRelease : Obligations.CodebooksLoadAndRelease := by
  unfold Obligations.CodebooksLoadAndRelease
  refine fun s u k r => ⟨?load, ?release, fun p q c a size32 gen n es hst hnext => ?written, fun c q n o => ?limit, fun h => ?query⟩
  case load => exact execCodebookLoad_of_accepted rfl
  case release => exact execCodebookRelease_of_accepted rfl
  case written =>
    have hexec := execCodebookSlotWriteDone_of_writing rfl hst hnext
    exact ⟨fun l hl hdone => hexec.trans (congrArg _ (settleLoad_of_written hl hdone)),
      fun l hl hmore => hexec.trans (congrArg _ (settleLoad_of_left hl hmore))⟩
  case limit => exact execCodebookWaitLimit_of_due
  case query =>
    show execCodebookQuery k s = _
    rw [execCodebookQuery, runOp_asked h, next]

end Sys2Proof.Machine
end

section
/-! PROOFS. Words of the sequencer and the scalar unit (R288 to R299, R343 to R345, R1110): where the tile stands after a word, what each
word leaves where its checks pass, and which words end the kernel. -/

namespace Sys2Proof.Machine

section
variable {s : State} {p : Fin 8} {t : Fin 16} {r : Run} {w : Nat}

/-! The end of a loop body (R290). -/

/-- The last word of a body starts the next iteration while iterations are left. -/
theorem loopBack_of_left {f : LoopFrame} {pc : Nat} (fs : List LoopFrame) (hpc : pc = f.stop) (hleft : f.iter + 1 < f.count) :
    loopBack (f :: fs) pc = (f.start, { f with iter := f.iter + 1 } :: fs, [(f.idx, f.iter + 1)]) := by
  rw [loopBack, if_pos hpc, if_pos hleft]

/-- A word that ends no body goes to the next word. -/
theorem loopBack_of_inside {fs : List LoopFrame} {pc : Nat} (h : ∀ g ∈ fs.head?, pc ≠ g.stop) : loopBack fs pc = (pc, fs, []) := by
  cases fs with
  | nil => rfl
  | cons g gs => rw [loopBack, if_neg (h g rfl)]

/-- The last word of a body leaves the loop after the last iteration. -/
theorem loopBack_of_done {f : LoopFrame} {fs : List LoopFrame} {pc : Nat} (hpc : pc = f.stop) (hdone : f.count ≤ f.iter + 1)
    (hfs : ∀ g ∈ fs.head?, pc ≠ g.stop) : loopBack (f :: fs) pc = (pc, fs, []) := by
  rw [loopBack, if_pos hpc, if_neg (Nat.not_lt.2 hdone), loopBack_of_inside hfs]

/-- The end of a body writes the index register of a loop that the tile is in. -/
theorem loopBack_writes {fs : List LoopFrame} {pc : Nat} {e : Nat × Nat} (h : e ∈ (loopBack fs pc).2.2) : ∃ f ∈ fs, f.idx = e.1 := by
  induction fs with
  | nil => simp [loopBack] at h
  | cons f fs ih =>
    rw [loopBack] at h
    split at h
    · split at h
      · rw [List.mem_singleton] at h
        exact ⟨f, List.mem_cons_self, by rw [h]⟩
      · obtain ⟨g, hg, hidx⟩ := ih h
        exact ⟨g, List.mem_cons_of_mem _ hg, hidx⟩
    · simp at h

/-! What moving on leaves of the tile. -/

/-- Writes to other scalars leave a scalar. -/
theorem Tile.sreg_foldl_setS_ne {k : Nat} {ws : List (Nat × Nat)} (x : Tile) (h : ∀ e ∈ ws, k ≠ e.1) :
    (ws.foldl (fun (y : Tile) e => y.setS e.1 e.2) x).sreg k = x.sreg k := by
  induction ws generalizing x with
  | nil => rfl
  | cons e ws ih =>
    obtain ⟨he, hws⟩ := List.forall_mem_cons.1 h
    rw [List.foldl_cons, ih _ hws, Tile.sreg_setS_ne _ _ he]

/-- Moving on leaves every scalar that is no loop's index register. -/
theorem Tile.sreg_advance_ne (x : Tile) {r : Run} {k : Nat} (now : Nat) (h : ∀ f ∈ r.loops, f.idx ≠ k) :
    (x.advance r now).sreg k = x.sreg k := by
  refine Tile.sreg_foldl_setS_ne x fun e he hk => ?_
  obtain ⟨f, hf, hidx⟩ := loopBack_writes he
  exact h f hf (hidx.trans hk.symm)

@[simp] theorem Tile.spad_advance (x : Tile) (r : Run) (now : Nat) (q : Spc) : (x.advance r now).spad q = x.spad q := by
  obtain ⟨_, _, _, h⟩ := x.advance_frame r now
  rw [h]
  cases q <;> rfl

@[simp] theorem Tile.v_advance (x : Tile) (r : Run) (now : Nat) : (x.advance r now).v = x.v := by
  obtain ⟨_, _, _, h⟩ := x.advance_frame r now
  rw [h]

@[simp] theorem Tile.m_advance (x : Tile) (r : Run) (now : Nat) : (x.advance r now).m = x.m := by
  obtain ⟨_, _, _, h⟩ := x.advance_frame r now
  rw [h]

@[simp] theorem Tile.v_setSpad (x : Tile) (k : Spc) (d : Spad) : (x.setSpad k d).v = x.v := by cases k <;> rfl
@[simp] theorem Tile.m_setSpad (x : Tile) (k : Spc) (d : Spad) : (x.setSpad k d).m = x.m := by cases k <;> rfl

/-- A word that has its effect moves the tile on. -/
theorem finish_eq_movedOn (s : State) (p : Fin 8) (t : Fin 16) (x : Tile) (r : Run) : finish s p t x r = movedOn s p t r x := rfl

/-! NOP, SLI, SALU, SLD, SST (R297, R298). -/

theorem execNop_of_stands (h : Stands s p t 0x00 r w) (hres : bitsOf w 55 0 = 0) :
    execNop p t s = .next (movedOn s p t r (s.tile p t)) := by
  rw [execNop, issue_stands h, if_neg (by simp [hres]), finish_eq_movedOn, next]

/-- A NOP with a reserved bit is illegal. -/
theorem execNop_of_reserved (h : Stands s p t 0x00 r w) (hres : bitsOf w 55 0 ≠ 0) : execNop p t s = .next (illegal s p t r) := by
  rw [execNop, issue_stands h, if_pos (by simpa using hres), next]

theorem execSli_of_stands (h : Stands s p t 0x03 r w) (hres : bitsOf w 55 37 = 0) :
    execSli p t s = .next (movedOn s p t r ((s.tile p t).setS (bitsOf w 36 32) (bitsOf w 31 0))) := by
  rw [execSli, issue_stands h, if_neg (by simp [hres]), finish_eq_movedOn, next]

theorem execSalu_of_clean (h : Stands s p t 0x04 r w) (hres : bitsOf w 55 48 = 0) (hfn : bitsOf w 47 44 < 9)
    (hregs : (s.tile p t).regBad [] [] (if bitOf w 43 then [bitsOf w 37 33] else [bitsOf w 37 33, bitsOf w 32 28]) = false) :
    execSalu p t s = .next (movedOn s p t r ((s.tile p t).setS (bitsOf w 42 38) (saluFn (bitsOf w 47 44)
      ((s.tile p t).sreg (bitsOf w 37 33)) (if bitOf w 43 then bitsOf w 27 0 else (s.tile p t).sreg (bitsOf w 32 28))))) := by
  rw [execSalu, issue_stands h, if_neg (by simpa [hres] using hfn), withRegs_clean hregs, finish_eq_movedOn, next]

/-- An aligned address with its four bytes inside the scratchpad is none that R345 refuses. -/
theorem wordAddress_legal {a size : Nat} (halign : a % 4 = 0) (hin : a + 4 ≤ size) : ¬(a % 4 != 0 || size < a + 4) = true := by
  simpa [halign] using hin

/-- SLD at an address of its scratchpad whose line reads well. -/
theorem execSld_of_readable {a : Nat} {sp : Spc} (hsp : spaceBit (bitOf w 37) = sp)
    (ha : (s.tile p t).sreg (bitsOf w 36 32) + bitsOf w 20 0 = a) (h : Stands s p t 0x05 r w) (hres : sldReserved w = false)
    (hbase : (s.tile p t).badS.contains (bitsOf w 36 32) = false) (halign : a % 4 = 0) (hin : a + 4 ≤ Spc.size sp)
    (hline : ((s.tile p t).spad sp).readErr a 4 = none) :
    execSld p t s = .next (movedOn s p t r
      ((s.tile p t).setS (bitsOf w 42 38) (memWord ((s.tile p t).spad sp).bytes a))) := by
  rw [execSld, issue_stands h]
  simp only [hsp, ha, hres, hline]
  rw [withRegs_clean (by simpa [Tile.regBad] using hbase), if_neg (wordAddress_legal halign hin)]
  rfl

/-- SST at an address of its scratchpad whose line can take the merge. -/
theorem execSst_of_mergeable {a : Nat} {sp : Spc} (hsp : spaceBit (bitOf w 37) = sp)
    (ha : (s.tile p t).sreg (bitsOf w 36 32) + bitsOf w 20 0 = a) (h : Stands s p t 0x06 r w) (hres : sldReserved w = false)
    (hbase : (s.tile p t).badS.contains (bitsOf w 36 32) = false) (hdata : (s.tile p t).badS.contains (bitsOf w 42 38) = false)
    (halign : a % 4 = 0) (hin : a + 4 ≤ Spc.size sp) (hline : ((s.tile p t).spad sp).mergeErr a 4 = none) :
    execSst p t s = .next (movedOn s p t r ((s.tile p t).setSpad sp
      (((s.tile p t).spad sp).write a (natLe 4 ((s.tile p t).sreg (bitsOf w 42 38))) false))) := by
  rw [execSst, issue_stands h]
  simp only [hsp, ha, hres, hline]
  rw [withRegs_clean (by simpa [Tile.regBad] using And.intro hbase hdata), if_neg (wordAddress_legal halign hin)]
  rfl

/-! LOOP (R290, R291). -/

/-- Where the body of a new loop must end: with the innermost loop that the tile is in, or with the image. -/
def Run.bodyLimit (r : Run) : Nat :=
  match r.loops with
  | f :: _ => f.stop
  | [] => r.image.length

/-- The fields of a LOOP that pass its test. -/
theorem loop_legal {res body count depth lim stop : Nat} (hres : res = 0) (hbody : body ≠ 0) (hcount : count ≠ 0) (hdepth : depth < 4)
    (hstop : stop ≤ lim) : ¬(res != 0 || body == 0 || count == 0 || 4 ≤ depth || lim < stop) = true := by
  simp [hres, hbody, hcount, hdepth, hstop]

/-- A LOOP that is legal enters its body with iteration 0. -/
theorem execLoop_of_legal (h : Stands s p t 0x02 r w) (hres : bitsOf w 55 37 = 0) (hbody : bitsOf w 31 16 ≠ 0)
    (hcount : bitsOf w 15 0 ≠ 0) (hdepth : r.loops.length < 4) (hstop : r.pc + 1 + bitsOf w 31 16 ≤ r.bodyLimit) :
    execLoop p t s = .next (s.setTile p t { (s.tile p t).setS (bitsOf w 36 32) 0 with
      run := some { r with
        pc := r.pc + 1, progress := (s.part p).count,
        loops := ⟨r.pc + 1, r.pc + 1 + bitsOf w 31 16, bitsOf w 15 0, 0, bitsOf w 36 32⟩ :: r.loops } }) := by
  rw [execLoop, issue_stands h, next]
  exact congrArg _ (if_neg (loop_legal hres hbody hcount hdepth hstop))

/-- At the end of a body with iterations left the tile goes back to the body's start, the iteration's number in the index register. -/
theorem Tile.advance_of_left (x : Tile) {r : Run} {f : LoopFrame} {fs : List LoopFrame} (now : Nat) (hloops : r.loops = f :: fs)
    (hpc : r.pc + 1 = f.stop) (hleft : f.iter + 1 < f.count) : x.advance r now =
      { x.setS f.idx (f.iter + 1) with
        run := some { r with pc := f.start, progress := now, loops := { f with iter := f.iter + 1 } :: fs } } := by
  rw [Tile.advance, hloops, loopBack_of_left fs hpc hleft]
  rfl

/-- At the end of the last iteration the tile leaves the loop. -/
theorem Tile.advance_of_done (x : Tile) {r : Run} {f : LoopFrame} {fs : List LoopFrame} (now : Nat) (hloops : r.loops = f :: fs)
    (hpc : r.pc + 1 = f.stop) (hdone : f.count ≤ f.iter + 1) (hfs : ∀ g ∈ fs.head?, r.pc + 1 ≠ g.stop) : x.advance r now =
      { x with run := some { r with pc := r.pc + 1, progress := now, loops := fs } } := by
  rw [Tile.advance, hloops, loopBack_of_done hpc hdone hfs]
  rfl

/-! END (R296). -/

/-- What a set of numbers holds after an addition. -/
@[simp] theorem mem_setIns {l : List Nat} {x y : Nat} : y ∈ setIns l x ↔ y = x ∨ y ∈ l := by
  induction l with
  | nil => simp [setIns]
  | cons z l ih =>
    rw [setIns]
    split
    · simp
    · split
      · next heq => simp [heq]
      · simp [ih, or_left_comm]

/-- A node that exists is changed in its place. -/
theorem State.modInst_of_some {s : State} {p n : Nat} {i : Inst} (h : s.inst? p n = some i) (f : Inst → Inst) :
    s.modInst p n f = s.setInst p n (f i) := by
  simp [State.modInst, h]

@[simp] theorem State.inst_setTile (s : State) (p t : Nat) (x : Tile) (q n : Nat) : (s.setTile p t x).inst? q n = s.inst? q n := rfl
@[simp] theorem State.tile_setInst (s : State) (p n : Nat) (i : Inst) (q u : Nat) : (s.setInst p n i).tile q u = s.tile q u := rfl

/-- Node i once tile t, which runs r, has handed over what it collected (R156, R198, R427, R463, R465). -/
def Inst.takeEnd (i : Inst) (t : Nat) (r : Run) : Inst :=
  { i with
    endedTiles := setIns i.endedTiles t, astat := flagsOr i.astat r.astat, conflicts := min (i.conflicts + r.conflicts) 65535
    pubs := tabSet i.pubs t r.pubs, gnamed := tabSet i.gnamed t r.gnamed, greleased := tabSet i.greleased t r.greleased
    ended := i.tiles.all (setIns i.endedTiles t).contains }

/-- The node has ended when every tile of its mask has. -/
theorem Inst.takeEnd_ended (i : Inst) (t : Nat) (r : Run) :
    (i.takeEnd t r).ended = true ↔ ∀ k ∈ i.tiles, k = t ∨ k ∈ i.endedTiles := by
  simp [Inst.takeEnd]

/-- END at a tile whose queues are empty ends the run and hands over to the node. -/
theorem execEndKernel_of_drained {i : Inst} (h : Stands s p t 0x01 r w) (hres : bitsOf w 55 0 = 0) (hi : s.inst? p r.inst = some i)
    (hmq : (s.tile p t).mq = []) (hdq : (s.tile p t).dq = []) (hkvq : (s.tile p t).kvq = []) :
    execEndKernel p t s = .next ((s.setTile p t { s.tile p t with run := some { r with ended := true } }).setInst p r.inst
      (i.takeEnd t r)) := by
  rw [execEndKernel, issue_stands h, if_neg (by simp [hres]), if_neg (by simp [hmq, hdq, hkvq])]
  exact congrArg _ (State.modInst_of_some (by rwa [State.inst_setTile]) _)

/-- END waits for a queue that holds an entry. -/
theorem execEndKernel_of_busy (h : Stands s p t 0x01 r w) (hres : bitsOf w 55 0 = 0)
    (hbusy : (s.tile p t).mq ≠ [] ∨ (s.tile p t).dq ≠ [] ∨ (s.tile p t).kvq ≠ []) : execEndKernel p t s = .next s := by
  rw [execEndKernel, issue_stands h, if_neg (by simp [hres]), if_pos (by simpa [or_assoc] using hbusy), next]

/-! Words that end the kernel (R299, R344, R1110). -/

/-- The model's test of an opcode is the list of R299. -/
theorem reservedOpcode_iff (op : Nat) : reservedOpcode op = true ↔
    (0x07 ≤ op ∧ op ≤ 0x0F) ∨ (0x25 ≤ op ∧ op ≤ 0x2F) ∨ (0x35 ≤ op ∧ op ≤ 0x37) ∨ op = 0x3B ∨ (0x3D ≤ op ∧ op ≤ 0x3F) ∨ op = 0x47 ∨
      (0x4B ≤ op ∧ op ≤ 0x4F) ∨ 0x53 ≤ op := by
  simp [reservedOpcode, or_assoc]

theorem execReservedOpcode_of_reserved {op : Nat} (h : Stands s p t op r w) (hop : reservedOpcode op = true) :
    execReservedOpcode p t s = .next (illegal s p t r) := by
  obtain ⟨hrun, hword, hended, rfl, hfrozen, hparity⟩ := h
  have hgood : r.pc ∉ (s.tile p t).badImem := by simpa using hparity
  simp [execReservedOpcode, next, hrun, hword, hended, hfrozen, hop, hgood]

theorem execImageOverrun_of_past (hrun : (s.tile p t).run = some r) (hended : r.ended = false) (hfrozen : (s.part p).frozen = false)
    (hpast : r.image.length ≤ r.pc) : execImageOverrun p t s = .next (illegal s p t r) := by
  simp [execImageOverrun, next, hrun, hended, hfrozen, hpast]

end

end Sys2Proof.Machine
end

section
/-! PROOFS. The statements about the sequencer and the scalar unit: the words as above, a store read back byte by byte, and the functions
of SALU (R290 to R299, R344, R1110). -/

namespace Sys2Proof.Machine

/-- Settles O2: a word of the scalar unit whose reserved bits are 0 and whose registers, address and line are good has one path left, its
effect and the move to the next word (R297, R298, R345). -/
theorem scalarWordsComplete : Obligations.ScalarWordsComplete := by
  unfold Obligations.ScalarWordsComplete
  intro s p t r w
  exact ⟨execNop_of_stands, execSli_of_stands, execSalu_of_clean, execSld_of_readable rfl rfl, execSst_of_mergeable rfl rfl⟩

/-! Bytes of a write, one by one. -/

/-- A byte inside a write reads as the byte written there, any other as before. -/
theorem memByte_memWrite {m : Mem} (h : m.wf = true) (a : Nat) (xs : List Byte) (b : Nat) :
    memByte (memWrite m a xs) b = if a ≤ b then xs.getD (b - a) (memByte m b) else memByte m b := by
  induction xs generalizing m a with
  | nil => simp [memWrite]
  | cons x xs ih =>
    rw [memWrite, ih (memPut_wf h a x)]
    rcases Nat.lt_trichotomy b a with hlt | rfl | hgt
    · rw [if_neg (by omega), if_neg (by omega), memByte_memPut_ne _ _ (by omega)]
    · simp [memByte_memPut h]
    · have hidx : b - a = b - (a + 1) + 1 := by omega
      rw [if_pos (by omega), if_pos (by omega), memByte_memPut_ne _ _ (by omega), hidx, List.getD_cons_succ]

@[simp] theorem Spad.bytes_write (d : Spad) (a : Nat) (bs : List Byte) (poisoned : Bool) :
    (d.write a bs poisoned).bytes = memWrite d.bytes a bs := rfl

@[simp] theorem length_natLe (n v : Nat) : (natLe n v).length = n := by
  induction n generalizing v with
  | zero => rfl
  | succ n ih => rw [natLe, List.length_cons, ih]

/-- Byte k of a value (R11). -/
theorem getD_natLe {n k : Nat} (v : Nat) (d : Byte) (hk : k < n) : (natLe n v).getD k d = BitVec.ofNat 8 (v / 256 ^ k) := by
  induction n generalizing v k with
  | zero => omega
  | succ n ih =>
    cases k with
    | zero => simp [natLe]
    | succ k => rw [natLe, List.getD_cons_succ, ih _ (by omega), Nat.div_div_eq_div_mul, ← Nat.pow_succ']

/-- The tile after a word that has its effect. -/
@[simp] theorem tile_movedOn (s : State) (p : Fin 8) (t : Fin 16) (r : Run) (y : Tile) :
    (movedOn s p t r y).tile p t = y.advance r (s.part p).count := State.tile_setTile _ _ _ _

/-- Settles O3: the store of O2 read back byte by byte; moving on writes no scalar but the index registers of the loops that the tile is
in (R290, R298). -/
theorem scalarStoreTouchesFourBytes : Obligations.ScalarStoreTouchesFourBytes := by
  unfold Obligations.ScalarStoreTouchesFourBytes
  intro s p t r w x sp a h hres hbase hdata halign hin hline hwf
  have hexec : exec (.sst p t) s =
      .next (movedOn s p t r (x.setSpad sp ((x.spad sp).write a (natLe 4 (x.sreg (bitsOf w 42 38))) false))) :=
    execSst_of_mergeable rfl rfl h hres hbase hdata halign hin hline
  refine ⟨_, hexec, ?_⟩
  rw [tile_movedOn]
  refine ⟨fun b hb => ?outside, fun k hk => ?inside, fun q hq => ?others, ?vectors, ?masks, fun k hk => ?scalars⟩
  case outside =>
    rw [Tile.spad_advance, Tile.spad_setSpad, Spad.bytes_write, memByte_memWrite_out _ _ _ _ (by rwa [length_natLe])]
  case inside =>
    rw [Tile.spad_advance, Tile.spad_setSpad, Spad.bytes_write, memByte_memWrite hwf, if_pos (Nat.le_add_right _ _),
      Nat.add_sub_cancel_left, getD_natLe _ _ hk]
  case others => rw [Tile.spad_advance, Tile.spad_setSpad_ne _ _ hq]
  case vectors => rw [Tile.v_advance, Tile.v_setSpad]
  case masks => rw [Tile.m_advance, Tile.m_setSpad]
  case scalars => rw [Tile.sreg_advance_ne _ _ hk, Tile.sreg_setSpad]

/-! The functions of SALU (R297). -/

/-- A result that is the number of a word is that word. -/
theorem ofNat_of_eq_toNat {n : Nat} {c : BitVec 32} (h : n = c.toNat) : BitVec.ofNat 32 n = c := by
  rw [h, BitVec.ofNat_toNat, BitVec.setWidth_eq]

/-- FN 1 adds 2^32 before it subtracts, so that no difference is cut at 0. -/
theorem saluFn_sub (a b : BitVec 32) : BitVec.ofNat 32 (saluFn 1 a.toNat b.toNat) = a - b := by
  simp only [saluFn.eq_def]
  bv_omega

/-- The quotient by a power of two that FN 8 takes is the arithmetic shift. -/
theorem ofInt_toInt_div_two_pow (a : BitVec 32) (n : Nat) : BitVec.ofInt 32 (a.toInt / 2 ^ n) = a.sshiftRight n := by
  rw [BitVec.sshiftRight, Int.shiftRight_eq_div_pow]
  norm_cast

theorem saluFn_sra (a b : BitVec 32) : BitVec.ofNat 32 (saluFn 8 a.toNat b.toNat) = a.sshiftRight (b.toNat % 32) := by
  have hfn : saluFn 8 a.toNat b.toNat = uNat 32 (sInt 32 a.toNat / 2 ^ (b.toNat % 32)) := rfl
  rw [hfn, sInt_toNat, uNat_eq_toNat_ofInt, BitVec.ofNat_toNat, BitVec.setWidth_eq, ofInt_toInt_div_two_pow]

/-- Settles O4: each FN is read off its own case of the unit; the words of the operands reduce what wraps (R297). -/
theorem scalarUnitWraps : Obligations.ScalarUnitWraps := by
  unfold Obligations.ScalarUnitWraps
  intro a b
  refine ⟨ofNat_of_eq_toNat ?add, saluFn_sub a b, ofNat_of_eq_toNat ?mul, ofNat_of_eq_toNat ?and, ofNat_of_eq_toNat ?or,
    ofNat_of_eq_toNat ?xor, ofNat_of_eq_toNat ?shl, ofNat_of_eq_toNat ?shr, saluFn_sra a b⟩
  case add => exact (BitVec.toNat_add a b).symm
  case mul => exact (BitVec.toNat_mul a b).symm
  case and => exact (BitVec.toNat_and a b).symm
  case or => exact (BitVec.toNat_or a b).symm
  case xor => exact (BitVec.toNat_xor a b).symm
  case shl => exact (BitVec.toNat_shiftLeft.trans (congrArg (· % 2 ^ 32) (Nat.shiftLeft_eq _ _))).symm
  case shr => exact ((BitVec.toNat_ushiftRight _ _).trans (Nat.shiftRight_eq_div_pow _ _)).symm

/-- Settles O5: LOOP pushes its frame, and a NOP at the end of a body moves on by the frame on top, which has iterations left or none
(R290, R291). -/
theorem loopRunsBodyCountTimes : Obligations.LoopRunsBodyCountTimes := by
  unfold Obligations.LoopRunsBodyCountTimes
  intro s p t r w x
  refine ⟨execLoop_of_legal, fun f fs h hres hloops hpc hleft => ?again, fun f fs h hres hloops hpc hdone hfs => ?leave⟩
  case again =>
    show execNop p t s = _
    rw [execNop_of_stands h hres, movedOn, Tile.advance_of_left _ _ hloops hpc hleft]
  case leave =>
    show execNop p t s = _
    rw [execNop_of_stands h hres, movedOn, Tile.advance_of_done _ _ hloops hpc hdone hfs]

/-- Settles O6: END writes its tile's run and its node, which has ended once every tile of its mask has (R296, R298). -/
theorem endWaitsAndHandsOver : Obligations.EndWaitsAndHandsOver := by
  unfold Obligations.EndWaitsAndHandsOver
  refine fun s p t r w i h hres hi => ⟨fun ⟨hmq, hdq, hkvq⟩ => ?ends, execEndKernel_of_busy h hres⟩
  case ends =>
    refine ⟨_, execEndKernel_of_drained h hres hi hmq hdq hkvq, ?_⟩
    simp only [State.tile_setInst, State.tile_setTile, State.inst_setInst, true_and, and_true]
    exact ⟨_, rfl, rfl, rfl, rfl, rfl, rfl, rfl, i.takeEnd_ended t r⟩

/-- Settles O7: each of the three is SEQ_ILLEGAL, the failure of the tile's node with code 0x3240 and the word's index (R299, R344,
R1110). -/
theorem illegalWordsEndKernel : Obligations.IllegalWordsEndKernel := by
  unfold Obligations.IllegalWordsEndKernel
  exact fun s p t r w op =>
    ⟨fun h hop => execReservedOpcode_of_reserved h ((reservedOpcode_iff op).2 hop), execImageOverrun_of_past, execNop_of_reserved⟩

end Sys2Proof.Machine
end

section
/-! PROOFS. Registers as lists of elements (R300 to R305): a register of elements reads back element by element, in memory and in masks as
in vectors. -/

namespace Sys2Proof.Machine

/-! Digits. -/

/-- A digit of the number that digits below the base give. -/
theorem ofDigits_div_pow_mod {b : Nat} (hb : 0 < b) {l : List Nat} (hl : ∀ x ∈ l, x < b) (j : Nat) :
    Nat.ofDigits b l / b ^ j % b = l.getD j 0 := by
  rw [Nat.ofDigits_div_pow_eq_ofDigits_drop j hb l hl, List.getD_eq_getElem?_getD, ← List.head?_drop]
  have hdrop : ∀ x ∈ l.drop j, x < b := fun x hx => hl x (List.mem_of_mem_drop hx)
  cases h : l.drop j with
  | nil => simp
  | cons x xs =>
    rw [h] at hdrop
    rw [Nat.ofDigits_cons, Nat.add_mul_mod_self_left, Nat.mod_eq_of_lt (hdrop x List.mem_cons_self)]
    rfl

/-- An element of a mapped range. -/
theorem getD_map_range {α : Type} {n j : Nat} (f : Nat → α) (d : α) (hj : j < n) : ((List.range n).map f).getD j d = f j := by
  simp [List.getD_eq_getElem?_getD, hj]

/-! Elements of a vector register. -/

/-- The element size of a TYPE in bits, and the 1,024 bytes that its elements fill (R301). -/
theorem vType_some {ty wid n : Nat} (h : vType ty = some (wid, n)) : wid * n = 1024 ∧ tyBits ty = 8 * wid := by
  match ty, h with
  | 0, rfl => exact ⟨rfl, rfl⟩
  | 1, rfl => exact ⟨rfl, rfl⟩
  | 2, rfl => exact ⟨rfl, rfl⟩
  | 3, rfl => exact ⟨rfl, rfl⟩
  | 4, rfl => exact ⟨rfl, rfl⟩

theorem lane_lt (wid v j : Nat) : lane wid v j < 2 ^ (8 * wid) := Nat.mod_lt _ (Nat.two_pow_pos _)

theorem vElems_eq_map_lane (wid n v : Nat) : vElems wid n v = (List.range n).map (lane wid v) := rfl

theorem vMask_eq_map_bitOf (n m : Nat) : vMask n m = (List.range n).map (bitOf m) := rfl

/-- A register of elements is the number whose digits they are. -/
theorem vOf_eq_ofDigits (wid : Nat) (es : List Nat) : vOf wid es = Nat.ofDigits (2 ^ (8 * wid)) (es.map (· % 2 ^ (8 * wid))) := by
  induction es with
  | nil => rfl
  | cons e es ih =>
    rw [List.map_cons, Nat.ofDigits_cons, ← ih]
    rfl

/-- What an element keeps in the register is below the base. -/
theorem lt_of_mem_map_mod {b x : Nat} {es : List Nat} (hb : 0 < b) (hx : x ∈ es.map (· % b)) : x < b := by
  obtain ⟨e, -, rfl⟩ := List.mem_map.1 hx
  exact Nat.mod_lt _ hb

/-- Element j of a register of elements. -/
theorem lane_vOf (wid j : Nat) (es : List Nat) : lane wid (vOf wid es) j = es.getD j 0 % 2 ^ (8 * wid) := by
  rw [lane, vOf_eq_ofDigits, Nat.pow_mul 2 (8 * wid) j,
    ofDigits_div_pow_mod (Nat.two_pow_pos _) fun x => lt_of_mem_map_mod (Nat.two_pow_pos _)]
  simp only [List.getD_eq_getElem?_getD, List.getElem?_map]
  cases es[j]? <;> simp

/-- The elements of a TYPE fill a register. -/
theorem vOf_lt {ty wid n : Nat} (h : vType ty = some (wid, n)) {es : List Nat} (hlen : es.length = n) : vOf wid es < 2 ^ 8192 := by
  obtain ⟨hsize, -⟩ := vType_some h
  have hbits : 8 * wid * n = 8192 := by rw [Nat.mul_assoc, hsize]
  have hbase : 1 < 2 ^ (8 * wid) := Nat.one_lt_two_pow fun h0 => by simp [h0] at hbits
  have hdigits : vOf wid es < (2 ^ (8 * wid)) ^ n := by
    rw [vOf_eq_ofDigits, ← hlen, ← List.length_map (as := es) (f := (· % 2 ^ (8 * wid)))]
    exact Nat.ofDigits_lt_base_pow_length hbase fun x => lt_of_mem_map_mod (Nat.two_pow_pos _)
  rwa [← Nat.pow_mul, hbits] at hdigits

/-- The second operand's elements (R314). -/
theorem vbElems_eq_map_bLane (x : Tile) (w wid n : Nat) : vbElems x w wid n = (List.range n).map (bLane x w wid) := by
  unfold vbElems bLane
  split
  · simp
  · rfl

theorem bLane_lt (x : Tile) (w wid j : Nat) : bLane x w wid j < 2 ^ (8 * wid) := by
  unfold bLane
  split
  · exact Nat.mod_lt _ (Nat.two_pow_pos _)
  · exact lane_lt _ _ _

/-- Elements under a mask (R305). -/
theorem merge_map {α : Type} (mz : Bool) (on : α → Bool) (f g : α → Nat) (l : List α) :
    merge mz (l.map on) (l.map f) (l.map g) = l.map fun i => if on i then f i else if mz then 0 else g i := by
  induction l with
  | nil => rfl
  | cons i l ih => rw [List.map_cons, List.map_cons, List.map_cons, List.map_cons, merge, ih]

/-- The register that an element-wise word leaves in VD, element by element (R300, R305). -/
theorem lane_vOf_merge {x : Tile} {w wid n : Nat} (f : Nat → Nat) {j : Nat} (hj : j < n) :
    lane wid (vOf wid (merge (fMz w) (vMask n (x.mreg (fMask w))) ((List.range n).map f) (vElems wid n (x.vreg (fVd w))))) j =
      masked x w wid j (f j % 2 ^ (8 * wid)) := by
  rw [vMask_eq_map_bitOf, vElems_eq_map_lane, merge_map, lane_vOf, getD_map_range _ _ hj, masked]
  split
  · rfl
  · split
    · exact Nat.zero_mod _
    · exact Nat.mod_eq_of_lt (lane_lt _ _ _)

/-- It fits the register. -/
theorem vOf_merge_lt {ty wid n : Nat} (h : vType ty = some (wid, n)) (mz : Bool) (m v : Nat) (f : Nat → Nat) :
    vOf wid (merge mz (vMask n m) ((List.range n).map f) (vElems wid n v)) < 2 ^ 8192 := by
  refine vOf_lt h ?_
  rw [vMask_eq_map_bitOf, vElems_eq_map_lane, merge_map, List.length_map, List.length_range]

end Sys2Proof.Machine
end

section
/-! PROOFS. Element-wise vector instructions (R305, R310 to R315, R318): each is the shared operation on its own elements, and integer
elements wrap or saturate. -/

namespace Sys2Proof.Machine

/-- The instruction runs the shared operation, and the elements that it hands over are those that the list of instructions names, up to
the bits that the register drops. -/
def ElementWise.Runs (c : ElementWise) : Prop :=
  ∃ f : Tile → Nat → Nat → Nat → Nat → List Nat,
    (∀ (s : State) (p : Fin 8) (t : Fin 16), exec (c.instr p t) s = next (vOp s p t c.op c.ok c.useB c.vs c.ss f)) ∧
    ∀ (x : Tile) (w wid n : Nat), vType (fTy w) = some (wid, n) → c.ok (fTy w) = true → ∃ e : Nat → Nat,
      f x w (fTy w) wid n = (List.range n).map e ∧ ∀ j, e j % 2 ^ (8 * wid) = c.elem x w wid n j % 2 ^ (8 * wid)

/-- A two-operand instruction. -/
theorem ElementWise.Runs.two {instr : Fin 8 → Fin 16 → Instr} {op : Nat} {ok : Nat → Bool} {f g : Nat → Nat → Nat → Nat → Nat}
    (hexec : ∀ (s : State) (p : Fin 8) (t : Fin 16), exec (instr p t) s = next (vBin s p t op ok f))
    (hfg : ∀ ty w a b wid n, vType ty = some (wid, n) → ok ty = true → f ty w a b % 2 ^ (8 * wid) = g ty w a b % 2 ^ (8 * wid)) :
    (ElementWise.two instr op ok g).Runs := by
  refine ⟨_, hexec, fun x w wid n hty hok => ⟨_, ?_, fun j => hfg _ w _ _ _ _ hty hok⟩⟩
  rw [vElems_eq_map_lane, vbElems_eq_map_bLane, List.zipWith_map, List.zipWith_self]

/-- A two-operand instruction that hands over its elements as they are named. -/
theorem ElementWise.Runs.two_self {instr : Fin 8 → Fin 16 → Instr} {op : Nat} {ok : Nat → Bool}
    {f : Nat → Nat → Nat → Nat → Nat}
    (hexec : ∀ (s : State) (p : Fin 8) (t : Fin 16), exec (instr p t) s = next (vBin s p t op ok f)) :
    (ElementWise.two instr op ok f).Runs := .two hexec fun _ _ _ _ _ _ _ _ => rfl

/-- A one-operand instruction. -/
theorem ElementWise.Runs.one {instr : Fin 8 → Fin 16 → Instr} {op : Nat} {f : Nat → Nat → Nat → Nat}
    (hexec : ∀ (s : State) (p : Fin 8) (t : Fin 16), exec (instr p t) s = next (vUn s p t op anyTy f)) :
    (ElementWise.one instr op f).Runs := by
  refine ⟨_, hexec, fun x w wid n _ _ => ⟨_, ?_, fun _ => rfl⟩⟩
  rw [vElems_eq_map_lane, List.map_map]
  rfl

/-- Every instruction of the list runs the shared operation on its elements: VSHL alone drops the bits beyond the element before the
register does (R313). -/
theorem elementWise_runs : ∀ c ∈ elementWise, c.Runs := by
  simp only [elementWise, List.forall_mem_cons]
  refine ⟨.two_self ?vadd, .two_self ?vsub, .two_self ?vmul, .two_self ?vmin, .two_self ?vmax, .one ?vabs, .one ?vneg, .two_self ?vand,
    .two_self ?vor, .two_self ?vxor, .two (fun _ _ _ => rfl) ?vshl, .two_self ?vshr, .two_self ?vsra, .one ?vmov, ?vfma, ?vbcast, ?viota,
    ?vperm, fun _ h => absurd h List.not_mem_nil⟩
  case vadd | vsub | vmul | vmin | vmax | vabs | vneg | vand | vor | vxor | vshr | vsra | vmov => exact fun _ _ _ => rfl
  case vshl =>
    intro ty w a b wid n hty _
    obtain ⟨-, hbits⟩ := vType_some hty
    rw [hbits, Nat.mod_mod]
  case vfma =>
    refine ⟨_, fun _ _ _ => rfl, fun x w wid n _ _ => ⟨_, ?_, fun _ => rfl⟩⟩
    dsimp only
    rw [vElems_eq_map_lane, vElems_eq_map_lane, vbElems_eq_map_bLane, List.zip_map', List.zipWith_map, List.zipWith_self]
  case vbcast =>
    refine ⟨_, fun _ _ _ => rfl, fun x w wid n _ _ => ⟨fun _ => x.sreg (fScal w) % 2 ^ (8 * wid), ?_, fun _ => Nat.mod_mod _ _⟩⟩
    simp
  case viota =>
    refine ⟨_, fun _ _ _ => rfl, fun x w wid n hty hok => ⟨_, rfl, fun j => ?_⟩⟩
    have hwid : wid = 4 := by
      rw [beq_iff_eq.1 hok] at hty
      cases hty
      rfl
    rw [hwid]
    exact Nat.mod_mod _ _
  case vperm =>
    refine ⟨_, fun _ _ _ => rfl, fun x w wid n _ _ => ⟨_, ?_, fun _ => rfl⟩⟩
    dsimp only
    rw [vbElems_eq_map_bLane, List.map_map]
    rfl

/-- The shared operation at a word that passes its checks: VD takes the elements under the mask, and the tile moves on. -/
theorem vOp_of_clean {s : State} {p : Fin 8} {t : Fin 16} {r : Run} {op w wid n : Nat} {ok : Nat → Bool} {useB : Bool}
    {vs ss : Nat → List Nat} {f : Tile → Nat → Nat → Nat → Nat → List Nat} (h : Stands s p t op r w)
    (hty : vType (fTy w) = some (wid, n)) (h5 : bitOf w 5 = false) (hok : ok (fTy w) = true)
    (hregs : (s.tile p t).regBad
      (vs w ++ (if useB && !fBscal w then [fVb w] else []) ++ (if fMask w != 0 && !fMz w then [fVd w] else []))
      [fMask w] (ss w ++ (if useB && fBscal w then [fSb w] else [])) = false) :
    vOp s p t op ok useB vs ss f = movedOn s p t r ((s.tile p t).setV (fVd w)
      (vOf wid (merge (fMz w) (vMask n ((s.tile p t).mreg (fMask w))) (f (s.tile p t) w (fTy w) wid n)
        (vElems wid n ((s.tile p t).vreg (fVd w)))))) := by
  rw [vOp, issue_stands h]
  simp only [hty, h5, hok]
  exact withRegs_clean hregs _

/-- Settles O8: every instruction of the list runs the shared operation on its elements, which puts them under the mask into VD. -/
theorem vectorElementsUnderMask : Obligations.VectorElementsUnderMask := by
  unfold Obligations.VectorElementsUnderMask
  intro c hc s p t r w wid n h hty h5 hok hclean
  obtain ⟨f, hexec, helems⟩ := elementWise_runs c hc
  obtain ⟨e, hf, he⟩ := helems (s.tile p t) w wid n hty hok
  refine ⟨_, vOf_merge_lt hty (fMz w) ((s.tile p t).mreg (fMask w)) ((s.tile p t).vreg (fVd w)) e, ?runs, fun j hj => ?element⟩
  case runs => rw [hexec, vOp_of_clean h hty h5 hok hclean, hf, next]
  case element => rw [lane_vOf_merge e hj, he]

/-! Integer elements (R313). -/

/-- An element below 2^n reads as its word does. -/
theorem sInt_eq_toInt_ofNat {n a : Nat} (ha : a < 2 ^ n) : sInt n a = (BitVec.ofNat n a).toInt := by
  rw [← sInt_toNat, BitVec.toNat_ofNat, Nat.mod_eq_of_lt ha]

/-- The clamp is the nearest value of the type's range. -/
theorem clampS_eq (n : Nat) (z : Int) : clampS n z = max (-2 ^ (n - 1)) (min (2 ^ (n - 1) - 1) z) := by
  rw [clampS, min_comm]
  norm_cast

/-- With SAT 0 an integer result wraps. -/
theorem intRes_of_wrap {ty n w : Nat} (hn : tyBits ty = n) (hsat : fSat w = false) (z : Int) :
    intRes ty (fSat w) z = (BitVec.ofInt n z).toNat := by
  rw [intRes, hn, hsat, ← uNat_eq_toNat_ofInt]
  rfl

/-- With SAT 1 it saturates. -/
theorem intRes_of_sat {ty n w : Nat} (hn : tyBits ty = n) (hsat : fSat w = true) (z : Int) :
    intRes ty (fSat w) z = (BitVec.ofInt n (max (-2 ^ (n - 1)) (min (2 ^ (n - 1) - 1) z))).toNat := by
  rw [intRes, hn, hsat, ← uNat_eq_toNat_ofInt, ← clampS_eq]
  rfl

/-- Settles O9: every result of an integer type but the product is one exact number, which wraps or meets the clamp to the type's range
(R313). -/
theorem integerElementsWrapOrSaturate : Obligations.IntegerElementsWrapOrSaturate := by
  unfold Obligations.IntegerElementsWrapOrSaturate
  intro ty n w a b hty ha hb A B sat
  have hint : isFpType ty = false := by rcases hty with ⟨rfl, -⟩ | ⟨rfl, -⟩ <;> rfl
  have hbits : tyBits ty = n := by rcases hty with ⟨rfl, rfl⟩ | ⟨rfl, rfl⟩ <;> rfl
  have hA : sInt n a = A := sInt_eq_toInt_ofNat ha
  have hB : sInt n b = B := sInt_eq_toInt_ofNat hb
  have hadd : vAddE ty w a b = intRes ty (fSat w) (A + B) := by simp [vAddE, hint, hbits, hA, hB]
  have hsub : vSubE ty w a b = intRes ty (fSat w) (A - B) := by simp [vSubE, hint, hbits, hA, hB]
  have hneg : vNegE ty w a = intRes ty (fSat w) (-A) := by simp [vNegE, hint, hbits, hA]
  have habs : vAbsE ty w a = intRes ty (fSat w) A.natAbs := by simp [vAbsE, hint, hbits, hA]
  rw [hadd, hsub, hneg, habs]
  refine ⟨?mul, ?count, fun hsat => ?wraps, fun hsat => ?saturates⟩
  case mul => simp [vMulE, hint, hbits, Nat.mod_eq_of_lt ha, Nat.mod_eq_of_lt hb]
  case count => rcases hty with ⟨rfl, -⟩ | ⟨rfl, -⟩ <;> rfl
  case wraps => refine ⟨?_, ?_, ?_, ?_⟩ <;> exact intRes_of_wrap hbits hsat _
  case saturates => refine ⟨?_, ?_, ?_, ?_⟩ <;> exact intRes_of_sat hbits hsat _

end Sys2Proof.Machine
end

section
/-! PROOFS. Masks as lists of bits: compares, selects, mask logic and counts (R305, R308, R309, R316). -/

namespace Sys2Proof.Machine

/-! Bits. -/

theorem bitOf_eq_testBit (v i : Nat) : bitOf v i = v.testBit i := by
  rw [bitOf, Nat.testBit_eq_decide_div_mod_eq, Nat.shiftRight_eq_div_pow]
  rfl

/-- Bit i of a mask register of bits. -/
theorem bitOf_maskOf (bs : List Bool) (i : Nat) : bitOf (maskOf bs) i = bs.getD i false := by
  rw [bitOf_eq_testBit]
  induction bs generalizing i with
  | nil => simp [maskOf]
  | cons b bs ih =>
    have hcons : maskOf (b :: bs) = b2n b + 2 * maskOf bs := rfl
    have hb : b2n b < 2 := by cases b <;> decide
    rw [hcons]
    cases i with
    | zero =>
      rw [Nat.testBit_zero, List.getD_cons_zero]
      cases b <;> simp [b2n]
    | succ i =>
      have hhalf : (b2n b + 2 * maskOf bs) / 2 = maskOf bs := by omega
      rw [Nat.testBit_succ, hhalf, ih, List.getD_cons_succ]

/-- A register of n bits. -/
theorem bitOf_maskOf_map_range (n i : Nat) (f : Nat → Bool) : bitOf (maskOf ((List.range n).map f)) i = (decide (i < n) && f i) := by
  rw [bitOf_maskOf, List.getD_eq_getElem?_getD]
  by_cases hi : i < n
  · simp [hi]
  · simp [hi]

/-- Bits from the length on are 0. -/
theorem maskOf_lt {bs : List Bool} {n : Nat} (h : bs.length ≤ n) : maskOf bs < 2 ^ n := by
  refine Nat.lt_pow_two_of_testBit _ fun i hi => ?_
  rw [← bitOf_eq_testBit, bitOf_maskOf, List.getD_eq_getElem?_getD, List.getElem?_eq_none (h.trans hi)]
  rfl

/-- The number of n ones. -/
theorem ones_lt (n : Nat) : 2 ^ n - 1 < 2 ^ n := Nat.sub_one_lt (Nat.two_pow_pos n).ne'

/-- A mask register holds 1,024 bits. -/
theorem Tile.mreg_lt (x : Tile) (k : Nat) : x.mreg k < 2 ^ 1024 := by
  unfold Tile.mreg
  split
  · exact ones_lt _
  · exact BitVec.isLt _

/-- A TYPE has at most 1,024 elements. -/
theorem vType_count_le {ty wid n : Nat} (h : vType ty = some (wid, n)) : n ≤ 1024 := by
  obtain ⟨hsize, -⟩ := vType_some h
  rcases Nat.eq_zero_or_pos wid with h0 | hpos
  · simp [h0] at hsize
  · exact hsize ▸ Nat.le_mul_of_pos_left n hpos

/-! MLOG (R309). -/

theorem mlogFn_lt {a b : Nat} (fn : Nat) (ha : a < 2 ^ 1024) (hb : b < 2 ^ 1024) : mlogFn fn a b < 2 ^ 1024 := by
  match fn with
  | 0 => exact Nat.and_lt_two_pow a hb
  | 1 => exact Nat.or_lt_two_pow ha hb
  | 2 => exact Nat.xor_lt_two_pow ha hb
  | _ + 3 => exact Nat.and_lt_two_pow a (Nat.xor_lt_two_pow hb (ones_lt _))

theorem bitOf_mlogFn (fn a b : Nat) {i : Nat} (hi : i < 1024) : bitOf (mlogFn fn a b) i =
    if fn = 0 then bitOf a i && bitOf b i else if fn = 1 then bitOf a i || bitOf b i else if fn = 2 then bitOf a i != bitOf b i
    else bitOf a i && !bitOf b i := by
  simp only [bitOf_eq_testBit]
  match fn with
  | 0 => exact Nat.testBit_and a b i
  | 1 => exact Nat.testBit_or a b i
  | 2 => exact Nat.testBit_xor a b i
  | k + 3 =>
    have hlog : (mlogFn (k + 3) a b).testBit i = (a.testBit i && (b.testBit i ^^ (2 ^ 1024 - 1).testBit i)) :=
      (Nat.testBit_and _ _ i).trans (congrArg _ (Nat.testBit_xor _ _ i))
    rw [hlog, Nat.testBit_two_pow_sub_one, decide_eq_true hi, Bool.xor_true]
    rfl

/-! The words. -/

/-- Bit i that VCMP leaves in MD, below the element count (R308, R316). -/
def cmpBit (x : Tile) (w wid i : Nat) : Bool :=
  if bitOf (x.mreg (fMask w)) i then predHolds (fPred w) (cmpElem (fTy w) (lane wid (x.vreg (fVa w)) i) (bLane x w wid i))
  else !fMz w && bitOf (x.mreg (fMd w)) i

/-- The bits that VCMP merges, as the model lists them. -/
theorem merge_hits_eq_map_cmpBit (x : Tile) (w wid n : Nat) :
    (merge (fMz w) (vMask n (x.mreg (fMask w)))
      (List.zipWith (fun a b => b2n (predHolds (fPred w) (cmpElem (fTy w) a b))) (vElems wid n (x.vreg (fVa w))) (vbElems x w wid n))
      ((vMask n (x.mreg (fMd w))).map b2n)).map (· == 1) = (List.range n).map (cmpBit x w wid) := by
  have hbit (b : Bool) : (b2n b == 1) = b := by cases b <;> rfl
  rw [vMask_eq_map_bitOf, vMask_eq_map_bitOf, vElems_eq_map_lane, vbElems_eq_map_bLane, List.zipWith_map, List.zipWith_self,
    List.map_map, merge_map, List.map_map]
  refine List.map_congr_left fun i _ => ?_
  rw [cmpBit, Function.comp_apply]
  split
  · exact hbit _
  · cases fMz w
    · exact hbit _
    · rfl

section
variable {s : State} {p : Fin 8} {t : Fin 16} {r : Run} {w wid n : Nat}

theorem execVcmp_of_clean (h : Stands s p t 0x30 r w) (hty : vType (fTy w) = some (wid, n)) (h5 : bitOf w 5 = false)
    (hpred : fPred w ≠ 7)
    (hregs : (s.tile p t).regBad ([fVa w] ++ if fBscal w then [] else [fVb w])
      ([fMask w] ++ if fMask w != 0 && !fMz w then [fMd w] else []) (if fBscal w then [fSb w] else []) = false) :
    execVcmp p t s = .next (movedOn s p t r
      ((s.tile p t).setM (fMd w) (maskOf ((List.range n).map (cmpBit (s.tile p t) w wid))))) := by
  have hlegal : ¬(bitOf w 5 || fPred w == 7) = true := by simp [h5, hpred]
  rw [execVcmp, issue_stands h]
  simp only [hty, if_neg hlegal, merge_hits_eq_map_cmpBit]
  exact congrArg _ (withRegs_clean hregs _)

theorem execVsel_of_clean (h : Stands s p t 0x31 r w) (hty : vType (fTy w) = some (wid, n)) (h5 : bitOf w 5 = false)
    (hregs : (s.tile p t).regBad ([fVa w] ++ if fBscal w then [] else [fVb w]) [fMask w] (if fBscal w then [fSb w] else []) = false) :
    execVsel p t s = .next (movedOn s p t r ((s.tile p t).setV (fVd w) (vOf wid ((List.range n).map fun j =>
      if bitOf ((s.tile p t).mreg (fMask w)) j then lane wid ((s.tile p t).vreg (fVa w)) j else bLane (s.tile p t) w wid j)))) := by
  rw [execVsel, issue_stands h]
  simp only [hty, h5, vMask_eq_map_bitOf, vElems_eq_map_lane, vbElems_eq_map_bLane, merge_map]
  exact congrArg _ (withRegs_clean hregs _)

theorem execMlog_of_clean (h : Stands s p t 0x32 r w) (hty : vType (fTy w) = some (wid, n)) (h5 : bitOf w 5 = false)
    (hregs : (s.tile p t).regBad [] [fMa w, fMb w] [] = false) :
    execMlog p t s = .next (movedOn s p t r ((s.tile p t).setM (fMd w)
      (mlogFn (fMfn w) ((s.tile p t).mreg (fMa w)) ((s.tile p t).mreg (fMb w))))) := by
  rw [execMlog, issue_stands h, if_neg (by simp [hty, h5]), withRegs_clean hregs, finish_eq_movedOn, next]

/-- The set bits of MA below the element count. -/
theorem length_filter_vMask (n m : Nat) : ((vMask n m).filter id).length = ((List.range n).filter (bitOf m)).length := by
  rw [vMask_eq_map_bitOf, List.filter_map, List.length_map]
  rfl

theorem execMpop_of_clean (h : Stands s p t 0x33 r w) (hty : vType (fTy w) = some (wid, n)) (h5 : bitOf w 5 = false)
    (hregs : (s.tile p t).regBad [] [fMa w] [] = false) :
    execMpop p t s = .next (movedOn s p t r ((s.tile p t).setS (fScal w)
      ((List.range n).filter (bitOf ((s.tile p t).mreg (fMa w)))).length)) := by
  rw [execMpop, issue_stands h]
  simp only [hty, h5, length_filter_vMask]
  exact congrArg _ (withRegs_clean hregs _)

/-- The lowest index of a range that passes a test is the first that the test keeps. -/
theorem findIdx?_range (n : Nat) (f : Nat → Bool) : (List.range n).findIdx? f = ((List.range n).filter f).head? := by
  rw [List.head?_filter]
  refine Option.ext fun i => ?_
  rw [List.findIdx?_eq_some_iff_getElem, List.find?_range_eq_some]
  simp

theorem execMfirst_of_clean (h : Stands s p t 0x34 r w) (hty : vType (fTy w) = some (wid, n)) (h5 : bitOf w 5 = false)
    (hregs : (s.tile p t).regBad [] [fMa w] [] = false) :
    execMfirst p t s = .next (movedOn s p t r ((s.tile p t).setS (fScal w)
      (((List.range n).filter (bitOf ((s.tile p t).mreg (fMa w)))).headD n))) := by
  rw [execMfirst, issue_stands h]
  simp only [hty, h5, vMask_eq_map_bitOf, List.findIdx?_map, Function.id_comp, findIdx?_range, List.headD_eq_head?_getD]
  exact congrArg _ (withRegs_clean hregs _)

end

/-- Settles O11: VCMP and VSEL write the lists of bits and of elements that the mask chooses from, MLOG works bit by bit, and MPOP and
MFIRST read the set bits of MA below the count (R305, R308, R309, R316). -/
theorem maskWordsComplete : Obligations.MaskWordsComplete := by
  unfold Obligations.MaskWordsComplete
  intro s p t r w wid n hty h5
  refine ⟨fun h hpred hregs => ⟨_, ?_, execVcmp_of_clean h hty h5 hpred hregs, fun i _ => bitOf_maskOf_map_range n i _⟩,
    fun h hregs => ⟨_, vOf_lt hty (by simp), execVsel_of_clean h hty h5 hregs, fun j hj => ?select⟩,
    fun h hregs => ⟨_, mlogFn_lt _ (Tile.mreg_lt _ _) (Tile.mreg_lt _ _), execMlog_of_clean h hty h5 hregs,
      fun i hi => bitOf_mlogFn _ _ _ hi⟩,
    fun h => execMpop_of_clean h hty h5, fun h => execMfirst_of_clean h hty h5⟩
  · exact maskOf_lt (by simpa using vType_count_le hty)
  case select =>
    rw [lane_vOf, getD_map_range _ _ hj]
    refine Nat.mod_eq_of_lt ?_
    split
    · exact lane_lt _ _ _
    · exact bLane_lt _ _ _ _

end Sys2Proof.Machine
end

section
/-! PROOFS. Vector loads and stores (R303, R306, R307): the elements of 1,024 bytes of a scratchpad, and the bytes that a masked store
leaves, line by line. -/

namespace Sys2Proof.Machine

/-! Bytes as a number (R11). -/

/-- Bytes are the digits of their number. -/
theorem leNat_eq_ofDigits (bs : List Byte) : leNat bs = Nat.ofDigits 256 (bs.map BitVec.toNat) := by
  induction bs with
  | nil => rfl
  | cons b bs ih =>
    rw [List.map_cons, Nat.ofDigits_cons, ← ih]
    rfl

/-- A byte is below 256. -/
theorem lt_of_mem_map_toNat {bs : List Byte} {x : Nat} (hx : x ∈ bs.map BitVec.toNat) : x < 256 := by
  obtain ⟨b, -, rfl⟩ := List.mem_map.1 hx
  exact b.isLt

theorem leNat_div_pow (bs : List Byte) (k : Nat) : leNat bs / 256 ^ k = leNat (bs.drop k) := by
  rw [leNat_eq_ofDigits, leNat_eq_ofDigits, Nat.ofDigits_div_pow_eq_ofDigits_drop k (by decide) _ fun _ => lt_of_mem_map_toNat,
    List.map_drop]

theorem leNat_mod_pow (bs : List Byte) (k : Nat) : leNat bs % 256 ^ k = leNat (bs.take k) := by
  rw [leNat_eq_ofDigits, leNat_eq_ofDigits, Nat.ofDigits_mod_pow_eq_ofDigits_take k (by decide) _ fun _ => lt_of_mem_map_toNat,
    List.map_take]

/-- Bytes k to k + i - 1 of a read. -/
theorem take_drop_memRead (m : Mem) (a : Nat) {n k i : Nat} (h : k + i ≤ n) : ((memRead m a n).drop k).take i = memRead m (a + k) i := by
  refine List.ext_getElem (by simp [memRead]; omega) fun q hq hq2 => ?_
  simp [memRead, Nat.add_assoc]

/-- Element j of the bytes that a read returns. -/
theorem lane_leNat_memRead (m : Mem) (a : Nat) {wid n N j : Nat} (hj : j < n) (hN : wid * n = N) :
    lane wid (leNat (memRead m a N)) j = leNat (memRead m (a + wid * j) wid) := by
  have hbyte (k : Nat) : 2 ^ (8 * k) = 256 ^ k := Nat.pow_mul 2 8 k
  have hin : wid * j + wid ≤ N := hN ▸ Nat.mul_succ wid j ▸ Nat.mul_le_mul_left wid hj
  rw [lane, Nat.mul_assoc, hbyte, hbyte, leNat_div_pow, leNat_mod_pow, take_drop_memRead m a hin]

section
variable {s : State} {p : Fin 8} {t : Fin 16} {r : Run} {w wid n a : Nat} {sp : Spc}

/-- A line's address with its 1,024 bytes inside the scratchpad is none that R345 refuses. -/
theorem vectorAddress_legal {size : Nat} (halign : a % 64 = 0) (hin : a + 1024 ≤ size) :
    ¬(a % 64 != 0 || size < a + 1024) = true := by
  simpa [halign] using hin

theorem execVld_of_readable (hsp : spaceBit (bitOf w 42) = sp) (ha : vAddr (s.tile p t) w = a) (h : Stands s p t 0x39 r w)
    (hty : vType (fTy w) = some (wid, n)) (hres : bitsOf w 36 21 = 0) (halign : a % 64 = 0) (hin : a + 1024 ≤ Spc.size sp)
    (hregs : (s.tile p t).regBad (if fMask w != 0 && !fMz w then [fVd w] else []) [fMask w] [bitsOf w 41 37] = false)
    (hlines : ((s.tile p t).spad sp).readErr a 1024 = none) :
    execVld p t s = .next (movedOn s p t r ((s.tile p t).setV (fVd w)
      (vOf wid (merge (fMz w) (vMask n ((s.tile p t).mreg (fMask w)))
        ((List.range n).map (lane wid (leNat (memRead ((s.tile p t).spad sp).bytes a 1024))))
        (vElems wid n ((s.tile p t).vreg (fVd w))))))) := by
  rw [execVld, issue_stands h]
  simp only [hty, hres, hsp, ha, hlines]
  rw [withRegs_clean hregs, if_neg (vectorAddress_legal halign hin)]
  rfl

theorem execVst_of_mergeable (hsp : spaceBit (bitOf w 42) = sp) (ha : vAddr (s.tile p t) w = a) (h : Stands s p t 0x3A r w)
    (hty : vType (fTy w) = some (wid, n)) (hres : bitsOf w 36 21 = 0) (halign : a % 64 = 0) (hin : a + 1024 ≤ Spc.size sp)
    (hregs : (s.tile p t).regBad [fVd w] [fMask w] [bitsOf w 41 37] = false)
    (hlines : storeErr ((s.tile p t).spad sp) a (fun i => bitOf ((s.tile p t).mreg (fMask w)) (i / wid)) = none) :
    execVst p t s = .next (movedOn s p t r ((s.tile p t).setSpad sp (storeMasked ((s.tile p t).spad sp) a ((s.tile p t).vreg (fVd w))
      fun i => bitOf ((s.tile p t).mreg (fMask w)) (i / wid)))) := by
  rw [execVst, issue_stands h]
  simp only [hty, hres, hsp, ha, hlines]
  rw [withRegs_clean hregs, if_neg (vectorAddress_legal halign hin)]
  rfl

end

/-! A masked store, line by line (R307). -/

/-- The store's bytes of line l: the register's where the mask enables them, else those that stand there. -/
def storeLine (a v : Nat) (on : Nat → Bool) (d : Spad) (l : Nat) : Spad :=
  let idx := (List.range 64).map fun i => 64 * l + i
  if idx.any on then
    d.write (a + 64 * l) (idx.map fun i => if on i then BitVec.ofNat 8 (regByte v i) else memByte d.bytes (a + i)) false
  else d

theorem storeMasked_eq_foldl (d : Spad) (a v : Nat) (on : Nat → Bool) :
    storeMasked d a v on = (List.range 16).foldl (storeLine a v on) d := rfl

theorem wf_storeLine {d : Spad} (h : d.bytes.wf = true) (a v : Nat) (on : Nat → Bool) (l : Nat) :
    (storeLine a v on d l).bytes.wf = true := by
  rw [storeLine]
  split
  · rw [Spad.bytes_write]
    exact memWrite_wf h _ _
  · exact h

/-- A byte after the store's line l: the register's byte where it lies in the line and is enabled. -/
theorem memByte_storeLine {d : Spad} (h : d.bytes.wf = true) (a v : Nat) (on : Nat → Bool) (l b : Nat) :
    memByte (storeLine a v on d l).bytes b =
      if a + 64 * l ≤ b ∧ b < a + 64 * (l + 1) ∧ on (b - a) = true then BitVec.ofNat 8 (regByte v (b - a)) else memByte d.bytes b := by
  by_cases hin : a + 64 * l ≤ b ∧ b < a + 64 * (l + 1)
  case neg =>
    have hout : ¬(a + 64 * l ≤ b ∧ b < a + 64 * (l + 1) ∧ on (b - a) = true) := fun ⟨hlo, hhi, _⟩ => hin ⟨hlo, hhi⟩
    rw [storeLine, if_neg hout]
    split
    · rw [Spad.bytes_write, memByte_memWrite_out]
      rw [List.length_map, List.length_map, List.length_range]
      omega
    · rfl
  case pos =>
    obtain ⟨hlo, hhi⟩ := hin
    have hoff : b - (a + 64 * l) < 64 := by omega
    have hidx : 64 * l + (b - (a + 64 * l)) = b - a := by omega
    rw [storeLine]
    split
    case isTrue hany =>
      have hback : a + (b - a) = b := by omega
      rw [Spad.bytes_write, memByte_memWrite h, if_pos hlo, List.map_map, getD_map_range _ _ hoff, Function.comp_apply, hidx, hback]
      simp only [hlo, hhi, true_and]
    case isFalse hany =>
      rw [if_neg fun ⟨_, _, hon⟩ => hany (List.any_eq_true.2 ⟨b - a, List.mem_map.2 ⟨_, List.mem_range.2 hoff, hidx⟩, hon⟩)]

/-- The first k lines of the store: the memory stays canonical, and the enabled bytes of those lines are the register's. -/
theorem foldl_storeLine {d : Spad} (h : d.bytes.wf = true) (a v : Nat) (on : Nat → Bool) (k : Nat) :
    ((List.range k).foldl (storeLine a v on) d).bytes.wf = true ∧ ∀ b, memByte ((List.range k).foldl (storeLine a v on) d).bytes b =
      if a ≤ b ∧ b < a + 64 * k ∧ on (b - a) = true then BitVec.ofNat 8 (regByte v (b - a)) else memByte d.bytes b := by
  induction k with
  | zero => exact ⟨h, fun b => by rw [if_neg (by omega)]; rfl⟩
  | succ k ih =>
    obtain ⟨hwf, hbytes⟩ := ih
    rw [List.range_succ, List.foldl_append, List.foldl_cons, List.foldl_nil]
    refine ⟨wf_storeLine hwf a v on k, fun b => ?_⟩
    rw [memByte_storeLine hwf, hbytes]
    by_cases hlast : a + 64 * k ≤ b
    · have hearlier : ¬(a ≤ b ∧ b < a + 64 * k ∧ on (b - a) = true) := fun ⟨_, hlt, _⟩ => absurd hlast (Nat.not_le.2 hlt)
      rw [if_neg hearlier]
      exact if_congr ⟨fun ⟨_, hhi, hon⟩ => ⟨by omega, hhi, hon⟩, fun ⟨_, hhi, hon⟩ => ⟨hlast, hhi, hon⟩⟩ rfl rfl
    · have hlater : ¬(a + 64 * k ≤ b ∧ b < a + 64 * (k + 1) ∧ on (b - a) = true) := fun ⟨hle, _⟩ => hlast hle
      rw [if_neg hlater]
      exact if_congr ⟨fun ⟨hlo, _, hon⟩ => ⟨hlo, by omega, hon⟩, fun ⟨hlo, _, hon⟩ => ⟨hlo, by omega, hon⟩⟩ rfl rfl

/-- Byte i of a register, as a byte. -/
theorem ofNat_regByte (v i : Nat) : BitVec.ofNat 8 (regByte v i) = BitVec.ofNat 8 (v / 256 ^ i) := by
  have hbase : 2 ^ (8 * i) = 256 ^ i := Nat.pow_mul 2 8 i
  rw [regByte, hbase]
  exact BitVec.eq_of_toNat_eq (by simp)

/-- Settles O12: the elements of a load are those of its 1,024 bytes under the mask; a store leaves each enabled byte of its sixteen lines
and no other (R303, R306, R307). -/
theorem vectorLoadStoreBytes : Obligations.VectorLoadStoreBytes := by
  unfold Obligations.VectorLoadStoreBytes
  intro s p t r w wid n hty hres x sp a halign hin
  obtain ⟨hsize, -⟩ := vType_some hty
  refine ⟨fun h hregs hlines => ?load, fun h hregs hwf hlines => ?store⟩
  case load =>
    refine ⟨_, vOf_merge_lt hty (fMz w) (x.mreg (fMask w)) (x.vreg (fVd w)) _,
      execVld_of_readable rfl rfl h hty hres halign hin hregs hlines, fun j hj => ?_⟩
    rw [lane_vOf_merge _ hj, Nat.mod_eq_of_lt (lane_lt _ _ _), lane_leNat_memRead _ _ hj hsize]
    rfl
  case store =>
    refine ⟨_, execVst_of_mergeable rfl rfl h hty hres halign hin hregs hlines, fun b => ?_⟩
    obtain ⟨-, hbytes⟩ := foldl_storeLine hwf a (x.vreg (fVd w)) (fun i => bitOf (x.mreg (fMask w)) (i / wid)) 16
    exact (hbytes b).trans (if_congr Iff.rfl (ofNat_regByte _ _) rfl)

end Sys2Proof.Machine
end

section
/-! PROOFS. What a dispatch puts on a tile (R292, R502 to R505, R605): the image with its arguments in the half of the instruction memory in
use, empty registers and queues, and the scratchpads of its own context or none. -/

namespace Sys2Proof.Machine

/-! The image with its arguments (R502). -/

theorem length_patch (image args : List Nat) (t : Nat) : (patch image args t).length = image.length := by
  rw [patch, List.length_map, List.length_range]

theorem wd_patch {image : List Nat} {k : Nat} (args : List Nat) (t : Nat) (hk : k < image.length) : wd (patch image args t) k =
    (let w := wd image k
     if k < 5 then w - w % 2 ^ 32 + (if k < 4 then wd args k % 2 ^ 32 else t) else w) := getD_map_range _ _ hk

/-- The low 32 bits of a word whose IMM has been replaced. -/
theorem bitsOf_replaced (w v : Nat) : bitsOf (w - w % 2 ^ 32 + v) 31 0 = v % 2 ^ 32 := by
  show (w - w % 2 ^ 32 + v) >>> 0 % 2 ^ 32 = v % 2 ^ 32
  rw [Nat.shiftRight_zero]
  omega

/-- A leading word carries its argument or the tile number in IMM. -/
theorem bitsOf_wd_patch {image : List Nat} {k : Nat} (args : List Nat) (t : Nat) (hk : k < image.length) (hlead : k < 5) :
    bitsOf (wd (patch image args t) k) 31 0 = if k < 4 then wd args k % 2 ^ 32 else t % 2 ^ 32 := by
  rw [wd_patch args t hk]
  dsimp only
  rw [if_pos hlead, bitsOf_replaced]
  split
  · exact Nat.mod_mod _ _
  · rfl

/-! The instruction memory (R505). -/

theorem Tile.words_setWords (x : Tile) (h : Nat) (image : List Nat) :
    (x.setWords h image).words h = image ++ (x.words h).drop image.length := by
  unfold Tile.setWords Tile.words
  split <;> rfl

/-- The half in use holds the image from word 0 on. -/
theorem Tile.words_takeImage (x : Tile) (image : List Nat) (again : Bool) :
    ((x.takeImage image again).words (x.takeImage image again).half).take image.length = image := by
  cases again
  case true =>
    have hhalf : (x.takeImage image true).half = x.half := by
      simp only [Tile.takeImage, Tile.setWords, if_true]
      split <;> rfl
    rw [hhalf]
    exact (congrArg _ (x.words_setWords x.half image)).trans List.take_left
  case false => exact (congrArg _ (x.words_setWords (1 - x.half) image)).trans List.take_left

/-- Taking an image writes the instruction memory alone. -/
theorem Tile.takeImage_frame (x : Tile) (image : List Nat) (again : Bool) :
    ∃ imem0 imem1 half loaded, x.takeImage image again = { x with imem0, imem1, half, loaded } := by
  unfold Tile.takeImage Tile.setWords
  dsimp only
  split
  · split
    · exact ⟨_, _, _, _, rfl⟩
    · exact ⟨_, _, _, _, rfl⟩
  · split
    · exact ⟨_, _, _, _, rfl⟩
    · exact ⟨_, _, _, _, rfl⟩

/-! The loaded tile. -/

section
variable (x : Tile) (n t now : Nat) (i : Inst) (cb mp : Nat)

/-- The run that a dispatch starts. -/
theorem loadTile_run : (loadTile x n t now i cb mp).run =
    some { inst := n, ctx := i.ctx, image := patch i.image i.args t, pc := 0, cbMask := cb, mpMask := mp
           bank := i.bank, pt := i.pt, mapVer := i.mapVer, progress := now } := rfl

theorem loadTile_words : ((loadTile x n t now i cb mp).words (loadTile x n t now i cb mp).half).take i.image.length =
    patch i.image i.args t := by
  have h := x.words_takeImage (patch i.image i.args t) (i.reruns != 0 || i.preempts != 0)
  rw [length_patch] at h
  unfold loadTile
  dsimp only
  split <;> exact h

/-- Another context's bytes and poison are gone (R605). -/
theorem loadTile_spad_of_other (hctx : x.lastCtx ≠ some i.ctx) (sp : Spc) :
    ((loadTile x n t now i cb mp).spad sp).bytes = [] ∧ ((loadTile x n t now i cb mp).spad sp).poison = [] := by
  unfold loadTile
  obtain ⟨_, _, _, _, h⟩ := x.takeImage_frame (patch i.image i.args t) (i.reruns != 0 || i.preempts != 0)
  simp only [h, if_neg hctx]
  cases sp <;> exact ⟨rfl, rfl⟩

/-- The context's own bytes stay. -/
theorem loadTile_spad_of_same (hctx : x.lastCtx = some i.ctx) (sp : Spc) :
    ((loadTile x n t now i cb mp).spad sp).bytes = (x.spad sp).bytes := by
  unfold loadTile
  obtain ⟨_, _, _, _, h⟩ := x.takeImage_frame (patch i.image i.args t) (i.reruns != 0 || i.preempts != 0)
  simp only [h, if_pos hctx]
  cases sp <;> rfl

end

/-- Settles O24: every register file and queue of the loaded tile is empty by its definition; the image, the instruction memory and the
scratchpads read as the lemmas above say (R292, R502, R505, R605). -/
theorem dispatchedTileIsClean : Obligations.DispatchedTileIsClean := by
  unfold Obligations.DispatchedTileIsClean
  intro x n t now i cb mp y
  refine ⟨fun _ => BitVec.toNat_zero, fun _ => BitVec.toNat_zero, fun k hk => ?mask, y.mreg_zero, fun sp => ?written, rfl, rfl, rfl,
    ⟨_, loadTile_run x n t now i cb mp, rfl, rfl, rfl, rfl, length_patch _ _ _, fun k hlead hk => bitsOf_wd_patch _ _ hk hlead,
      fun k hlead hk => ?later, loadTile_words x n t now i cb mp⟩,
    loadTile_spad_of_other x n t now i cb mp, loadTile_spad_of_same x n t now i cb mp⟩
  case mask => exact (if_neg (Nat.ne_of_gt hk)).trans BitVec.toNat_zero
  case written => cases sp <;> rfl
  case later =>
    rw [wd_patch _ _ hk]
    exact if_neg (Nat.not_lt.2 hlead)

end Sys2Proof.Machine
end

section
/-! PROOFS. Bit fields of a register (R300, R321, R322): what a register reads after one field, and after a row of fields, has been put. -/

namespace Sys2Proof.Machine

/-! One field. -/

/-- The bits of a register after a field has been put: those of the field inside it, those of the register outside. -/
theorem testBit_putBits (v b w x i : Nat) :
    (putBits v b w x).testBit i = if b ≤ i ∧ i < b + w then x.testBit (i - b) else v.testBit i := by
  have hlow : v % 2 ^ b < 2 ^ b := Nat.mod_lt _ (Nat.two_pow_pos _)
  have hfield : x % 2 ^ w < 2 ^ w := Nat.mod_lt _ (Nat.two_pow_pos _)
  have hput : putBits v b w x = 2 ^ b * (2 ^ w * (v / 2 ^ b / 2 ^ w) + x % 2 ^ w) + v % 2 ^ b := by
    have hv : 2 ^ b * (v / 2 ^ b) + v % 2 ^ b = v := Nat.div_add_mod _ _
    have hq : 2 ^ w * (v / 2 ^ b / 2 ^ w) + v / 2 ^ b % 2 ^ w = v / 2 ^ b := Nat.div_add_mod _ _
    have hsplit : 2 ^ b * (2 ^ w * (v / 2 ^ b / 2 ^ w)) + 2 ^ b * (v / 2 ^ b % 2 ^ w) = 2 ^ b * (v / 2 ^ b) := by
      rw [← Nat.mul_add, hq]
    rw [putBits, Nat.mul_add]
    omega
  rw [hput, Nat.testBit_two_pow_mul_add _ hlow, Nat.testBit_two_pow_mul_add _ hfield]
  by_cases hb : i < b
  · have hout : ¬(b ≤ i ∧ i < b + w) := by omega
    rw [if_pos hb, if_neg hout, Nat.testBit_mod_two_pow, decide_eq_true hb, Bool.true_and]
  · by_cases hw : i - b < w
    · have hin : b ≤ i ∧ i < b + w := by omega
      rw [if_neg hb, if_pos hw, if_pos hin, Nat.testBit_mod_two_pow, decide_eq_true hw, Bool.true_and]
    · have hout : ¬(b ≤ i ∧ i < b + w) := by omega
      have hidx : i - b - w + w + b = i := by omega
      rw [if_neg hb, if_neg hw, if_neg hout, Nat.testBit_div_two_pow, Nat.testBit_div_two_pow, hidx]

/-- A field inside the register keeps the register's size. -/
theorem putBits_lt {v b w N : Nat} (x : Nat) (hv : v < 2 ^ N) (hin : b + w ≤ N) : putBits v b w x < 2 ^ N := by
  refine Nat.lt_pow_two_of_testBit _ fun i hi => ?_
  have hout : ¬(b ≤ i ∧ i < b + w) := by omega
  rw [testBit_putBits, if_neg hout]
  exact Nat.testBit_lt_two_pow (hv.trans_le (Nat.pow_le_pow_right (by decide) hi))

/-- The bits of an element code. -/
theorem testBit_packed (v db dw i k : Nat) : (packed v db dw i).testBit k = (decide (k < dw) && v.testBit (k + (db + dw * i))) := by
  rw [packed, Nat.testBit_mod_two_pow, Nat.testBit_div_two_pow]

theorem packed_putBits (v db dw i x : Nat) : packed (putBits v (db + dw * i) dw x) db dw i = x % 2 ^ dw := by
  refine Nat.eq_of_testBit_eq fun k => ?_
  rw [testBit_packed, testBit_putBits, Nat.testBit_mod_two_pow]
  by_cases hk : k < dw
  · have hin : db + dw * i ≤ k + (db + dw * i) ∧ k + (db + dw * i) < db + dw * i + dw := by omega
    rw [if_pos hin, Nat.add_sub_cancel]
  · rw [decide_eq_false hk, Bool.false_and, Bool.false_and]

/-- Another code of the row keeps its value. -/
theorem packed_putBits_ne (v db dw x : Nat) {i j : Nat} (hne : j ≠ i) :
    packed (putBits v (db + dw * i) dw x) db dw j = packed v db dw j := by
  refine Nat.eq_of_testBit_eq fun k => ?_
  rw [testBit_packed, testBit_packed, testBit_putBits]
  by_cases hk : k < dw
  · have hapart : dw * j + dw ≤ dw * i ∨ dw * i + dw ≤ dw * j := by
      rcases Nat.lt_or_gt_of_ne hne with hlt | hgt
      · exact .inl (Nat.mul_le_mul_left dw hlt)
      · exact .inr (Nat.mul_le_mul_left dw hgt)
    have hout : ¬(db + dw * i ≤ k + (db + dw * j) ∧ k + (db + dw * j) < db + dw * i + dw) := by omega
    rw [if_neg hout]
  · rw [decide_eq_false hk, Bool.false_and, Bool.false_and]

/-! A row of fields. -/

/-- Put code i of a row where there is one for it. -/
def putSome (db dw : Nat) (g : Nat → Option Nat) (v i : Nat) : Nat :=
  match g i with
  | some x => putBits v (db + dw * i) dw x
  | none => v

/-- A row whose every code is put. -/
theorem foldl_putBits_eq (db dw : Nat) (f : Nat → Nat) (l : List Nat) (v : Nat) :
    (List.zip l (l.map f)).foldl (fun v ic => putBits v (db + dw * ic.1) dw ic.2) v =
      l.foldl (putSome db dw fun i => some (f i)) v := by
  rw [← List.map_prod_left_eq_zip, List.foldl_map]
  rfl

/-- A row whose codes are put under a mask: a code whose bit is 0 becomes zero or keeps its value (R305). -/
theorem foldl_putBits_masked_eq (db dw : Nat) (on : Nat → Bool) (mz : Bool) (f : Nat → Nat) (l : List Nat) (v : Nat) :
    (List.zip l (l.map f)).foldl (fun v ic =>
      if on ic.1 then putBits v (db + dw * ic.1) dw ic.2 else if mz then putBits v (db + dw * ic.1) dw 0 else v) v =
      l.foldl (putSome db dw fun i => if on i then some (f i) else if mz then some 0 else none) v := by
  rw [← List.map_prod_left_eq_zip, List.foldl_map]
  refine List.foldl_ext _ _ _ fun v i _ => ?_
  rw [putSome]
  cases on i
  · cases mz <;> rfl
  · rfl

section
variable (db dw : Nat) (g : Nat → Option Nat)

theorem putSome_lt {v i N : Nat} (hv : v < 2 ^ N) (hin : db + dw * i + dw ≤ N) : putSome db dw g v i < 2 ^ N := by
  unfold putSome
  split
  · exact putBits_lt _ hv hin
  · exact hv

theorem packed_putSome (v i : Nat) : packed (putSome db dw g v i) db dw i = (g i).elim (packed v db dw i) (· % 2 ^ dw) := by
  unfold putSome
  cases g i with
  | some x => exact packed_putBits v db dw i x
  | none => rfl

theorem packed_putSome_ne (v : Nat) {i j : Nat} (hne : j ≠ i) : packed (putSome db dw g v i) db dw j = packed v db dw j := by
  unfold putSome
  split
  · exact packed_putBits_ne _ _ _ _ hne
  · rfl

/-- A row that ends inside the register keeps its size. -/
theorem foldl_putSome_lt {v n N : Nat} (hv : v < 2 ^ N) (hin : db + dw * n ≤ N) : (List.range n).foldl (putSome db dw g) v < 2 ^ N := by
  induction n with
  | zero => exact hv
  | succ n ih =>
    rw [Nat.mul_succ] at hin
    rw [List.range_succ, List.foldl_append, List.foldl_cons, List.foldl_nil]
    exact putSome_lt db dw g (ih (by omega)) (by omega)

/-- Codes behind the row keep their values. -/
theorem packed_foldl_putSome_of_le (v : Nat) {n j : Nat} (hj : n ≤ j) :
    packed ((List.range n).foldl (putSome db dw g) v) db dw j = packed v db dw j := by
  induction n with
  | zero => rfl
  | succ n ih =>
    rw [List.range_succ, List.foldl_append, List.foldl_cons, List.foldl_nil, packed_putSome_ne _ _ _ _ (by omega), ih (by omega)]

/-- A code of the row is the one put for it, where there is one. -/
theorem packed_foldl_putSome (v : Nat) {n j : Nat} (hj : j < n) :
    packed ((List.range n).foldl (putSome db dw g) v) db dw j = (g j).elim (packed v db dw j) (· % 2 ^ dw) := by
  induction n with
  | zero => exact absurd hj (Nat.not_lt_zero j)
  | succ n ih =>
    rw [List.range_succ, List.foldl_append, List.foldl_cons, List.foldl_nil]
    rcases Nat.lt_succ_iff_lt_or_eq.1 hj with hlt | rfl
    · rw [packed_putSome_ne _ _ _ _ (Nat.ne_of_lt hlt), ih hlt]
    · rw [packed_putSome, packed_foldl_putSome_of_le _ _ _ _ (Nat.le_refl _)]

end

end Sys2Proof.Machine
end

section
/-! PROOFS. Conversions (R319 to R325): the element codes and blocks that CVT reads, and the row of codes that it puts into VD. -/

namespace Sys2Proof.Machine

/-! Sizes of the formats (R58, R60, R319, R321). -/

/-- The whole bytes of an element. -/
theorem fmtBytes_cases (c : Nat) : fmtBytes c = 1 ∨ fmtBytes c = 2 ∨ fmtBytes c = 4 := by
  unfold fmtBytes fmtBits
  split <;> decide

theorem fmtBits_le (c : Nat) : fmtBits c ≤ 8 * fmtBytes c := by
  unfold fmtBytes
  omega

theorem four_le_fmtBits (c : Nat) : 4 ≤ fmtBits c := by
  unfold fmtBits
  split <;> decide

/-- The elements of a conversion into format d come in blocks of 32, and a register holds them. -/
theorem convertCount (c d : Nat) : ∃ m, 1024 / max (fmtBytes c) (fmtBytes d) = 32 * m ∧ 32 * m ≤ 1024 ∧
    32 * m * fmtBits d ≤ 8192 := by
  have hwide : fmtBits d ≤ 8 * max (fmtBytes c) (fmtBytes d) := (fmtBits_le d).trans (Nat.mul_le_mul_left 8 (Nat.le_max_right _ _))
  have hmax : max (fmtBytes c) (fmtBytes d) = 1 ∨ max (fmtBytes c) (fmtBytes d) = 2 ∨ max (fmtBytes c) (fmtBytes d) = 4 := by
    rcases max_choice (fmtBytes c) (fmtBytes d) with h | h
    · rw [h]
      exact fmtBytes_cases c
    · rw [h]
      exact fmtBytes_cases d
  rcases hmax with h | h | h <;> rw [h] at hwide ⊢
  · exact ⟨32, rfl, by decide, by omega⟩
  · exact ⟨16, rfl, by decide, by omega⟩
  · exact ⟨8, rfl, by decide, by omega⟩

/-! What CVT names and reads. -/

/-- Source format of a CVT word. -/
def cvtSrc (w : Nat) : Nat := bitsOf w 20 17
/-- Destination format. -/
def cvtDst (w : Nat) : Nat := bitsOf w 16 13
/-- PART. -/
def cvtPart (w : Nat) : Nat := bitsOf w 12 10
/-- Elements converted (R319). -/
def cvtCount (w : Nat) : Nat := 1024 / max (fmtBytes (cvtSrc w)) (fmtBytes (cvtDst w))

/-- Element code i of the source. -/
def cvtCode (x : Tile) (w i : Nat) : Nat :=
  packed (x.vreg (fVa w)) (sideBit (fmtBits (cvtSrc w)) (fmtBits (cvtDst w)) (cvtPart w) (cvtCount w)) (fmtBits (cvtSrc w)) i

/-- First scale byte of the source. -/
def cvtSrcScale (w : Nat) : Nat := scaleByte (fmtBits (cvtSrc w)) (fmtBits (cvtDst w)) (cvtPart w) (cvtCount w)

/-- Value of source element i, under its block's scale where the source is an MX format (R71, R322). -/
def cvtVal (x : Tile) (w i : Nat) : FV :=
  if isMx (cvtSrc w) then mxVal (cvtSrc w) (cvtCode x w i) (regByte (x.vreg (fVb w)) (cvtSrcScale w + i / 32))
  else elemVal (cvtSrc w) (cvtCode x w i)

/-- First bit of the destination. -/
def cvtDstBit (w : Nat) : Nat := sideBit (fmtBits (cvtDst w)) (fmtBits (cvtSrc w)) (cvtPart w) (cvtCount w)

/-- First scale byte of the destination. -/
def cvtDstScale (w : Nat) : Nat := scaleByte (fmtBits (cvtDst w)) (fmtBits (cvtSrc w)) (cvtPart w) (cvtCount w)

/-- Code i of a destination that is no MX format (R106, R324). -/
def cvtElem (x : Tile) (w i : Nat) : Nat :=
  if cvtSrc w = cvtDst w then (if (elemVal (cvtSrc w) (cvtCode x w i)).isNan then convert (cvtDst w) 0 false .nan else cvtCode x w i)
  else convert (cvtDst w) (fRnd w) (fSat w) (cvtVal x w i)

/-- What a destination that is no MX format takes as code i, if anything (R305). -/
def cvtMasked (x : Tile) (w i : Nat) : Option Nat :=
  if bitOf (x.mreg (fMask w)) i then some (cvtElem x w i) else if fMz w then some 0 else none

/-- Scale byte and codes of block q of an MX destination (R110, R324). -/
def cvtBlock (x : Tile) (w q : Nat) : Nat × List Nat :=
  if cvtSrc w = cvtDst w then
    (regByte (x.vreg (fVb w)) (cvtSrcScale w + q), (List.range 32).map fun j => cvtCode x w (32 * q + j))
  else mxBlock (cvtDst w) (fRnd w) (fSat w) ((List.range 32).map fun j => cvtVal x w (32 * q + j))

/-- Code i of an MX destination. -/
def cvtBlockCode (x : Tile) (w i : Nat) : Nat := wd (cvtBlock x w (i / 32)).2 (i % 32)

/-- Vector registers that CVT reads (R322, R324). -/
def cvtVectors (w : Nat) : List Nat :=
  [fVa w, fVd w] ++ (if isMx (cvtSrc w) then [fVb w] else []) ++ (if isMx (cvtDst w) then [fVc w] else [])

/-- A CVT word that R344 does not refuse. -/
structure CvtLegal (w : Nat) : Prop where
  reserved : bitsOf w 9 0 = 0
  src : cvtSrc w < 0xD
  dst : cvtDst w < 0xD
  ty : fTy w = 0
  same : fmtBits (cvtSrc w) = fmtBits (cvtDst w) → cvtPart w = 0
  part : fmtBits (cvtSrc w) ≠ fmtBits (cvtDst w) →
    (cvtPart w + 1) * (cvtCount w * min (fmtBits (cvtSrc w)) (fmtBits (cvtDst w))) ≤ 8192
  mask : isMx (cvtDst w) = true → fMask w = 0

/-- The row of codes ends inside VD. -/
theorem cvtDst_fits {w : Nat} (h : CvtLegal w) : cvtDstBit w + fmtBits (cvtDst w) * cvtCount w ≤ 8192 := by
  unfold cvtDstBit sideBit
  split
  case isTrue hlt =>
    have hpart := h.part (Nat.ne_of_gt hlt)
    rw [Nat.min_eq_right (Nat.le_of_lt hlt), Nat.succ_mul] at hpart
    rwa [Nat.mul_comm (fmtBits _)]
  case isFalse =>
    obtain ⟨m, hm, -, hbits⟩ := convertCount (cvtSrc w) (cvtDst w)
    rw [Nat.zero_add, Nat.mul_comm, cvtCount, hm]
    exact hbits

/-- The scale bytes end inside VC. -/
theorem cvtDstScale_fits {w : Nat} (h : CvtLegal w) : 8 * cvtDstScale w + 8 * (cvtCount w / 32) ≤ 8192 := by
  obtain ⟨m, hm, hcount, -⟩ := convertCount (cvtSrc w) (cvtDst w)
  have hn : cvtCount w = 32 * m := hm
  unfold cvtDstScale scaleByte
  split
  case isTrue hlt =>
    have hpart := h.part (Nat.ne_of_gt hlt)
    rw [Nat.min_eq_right (Nat.le_of_lt hlt), hn, ← Nat.mul_assoc] at hpart
    have hfour := (Nat.mul_le_mul_left ((cvtPart w + 1) * (32 * m)) (four_le_fmtBits (cvtDst w))).trans hpart
    have hscale : cvtPart w * (32 * m) / 32 = cvtPart w * m := by
      rw [Nat.mul_left_comm, Nat.mul_div_cancel_left _ (by decide)]
    rw [hn, hscale, Nat.mul_div_cancel_left _ (by decide)]
    rw [Nat.succ_mul, Nat.mul_left_comm] at hfour
    omega
  case isFalse =>
    rw [hn, Nat.mul_div_cancel_left _ (by decide)]
    omega

/-! Blocks of 32 in a list. -/

/-- Block q of a mapped range. -/
theorem take_drop_map_range {α : Type} (f : Nat → α) {n q k : Nat} (h : q + k ≤ n) :
    (((List.range n).map f).drop q).take k = (List.range k).map fun j => f (q + j) := by
  refine List.ext_getElem (by simp; omega) fun j hj hj2 => ?_
  simp

/-- The elements of blocks of 32, one after the other. -/
theorem flatMap_blocks (f : Nat → List Nat) (m : Nat) (hlen : ∀ q, (f q).length = 32) :
    (List.range m).flatMap f = (List.range (32 * m)).map fun i => wd (f (i / 32)) (i % 32) := by
  induction m with
  | zero => rfl
  | succ m ih =>
    have hlast : f m = (List.range 32).map fun j => wd (f ((32 * m + j) / 32)) ((32 * m + j) % 32) := by
      refine List.ext_getElem (by simp [hlen]) fun j hj hj2 => ?_
      have hj32 : j < 32 := hlen m ▸ hj
      have hq : (32 * m + j) / 32 = m := by omega
      have hr : (32 * m + j) % 32 = j := by omega
      rw [List.getElem_map, List.getElem_range, hq, hr, wd, List.getD_eq_getElem _ _ hj]
    rw [List.range_succ, List.flatMap_append, ih, Nat.mul_succ, List.range_add, List.map_append, List.map_map, List.flatMap_singleton,
      hlast]
    rfl

theorem length_mxBlock (c rnd : Nat) (sat : Bool) (vs : List FV) : (mxBlock c rnd sat vs).2.length = vs.length := by
  unfold mxBlock
  split
  · exact List.length_map _
  · exact List.length_map _

theorem length_cvtBlock (x : Tile) (w q : Nat) : (cvtBlock x w q).2.length = 32 := by
  unfold cvtBlock
  split
  · simp
  · simp [length_mxBlock]

/-! The word. -/

section
variable {s : State} {p : Fin 8} {t : Fin 16} {r : Run} {w : Nat}

/-- The test of R344 on a legal CVT. -/
theorem CvtLegal.passes (h : CvtLegal w) : ¬(bitsOf w 9 0 != 0 || decide (0xD ≤ cvtSrc w) || decide (0xD ≤ cvtDst w) || fTy w != 0 ||
    (fmtBits (cvtSrc w) == fmtBits (cvtDst w) && cvtPart w != 0) ||
    decide (8192 < (cvtPart w + 1) * (cvtCount w * min (fmtBits (cvtSrc w)) (fmtBits (cvtDst w)))) &&
      fmtBits (cvtSrc w) != fmtBits (cvtDst w) ||
    (isMx (cvtDst w) && fMask w != 0)) = true := by
  obtain ⟨hres, hsrc, hdst, hty, hsame, hpart, hmask⟩ := h
  by_cases hw : fmtBits (cvtSrc w) = fmtBits (cvtDst w)
  · simpa [hres, hty, hw, hsame hw, Nat.not_le.2 hsrc, Nat.not_le.2 hdst] using hmask
  · simpa [hres, hty, hw, Nat.not_le.2 hsrc, Nat.not_le.2 hdst, Nat.not_lt.2 (hpart hw)] using hmask

/-- The values that CVT lists. -/
theorem cvtVals_eq (x : Tile) (w : Nat) :
    ((List.zip (List.range (cvtCount w)) ((List.range (cvtCount w)).map (cvtCode x w))).map fun ic =>
      if isMx (cvtSrc w) then mxVal (cvtSrc w) ic.2
        (((List.range (cvtCount w / 32)).map fun q => regByte (x.vreg (fVb w)) (cvtSrcScale w + q)).getD (ic.1 / 32) 0)
      else elemVal (cvtSrc w) ic.2) = (List.range (cvtCount w)).map (cvtVal x w) := by
  obtain ⟨m, hm, -, -⟩ := convertCount (cvtSrc w) (cvtDst w)
  rw [← List.map_prod_left_eq_zip, List.map_map]
  refine List.map_congr_left fun i hi => ?_
  have hblock : i / 32 < cvtCount w / 32 := by
    have hi := List.mem_range.1 hi
    rw [cvtCount, hm] at hi ⊢
    omega
  rw [Function.comp_apply, getD_map_range _ _ hblock, cvtVal]

/-- The blocks that CVT lists for an MX destination. -/
theorem cvtBlocks_eq (x : Tile) (w : Nat) :
    ((List.range (cvtCount w / 32)).map fun q =>
      if cvtSrc w = cvtDst w then
        (((List.range (cvtCount w / 32)).map fun q => regByte (x.vreg (fVb w)) (cvtSrcScale w + q)).getD q 0,
          (((List.range (cvtCount w)).map (cvtCode x w)).drop (32 * q)).take 32)
      else mxBlock (cvtDst w) (fRnd w) (fSat w) ((((List.range (cvtCount w)).map (cvtVal x w)).drop (32 * q)).take 32)) =
      (List.range (cvtCount w / 32)).map (cvtBlock x w) := by
  refine List.map_congr_left fun q hq => ?_
  have hq := List.mem_range.1 hq
  rw [getD_map_range _ _ hq, take_drop_map_range _ (by omega), take_drop_map_range _ (by omega), cvtBlock]

/-- The codes of a destination that is no MX format. -/
theorem execCvt_of_plain (h : Stands s p t 0x38 r w) (hl : CvtLegal w) (hmx : isMx (cvtDst w) = false)
    (hregs : (s.tile p t).regBad (cvtVectors w) [fMask w] [] = false) :
    execCvt p t s = .next (movedOn s p t r ((s.tile p t).setV (fVd w)
      ((List.range (cvtCount w)).foldl (putSome (cvtDstBit w) (fmtBits (cvtDst w)) (cvtMasked (s.tile p t) w))
        ((s.tile p t).vreg (fVd w))))) := by
  rw [execCvt, issue_stands h]
  refine congrArg _ ((if_neg hl.passes).trans ((withRegs_clean hregs _).trans ?_))
  extract_lets sb db codes ssc dsc scales vals blocks vd1 y vc res vd
  have hvals : vals = (List.range (cvtCount w)).map (cvtVal (s.tile p t) w) := cvtVals_eq (s.tile p t) w
  have hres : res = (List.range (cvtCount w)).map (cvtElem (s.tile p t) w) := by
    show (List.zip ((List.range (cvtCount w)).map (cvtCode (s.tile p t) w)) vals).map _ = _
    rw [hvals, List.zip_map', List.map_map]
    rfl
  have hvd : vd = (List.range (cvtCount w)).foldl (putSome (cvtDstBit w) (fmtBits (cvtDst w)) (cvtMasked (s.tile p t) w))
      ((s.tile p t).vreg (fVd w)) := by
    show (List.zip _ res).foldl _ _ = _
    rw [hres]
    exact foldl_putBits_masked_eq _ _ (bitOf ((s.tile p t).mreg (fMask w))) (fMz w) _ _ _
  refine (if_neg fun hc => Bool.false_ne_true (hmx.symm.trans hc)).trans ?_
  rw [hvd]
  rfl

/-- VD after a CVT to an MX format. -/
def cvtMxVd (x : Tile) (w : Nat) : Nat :=
  (List.range (cvtCount w)).foldl (putSome (cvtDstBit w) (fmtBits (cvtDst w)) fun i => some (cvtBlockCode x w i)) (x.vreg (fVd w))

/-- VC after it: VD is written first. -/
def cvtMxVc (x : Tile) (w : Nat) : Nat :=
  (List.range (cvtCount w / 32)).foldl (putSome (8 * cvtDstScale w) 8 fun q => some (cvtBlock x w q).1)
    ((x.setV (fVd w) (cvtMxVd x w)).vreg (fVc w))

/-- The codes and the scale bytes of an MX destination. -/
theorem execCvt_of_mx (h : Stands s p t 0x38 r w) (hl : CvtLegal w) (hmx : isMx (cvtDst w) = true)
    (hregs : (s.tile p t).regBad (cvtVectors w) [fMask w] [] = false) :
    execCvt p t s = .next (movedOn s p t r
      (((s.tile p t).setV (fVd w) (cvtMxVd (s.tile p t) w)).setV (fVc w) (cvtMxVc (s.tile p t) w))) := by
  rw [execCvt, issue_stands h]
  refine congrArg _ ((if_neg hl.passes).trans ((withRegs_clean hregs _).trans ?_))
  extract_lets sb db codes ssc dsc scales vals blocks vd y vc res vd1
  have hvals : vals = (List.range (cvtCount w)).map (cvtVal (s.tile p t) w) := cvtVals_eq (s.tile p t) w
  have hblocks : blocks = (List.range (cvtCount w / 32)).map (cvtBlock (s.tile p t) w) := by
    rw [← cvtBlocks_eq, ← hvals]
    rfl
  have hcodes : blocks.flatMap (·.2) = (List.range (cvtCount w)).map (cvtBlockCode (s.tile p t) w) := by
    obtain ⟨m, hm, -, -⟩ := convertCount (cvtSrc w) (cvtDst w)
    have hn : cvtCount w = 32 * m := hm
    rw [hblocks, List.flatMap_map, flatMap_blocks _ _ (length_cvtBlock _ _), hn, Nat.mul_div_cancel_left _ (by decide)]
    rfl
  have hvd : vd = cvtMxVd (s.tile p t) w := by
    show (List.zip _ (blocks.flatMap _)).foldl _ _ = _
    rw [hcodes]
    exact foldl_putBits_eq _ _ _ _ _
  have hvc : vc = cvtMxVc (s.tile p t) w := by
    show (List.zip _ (blocks.map _)).foldl _ (((s.tile p t).setV (fVd w) vd).vreg (fVc w)) = _
    rw [hblocks, hvd, List.map_map, cvtMxVc, ← foldl_putBits_eq]
    refine List.foldl_ext _ _ _ fun v ic _ => ?_
    rw [Nat.mul_add]
    rfl
  refine (if_pos hmx).trans ?_
  rw [hvc]
  show finish s p t (((s.tile p t).setV (fVd w) vd).setV (fVc w) _) r = _
  rw [hvd]
  rfl

end

theorem Tile.vreg_lt (x : Tile) (k : Nat) : x.vreg k < 2 ^ 8192 := (tabGet (0 : BitVec 8192) x.v k).isLt

/-- A scale byte is a code of 8 bits. -/
theorem regByte_add (c d q : Nat) : regByte c (d + q) = packed c (8 * d) 8 q := by
  rw [regByte, packed, Nat.mul_add]
  rfl

/-- A code of a destination that is no MX format, under the mask. -/
theorem packed_cvtMasked (x : Tile) (w : Nat) {i : Nat} (hi : i < cvtCount w) :
    packed ((List.range (cvtCount w)).foldl (putSome (cvtDstBit w) (fmtBits (cvtDst w)) (cvtMasked x w)) (x.vreg (fVd w)))
      (cvtDstBit w) (fmtBits (cvtDst w)) i =
      if bitOf (x.mreg (fMask w)) i then cvtElem x w i % 2 ^ fmtBits (cvtDst w)
      else if fMz w then 0 else packed (x.vreg (fVd w)) (cvtDstBit w) (fmtBits (cvtDst w)) i := by
  rw [packed_foldl_putSome _ _ _ _ hi, cvtMasked]
  split
  · rfl
  · split
    · exact Nat.zero_mod _
    · rfl

/-- Code j of block q of an MX destination. -/
theorem packed_cvtMxVd (x : Tile) (w : Nat) {q j : Nat} (hq : q < cvtCount w / 32) (hj : j < 32) :
    packed (cvtMxVd x w) (cvtDstBit w) (fmtBits (cvtDst w)) (32 * q + j) = wd (cvtBlock x w q).2 j % 2 ^ fmtBits (cvtDst w) := by
  have hdiv : (32 * q + j) / 32 = q := by omega
  have hmod : (32 * q + j) % 32 = j := by omega
  rw [cvtMxVd, packed_foldl_putSome _ _ _ _ (by omega)]
  show wd (cvtBlock x w ((32 * q + j) / 32)).2 ((32 * q + j) % 32) % _ = _
  rw [hdiv, hmod]

/-- Scale byte of block q. -/
theorem regByte_cvtMxVc (x : Tile) (w : Nat) {q : Nat} (hq : q < cvtCount w / 32) :
    regByte (cvtMxVc x w) (cvtDstScale w + q) = (cvtBlock x w q).1 % 256 := by
  rw [regByte_add, cvtMxVc, packed_foldl_putSome _ _ _ _ hq]
  rfl

end Sys2Proof.Machine
end

section
/-! PROOFS. Reductions (R326 to R341): the segments of VA, and the records or scalars that RED leaves. -/

namespace Sys2Proof.Machine

/-! What RED names and reads. -/

/-- ROP of a RED word. -/
def redRop (w : Nat) : Nat := bitsOf w 48 46
/-- Elements of a segment (R327). -/
def redGroup (w : Nat) : Nat := 2 ^ (bitsOf w 26 24 + 4)
/-- Entries of a TOPK record. -/
def redK (w : Nat) : Nat := bitsOf w 23 18 + 1
/-- AM address of the records. -/
def redAddr (w : Nat) : Nat := 64 * bitsOf w 14 0
/-- Bytes of a record. -/
def redSize (w : Nat) : Nat := if redRop w ≤ 2 then 4 else if redRop w = 3 then 8 else 8 * redK w

/-- Segment j with its mask bits (R327, R328). -/
def redSeg (x : Tile) (w wid n j : Nat) : List (Nat × Bool) :=
  ((List.zip ((vElems wid n (x.vreg (fVa w))).map (redElem (fTy w))) (vMask n (x.mreg (fMask w)))).drop (redGroup w * j)).take (redGroup w)

/-- Result of segment j alone. -/
def redRes (x : Tile) (w wid n j : Nat) : List Nat :=
  segWords (redRop w) (fTy w) (redK w) (if 3 ≤ redRop w then x.sreg (bitsOf w 31 27) else 0) (redSeg x w wid n j)

/-- Elements of segment j whose mask bit is 1. -/
def redCount (x : Tile) (w wid n j : Nat) : Nat := ((redSeg x w wid n j).filter (·.2)).length

/-- Result of segment j, with RUN combined into the words `old` before it (R336). -/
def redOut (x : Tile) (w wid n j : Nat) (old : List Nat) : List Nat :=
  if bitOf w 45 then redRun (redRop w) (fTy w) (redK w) (redCount x w wid n j) old (redRes x w wid n j) else redRes x w wid n j

/-- A RED word over n elements that R344 does not refuse. -/
structure RedLegal (w n : Nat) : Prop where
  ty : fTy w ≠ 4
  bit52 : bitOf w 52 = false
  bit43 : bitOf w 43 = false
  reserved : bitsOf w 17 15 = 0
  rop : redRop w < 5
  group : redGroup w ≤ n
  squares : redRop w = 2 → fTy w ≠ 3
  index : redRop w = 3 → bitsOf w 36 32 ≠ 31
  scalar : bitOf w 44 = false → redGroup w = n ∧ redRop w ≠ 4

theorem RedLegal.passes {w n : Nat} (h : RedLegal w n) : ¬(fTy w == 4 || bitOf w 52 || bitOf w 43 || bitsOf w 17 15 != 0 ||
    decide (5 ≤ redRop w) || decide (n < redGroup w) || (!bitOf w 44 && n != redGroup w) || (!bitOf w 44 && redRop w == 4) ||
    (redRop w == 2 && fTy w == 3) || (redRop w == 3 && bitsOf w 36 32 == 31)) = true := by
  obtain ⟨hty, h52, h43, hres, hrop, hgroup, hsquares, hindex, hscalar⟩ := h
  simp only [h52, h43, hres, Bool.or_false, Bool.or_eq_true, Bool.and_eq_true, Bool.not_eq_true', beq_iff_eq, bne_iff_ne,
    decide_eq_true_eq, not_or, not_and, ne_eq, not_true_eq_false, not_false_eq_true, Nat.not_le, Nat.not_lt]
  grind

/-- Scalars that a RED reads: the index base, and with RUN the result before (R334, R336). -/
def redScalars (w : Nat) : List Nat :=
  (if 3 ≤ redRop w then [bitsOf w 31 27] else []) ++
    (if bitOf w 45 && !bitOf w 44 then (if redRop w = 3 then [bitsOf w 36 32, bitsOf w 36 32 + 1] else [bitsOf w 36 32]) else [])

/-- With AM 1 the result before stands in AM. -/
theorem redScalars_of_records {w : Nat} (ham : bitOf w 44 = true) :
    redScalars w = if 3 ≤ redRop w then [bitsOf w 31 27] else [] := by
  rw [redScalars, ham, Bool.not_true, Bool.and_false, if_neg Bool.false_ne_true, List.append_nil]

theorem redScalars_of_scalar {w : Nat} (ham : bitOf w 44 = false) : redScalars w =
    (if 3 ≤ redRop w then [bitsOf w 31 27] else []) ++
      (if bitOf w 45 then (if redRop w = 3 then [bitsOf w 36 32, bitsOf w 36 32 + 1] else [bitsOf w 36 32]) else []) := by
  rw [redScalars, ham, Bool.not_false, Bool.and_true]

section
variable {s : State} {p : Fin 8} {t : Fin 16} {r : Run} {w wid n : Nat}

/-- RED with AM 1: the records stand one after the other from the address on. -/
theorem execRed_of_records (h : Stands s p t 0x3C r w) (hty : vType (fTy w) = some (wid, n)) (hl : RedLegal w n) (ham : bitOf w 44 = true)
    (hregs : (s.tile p t).regBad [fVa w] [fMask w] (redScalars w) = false)
    (hin : redAddr w + n / redGroup w * redSize w ≤ Spc.size .am)
    (hread : bitOf w 45 = true → (s.tile p t).am.readErr (redAddr w) (n / redGroup w * redSize w) = none)
    (hmerge : bitOf w 45 = false → (s.tile p t).am.mergeErr (redAddr w) (n / redGroup w * redSize w) = none) :
    execRed p t s = .next (movedOn s p t r { s.tile p t with am := (s.tile p t).am.write (redAddr w) (wordsBytes
      ((List.range (n / redGroup w)).map fun j => redOut (s.tile p t) w wid n j
        (memWords (s.tile p t).am.bytes (redAddr w + redSize w * j) (redSize w / 4))).flatten) false }) := by
  have haddr : ¬(bitOf w 44 && decide (Spc.size .am < redAddr w + n / redGroup w * redSize w)) = true := by simp [hin]
  have hlines : (if bitOf w 45 = true then (s.tile p t).am.readErr (redAddr w) (n / redGroup w * redSize w)
      else (s.tile p t).am.mergeErr (redAddr w) (n / redGroup w * redSize w)) = none := by
    split
    case isTrue hrun => exact hread hrun
    case isFalse hrun => exact hmerge (Bool.eq_false_iff.2 hrun)
  rw [execRed, issue_stands h]
  simp only [hty]
  refine congrArg _ ((if_neg hl.passes).trans ((withRegs_clean hregs _).trans ((if_neg haddr).trans ((if_pos ham).trans ?_))))
  split
  case h_1 e herr => exact absurd (hlines.symm.trans herr) nofun
  case h_2 herr =>
    show finish s p t { s.tile p t with am := (s.tile p t).am.write (redAddr w) (wordsBytes (List.map _ (List.zip
      (List.range (n / redGroup w)) ((List.range (n / redGroup w)).map (redRes (s.tile p t) w wid n)))).flatten) false } r = _
    rw [← List.map_prod_left_eq_zip, List.map_map]
    rfl

/-- RED with AM 0: the one segment's result in scalar SD, an ARGMAX's index behind it. -/
theorem execRed_of_scalar (h : Stands s p t 0x3C r w) (hty : vType (fTy w) = some (wid, n)) (hl : RedLegal w n) (ham : bitOf w 44 = false)
    (hregs : (s.tile p t).regBad [fVa w] [fMask w] (redScalars w) = false) :
    let x := s.tile p t
    let sd := bitsOf w 36 32
    let out := redOut x w wid n 0 (if redRop w = 3 then [x.sreg sd, x.sreg (sd + 1)] else [x.sreg sd])
    execRed p t s = .next (movedOn s p t r
      (if redRop w = 3 then (x.setS sd (wd out 0)).setS (sd + 1) (wd out 1) else x.setS sd (wd out 0))) := by
  intro x sd out
  have haddr : ¬(bitOf w 44 && decide (Spc.size .am < redAddr w + n / redGroup w * redSize w)) = true := by simp [ham]
  have hone : n / redGroup w = 1 := by
    obtain ⟨hgroup, -⟩ := hl.scalar ham
    rw [← hgroup]
    exact Nat.div_self (Nat.two_pow_pos _)
  rw [execRed, issue_stands h]
  simp only [hty]
  refine congrArg _ ((if_neg hl.passes).trans ((withRegs_clean hregs _).trans ((if_neg haddr).trans
    ((if_neg fun hc => Bool.false_ne_true (ham.symm.trans hc)).trans ?_))))
  have hnew : ((List.range (n / redGroup w)).map (redRes x w wid n)).headD [] = redRes x w wid n 0 := by
    rw [hone, List.range_one, List.map_singleton, List.headD_cons]
  simp only [out, redOut, ← hnew]
  rfl

end

/-- Settles O13: a legal CVT puts a row of codes, and a row of scale bytes for an MX destination; a legal RED writes the results of its
segments (R319 to R339). -/
theorem conversionsAndReductionsComplete : Obligations.ConversionsAndReductionsComplete := by
  unfold Obligations.ConversionsAndReductionsComplete
  refine ⟨fun s p t r w => ?cvt, fun s p t r w wid n hty => ?red⟩
  case cvt =>
    intro x src dst part sw dw n code val db h hres hsrc hdst hty hsame hpart hmask hregs
    have hl : CvtLegal w := ⟨hres, hsrc, hdst, hty, hsame, hpart, hmask⟩
    refine ⟨fun hmx => ⟨_, foldl_putSome_lt _ _ _ (x.vreg_lt _) (cvtDst_fits hl), execCvt_of_plain h hl hmx hregs,
        fun i hi => packed_cvtMasked x w hi⟩,
      fun hmx => ⟨cvtMxVd x w, foldl_putSome_lt _ _ _ (x.vreg_lt _) (cvtDst_fits hl), cvtMxVc x w,
        foldl_putSome_lt _ _ _ (Tile.vreg_lt _ _) (cvtDstScale_fits hl), execCvt_of_mx h hl hmx hregs, fun hne q hq => ?blocks⟩⟩
    case blocks =>
      intro blk
      have hblk : cvtBlock x w q = blk := if_neg hne
      rw [← hblk]
      exact ⟨regByte_cvtMxVc x w hq, fun j hj => packed_cvtMxVd x w hq hj⟩
  case red =>
    intro x ty rop run sd sb g k a size elems seg res some_ h h4 h52 h43 hres hrop hg hsq hidx
    refine ⟨fun ham hregs hin hread hmerge => ?records, fun ham hone htop hregs => ?scalar⟩
    case records =>
      have hl : RedLegal w n := ⟨h4, h52, h43, hres, hrop, hg, hsq, hidx, fun h0 => absurd (h0.symm.trans ham) Bool.false_ne_true⟩
      exact execRed_of_records h hty hl ham ((redScalars_of_records ham).symm ▸ hregs) hin hread hmerge
    case scalar =>
      have hl : RedLegal w n := ⟨h4, h52, h43, hres, hrop, hg, hsq, hidx, fun _ => ⟨hone, htop⟩⟩
      exact execRed_of_scalar h hty hl ham ((redScalars_of_scalar ham).symm ▸ hregs)

end Sys2Proof.Machine
end

section
/-! PROOFS. Micro-program banks (R372, R373, R387 to R392): a write that passes its checks goes into the standby banks, a preparation waits
for them and fills them from the active ones, and a preparation whose limit has passed ends where a standby bank is still held. -/

namespace Sys2Proof.Machine

/-! Writes into the standby banks (R372, R373, R387, R395). -/

/-- Slot q of the standby bank changed by f on every partition of context c, where the words `ks` of the slot have good parity again. -/
def writeStandby (u : State) (c q : Nat) (f : SfuSlot → SfuSlot) (ks : List Nat) : State :=
  (u.ctx c).parts.foldl (fun v p =>
    (v.setCp c p (modStandby (v.cp c p) fun t => tabMod {} t q f)).rewritten c p fun key =>
      ks.any fun j => key == bankKey (v.cp c p).standbyNo q j) u

/-- Slot x with the segments from `first` on that the coefficients cs give, four to a segment (R373). -/
def SfuSlot.putSegs (x : SfuSlot) (first n : Nat) (cs : List Nat) : SfuSlot :=
  { x with segs := (List.range n).foldl (fun t i => tabSet t (first + i) ((cs.drop (4 * i)).take 4)) x.segs }

/-- The words of the segments from `first` on (R395). -/
def segRangeWords (first n : Nat) : List Nat := (List.range n).flatMap fun i => mpSegWords (first + i)

section
variable {s u : State} {k : Fin 9} {r : Req}

/-- The check that a write shares with the others of its kind: its standby banks are free and no preparation waits (R387). -/
theorem firstBad_bankFree (hheld : standbyHeld u r.ctx = false) (hprep : preparing u r.ctx = false) :
    firstBad [(standbyHeld u r.ctx || preparing u r.ctx, 0x0522, noField)] = none :=
  firstBad_cons (Bool.or_eq_false_iff.2 ⟨hheld, hprep⟩) firstBad_nil

/-- An SFU_SLOT_WRITE whose checks pass puts its words into the slot (R372, R378, R1049). -/
theorem execSfuSlotWrite_of_accepted (hheld : standbyHeld u r.ctx = false) (hprep : preparing u r.ctx = false)
    (h : Asked s k 0x0520 r u) (hres : NoBits r [0xFF0EE0E0, 0xFFFF0000])
    (hlo : 1 ≤ bitsOf (wd r.payload 0) 12 8) (hhi : bitsOf (wd r.payload 0) 12 8 ≤ 16)
    (hsteps : ∀ x ∈ (r.payload.drop 12).take (bitsOf (wd r.payload 0) 12 8), mpStepBad x = false) (hlook : mpLookupBad r.payload = false) :
    execSfuSlotWrite k s = .next (okReply (extendCmr (writeStandby u r.ctx (wd r.payload 0 % 16)
      (fun x => { x with words := r.payload }) (List.range 14)) r.ctx 0x0520 (wordsBytes r.payload)) k r []) := by
  have hcount : (bitsOf (wd r.payload 0) 12 8 == 0 || decide (16 < bitsOf (wd r.payload 0) 12 8)) = false := by
    simp only [Bool.or_eq_false_iff, beq_eq_false_iff_ne, decide_eq_false_iff_not]
    omega
  rw [execSfuSlotWrite, runOp_asked h, next]
  refine congrArg _ (checked_go ?_)
  exact firstBad_reserved _ hres <| firstBad_cons hcount <| firstBad_cons (List.any_eq_false.2 fun x hx => by simp [hsteps x hx]) <|
    firstBad_cons hlook <| firstBad_bankFree hheld hprep

/-- An SFU_TABLE_WRITE whose checks pass puts its segments into the slot (R373, R378, R1049). -/
theorem execSfuTableWrite_of_accepted {first n : Nat} {cs : List Nat} (hfirst : bitsOf (wd r.payload 0) 15 8 = first)
    (hn : bitsOf (wd r.payload 0) 23 16 = n) (hcs : (r.payload.drop 4).take (4 * n) = cs)
    (hheld : standbyHeld u r.ctx = false) (hprep : preparing u r.ctx = false) (h : Asked s k 0x0521 r u)
    (hres : NoBits r [0xFF0000F0, 0xFFFFFFFF, 0xFFFFFFFF, 0xFFFFFFFF]) (hlo : 1 ≤ n) (hhi : n ≤ 248) (hin : first + n ≤ 256)
    (hfin : ∀ x ∈ cs, (ofF32 x).isFin = true) :
    execSfuTableWrite k s = .next (okReply (extendCmr (writeStandby u r.ctx (wd r.payload 0 % 16)
      (fun x => x.putSegs first n cs) (segRangeWords first n)) r.ctx 0x0521 (wordsBytes r.payload)) k r []) := by
  subst hfirst hn hcs
  have hrange : (bitsOf (wd r.payload 0) 23 16 == 0 || decide (248 < bitsOf (wd r.payload 0) 23 16) ||
      decide (256 < bitsOf (wd r.payload 0) 15 8 + bitsOf (wd r.payload 0) 23 16)) = false := by
    simp only [Bool.or_eq_false_iff, beq_eq_false_iff_ne, decide_eq_false_iff_not]
    omega
  simp only [writeStandby, segRangeWords, List.any_flatMap]
  rw [execSfuTableWrite, runOp_asked h, next]
  refine congrArg _ (checked_go ?_)
  exact firstBad_reserved _ hres <| firstBad_cons hrange <| firstBad_cons (List.any_eq_false.2 fun x hx => by simp [hfin x hx]) <|
    firstBad_bankFree hheld hprep

/-! Preparation, switch and query (R388 to R392). -/

/-- An SFU_BANK_PREPARE whose checks pass waits on every partition until its standby bank is free (R388). -/
theorem execSfuBankPrepare_of_accepted (h : Asked s k 0x0522 r u) (hres : NoBits r [0xFFFFFF7F]) (hprep : preparing u r.ctx = false)
    (hnowait : bitOf (wd r.payload 0) 7 = true → standbyHeld u r.ctx = false) :
    execSfuBankPrepare k s = .next ((u.ctx r.ctx).parts.foldl (fun v p => v.setCp r.ctx p (drainBank
      { v.cp r.ctx p with prep := some u.nextOp })) (limitedOp u k r (u.ctx r.ctx).parts (wd r.payload 1))) := by
  have hfree : (bitOf (wd r.payload 0) 7 && standbyHeld u r.ctx) = false := by simpa using hnowait
  rw [execSfuBankPrepare, runOp_asked h, next]
  refine congrArg _ (checked_go ?_)
  exact firstBad_reserved _ hres <| firstBad_cons hprep <| firstBad_cons hfree firstBad_nil

/-- With no preparation waiting every partition exchanges its banks (R390). -/
theorem execSfuBankSwitch_of_idle (h : Asked s k 0x0523 r u) (hprep : preparing u r.ctx = false) :
    execSfuBankSwitch k s = .next (okReply ((u.ctx r.ctx).parts.foldl (fun v p =>
      v.setCp r.ctx p { v.cp r.ctx p with active := 1 - (v.cp r.ctx p).active }) u) k r []) := by
  rw [execSfuBankSwitch, runOp_asked h, next]
  exact congrArg _ (checked_go (firstBad_cons hprep firstBad_nil))

end

/-! A filled standby bank, and the preparation that it belongs to (R388). -/

@[simp] theorem State.setCp_ops (s : State) (c p : Nat) (x : CtxPart) : (s.setCp c p x).ops = s.ops := rfl

/-- Good parity of a bank's words ends no operation. -/
@[simp] theorem State.rewritten_ops (s : State) (c p : Nat) (ks : Nat → Bool) : (s.rewritten c p ks).ops = s.ops := by
  rw [State.rewritten]
  refine List.foldlRecOn (motive := fun v : State => v.ops = s.ops) allTiles _ rfl fun v hv t _ => ?_
  dsimp only
  split <;> exact hv

/-- A standby bank that has been filled is taken off its preparation, which ends with the last one. -/
theorem execSfuBankCopyDone_of_copying {s : State} {p : Fin 8} {c : Fin 64} {n : Nat} {o : LongOp} (hprep : (s.cp c p).prep = some n)
    (hcopy : (s.cp c p).copying = true) (ho : tabFind s.ops n = some o) :
    let v := (s.setCp c p { modStandby (s.cp c p) (fun _ => (s.cp c p).activeBank.slots) with
      prep := none, copying := false }).rewritten c p fun key => key / 16384 == (s.cp c p).standbyNo
    execSfuBankCopyDone p c s = .next (if setDel o.todo p = [] then endOp v n 0 []
      else { v with ops := tabSet v.ops n { o with todo := setDel o.todo p } }) := by
  simp only [execSfuBankCopyDone, next, hprep, hcopy, Bool.not_true, Bool.false_eq_true, if_false, State.rewritten_ops, State.setCp_ops, ho]

/-! The wait limit (R389). -/

/-- The preparation that the limit looks for ends where a partition still waits for its standby bank. -/
theorem execSfuPrepareWaitLimit_of_due {s : State} {c : Fin 64} {n : Nat} {o : LongOp}
    (h : (s.ops.find? fun e => e.2.opcode == 0x0522 && e.2.ctx == c.val && e.2.deadline.any (· ≤ s.hub)) = some (n, o)) :
    execSfuPrepareWaitLimit c s = .next (if (s.ctx c).parts.any fun p => (s.cp c p).prep == some n && !(s.cp c p).copying then
      endOp (stopPrepare s c n) n 0x0523 [] else s) := by
  rw [execSfuPrepareWaitLimit, next, (List.find?_congr fun e _ => ?samePredicate).trans h]
  case samePredicate =>
    dsimp only
    cases e.2.deadline <;> rfl

/-- Settles O41: a write that passes its checks has only the standby banks left to change; a preparation waits on its partitions, a filled
bank is taken off it, and its limit finds it where it is due; a switch exchanges the banks, and a query reads them (R372 to R392). -/
theorem microProgramBanksSwitch : Obligations.MicroProgramBanksSwitch := by
  unfold Obligations.MicroProgramBanksSwitch
  refine fun s u k r => ⟨fun hheld hprep => ⟨?slot, ?table⟩, ?prepare, fun p c n o => ?copied, fun c n o => ?limit, ?switch, fun h => ?query⟩
  case slot => exact execSfuSlotWrite_of_accepted hheld hprep
  case table => exact execSfuTableWrite_of_accepted rfl rfl rfl hheld hprep
  case prepare => exact execSfuBankPrepare_of_accepted
  case copied => exact execSfuBankCopyDone_of_copying
  case limit => exact execSfuPrepareWaitLimit_of_due
  case switch => exact execSfuBankSwitch_of_idle
  case query =>
    show execSfuBankQuery k s = _
    rw [execSfuBankQuery, runOp_asked h, next]

end Sys2Proof.Machine
end

section
/-! PROOFS. The KV path (R413 to R439): a KVAPP and a KVGATHER that pass their checks have only their effect left, and a KVAPP completes
once its partition owes nothing. -/

namespace Sys2Proof.Machine

section
variable {s s1 s2 u : State} {p : Fin 8} {t : Fin 16} {r : Run} {w off : Nat} {d : List Nat} {qb : List Byte}
  {pages : List (Nat × KvPage)}

/-! What the two words share. -/

/-- The KV word w reads well: its reserved bits are 0, it names the descriptor d and the token offset off, the sequence descriptor of d
reads as qb and fits GROUP, which leaves the state s1, and the kernel has a page table (R398, R413, R414, R423, R432). -/
structure KvWordReads (s s1 : State) (p : Fin 8) (t : Fin 16) (r : Run) (w : Nat) (d : List Nat) (off : Nat) (qb : List Byte) :
    Prop where
  high : bitsOf w 55 46 = 0
  low : bitsOf w 39 15 = 0
  regs : (s.tile p t).regBad [] [] (if bitOf w 45 then [bitsOf w 44 40] else []) = false
  line : (s.tile p t).am.readErr (64 * bitsOf w 14 0) 64 = none
  desc : memWords (s.tile p t).am.bytes (64 * bitsOf w 14 0) 16 = d
  offset : wd d 1 + (if bitOf w 45 then (s.tile p t).sreg (bitsOf w 44 40) else 0) = off
  read : kvRead s p r.inst r.ctx r.mapVer (addr48 d 4) 64 t = .ok (qb, s1)
  seq : seqBad (bytesWords 16 qb) (bitsOf (wd d 0) 11 0) = false
  table : r.pt ≠ none

/-! KVAPP (R413 to R430). -/

/-- The request that a KVAPP makes of its descriptor, its offset and its sequence descriptor: LEN counts where the descriptor asks for
it (R415). -/
def kvappReq (d : List Nat) (off : Nat) (qb : List Byte) : KvReq :=
  { d, q := bytesWords 16 qb, seq := addr48 d 4, g := bitsOf (wd d 0) 11 0
    pos := off + (if bitOf (wd d 0) 30 then seqLen (bytesWords 16 qb) else 0), count := bitsOf (wd d 2) 12 0 }

/-- What the run notes of a KVAPP: under PUBLISH the LEN and the head group that its sequence descriptor is to get (R425). -/
def kvappRun (r : Run) (k : KvReq) : Run :=
  if bitOf (wd k.d 0) 31 then { r with pubs := tabSet r.pubs k.seq ⟨k.pos + k.count, k.g⟩ } else r

/-- The tile with the KVAPP as the newest of its appends (R418). -/
def Tile.appended (x : Tile) (k : KvReq) : Tile := { x with kvq := x.kvq ++ [⟨k.seq, k.g, k.pos, k.count⟩] }

/-- The request k passes the checks of a KVAPP in the state s1 and gets its pages, which leaves the state s2 (R418, R423 to R425). -/
structure AppendPasses (s1 s2 : State) (p : Fin 8) (t : Fin 16) (r : Run) (x : Tile) (k : KvReq) (pages : List (Nat × KvPage)) :
    Prop where
  room : x.kvq.length < 4
  reserved : appReserved k.d = false
  valid : appInvalid r k (bitOf (wd k.d 0) 31) = false
  writable : bitOf (wd k.d 0) 31 = true → checkRange s1 p r.ctx r.mapVer k.seq 4 true = none
  gotPages : kvPages s1 p t r k.q k.g k.pos (k.pos + k.count) true = .ok (pages, s2)
  finite : appendNonfinite x.am k pages = none

/-- The range of a publication is asked for only where there is one, and then it passes (R425). -/
theorem AppendPasses.publication {x : Tile} {k : KvReq} (h : AppendPasses s1 s2 p t r x k pages) :
    (if bitOf (wd k.d 0) 31 then checkRange s1 p r.ctx r.mapVer k.seq 4 true else none) = none := by
  split
  · exact h.writable ‹_›
  · rfl

/-- A KVAPP that reads well, passes its checks and has all its rows written notes its publication and joins the appends. -/
theorem execKvapp_of_passes (h : Stands s p t 0x44 r w) (hw : KvWordReads s s1 p t r w d off qb)
    (hp : AppendPasses s1 s2 p t r (s.tile p t) (kvappReq d off qb) pages)
    (hrows : Mv.each ⟨s2, none⟩ (kvappReq d off qb).count
      (fun s' j => appendRow ⟨p, t, r, s.tile p t⟩ s' (kvappReq d off qb) pages j) = ⟨u, none⟩)
    (hheld : Unheld s (movedOn u p t (kvappRun r (kvappReq d off qb)) ((u.tile p t).appended (kvappReq d off qb)))) :
    execKvapp p t s = .next (movedOn u p t (kvappRun r (kvappReq d off qb)) ((u.tile p t).appended (kvappReq d off qb))) := by
  have hpub : (if bitOf (wd d 0) 31 then checkRange s1 p r.ctx r.mapVer (addr48 d 4) 4 true else none) = none :=
    hp.publication
  obtain ⟨hroom, hres, hvalid, -, hpages, hfinite⟩ := hp
  rw [execKvapp, issue_stands h, if_neg (reserved_clear hw.high hw.low), if_neg (Nat.not_le.2 hroom), withRegs_clean hw.regs]
  simp only [kvappReq] at hres hvalid hpages hfinite hrows
  simp only [hw.line, hw.desc, hw.offset, hw.read, hw.seq, hw.table, hres, hvalid, hpub, hpages, hfinite, hrows,
    Bool.false_eq_true, Bool.or_false, if_false]
  exact congrArg _ (gate_unheld hheld)

/-- The oldest KVAPP completes where its partition runs and no unit of a transfer waits (R419, R611). -/
theorem execKvappComplete_of_served {e : KvEnt} {rest : List KvEnt} (hf : (s.part p).frozen = false) (ho : owes s p [0, 1] = false)
    (hq : (s.tile p t).kvq = e :: rest) :
    execKvappComplete p t s = .next (s.setTile p t (Tile.touch { s.tile p t with kvq := rest } (s.part p).count)) := by
  rw [execKvappComplete, if_neg (by simp [hf, ho]), next]
  simp only [hq]

/-! KVGATHER (R432 to R438). -/

/-- The token at which a gather from off ends: after COUNT tokens, but not past LEN (R434). -/
def gatherStop (d : List Nat) (off : Nat) (qb : List Byte) : Nat :=
  max off (min (off + bitsOf (wd d 2) 12 0) (seqLen (bytesWords 16 qb)))

/-- The index entries that a gather writes, one for each superblock that it copies (R435). -/
def gatherEntries (d : List Nat) (off : Nat) (qb : List Byte) : Nat :=
  if gatherStop d off qb ≤ off then 0
  else (rangeFrom (off / 64) ((gatherStop d off qb + 63) / 64)).foldl (fun a l =>
    a + (pageRows off (gatherStop d off qb) l * seqRow (bytesWords 16 qb) + 4095) / 4096) 0

/-- The destination of a gather as a SPACE code: AM under bit 0 of word 8, else WM (R432). -/
def gatherSpace (d : List Nat) : Nat := if bitOf (wd d 8) 0 then 2 else 1

/-- The descriptor d passes the checks of a KVGATHER in the state s1 and gets its pages, which leaves the state s2 (R216, R432,
R434, R438). -/
structure GatherPasses (s1 s2 : State) (p : Fin 8) (t : Fin 16) (r : Run) (x : Tile) (d : List Nat) (off : Nat) (qb : List Byte)
    (pages : List (Nat × KvPage)) : Prop where
  room : x.dq.length < maxDma
  reserved : gatherReserved d = false
  nonempty : bitsOf (wd d 2) 12 0 ≠ 0
  most : bitsOf (wd d 2) 12 0 ≤ 4096
  aligned : off % 64 = 0
  index : leaves (gatherSpace d) (bitsOf (wd d 7) 21 0) (4 * gatherEntries d off qb + 32) = false
  start : leaves (gatherSpace d) (bitsOf (wd d 6) 21 0) 0 = false
  gotPages : kvPages s1 p t r (bytesWords 16 qb) (bitsOf (wd d 0) 11 0) off (gatherStop d off qb) false = .ok (pages, s2)
  data : leaves (gatherSpace d) (bitsOf (wd d 6) 21 0)
    (gatherBytes s2 p t r d (bytesWords 16 qb) off (gatherStop d off qb) pages) = false

/-- The token range of a gather that passes is legal (R432). -/
theorem GatherPasses.legal {x : Tile} (h : GatherPasses s1 s2 p t r x d off qb pages) :
    (gatherReserved d || bitsOf (wd d 2) 12 0 == 0 || 4096 < bitsOf (wd d 2) 12 0 || off % 64 != 0) = false := by
  simp [h.reserved, h.nonempty, h.most, h.aligned]

/-- A KVGATHER that reads well and passes its checks becomes an entry of the DMA queue (R433). -/
theorem execKvgather_of_passes (h : Stands s p t 0x46 r w) (hw : KvWordReads s s1 p t r w d off qb)
    (hp : GatherPasses s1 s2 p t r (s.tile p t) d off qb pages)
    (hheld : Unheld s (movedOn s2 p t r { s2.tile p t with
      dq := (s.tile p t).dq ++ [{ job := .gather d (bytesWords 16 qb) off (gatherStop d off qb) }] })) :
    execKvgather p t s = .next (movedOn s2 p t r { s2.tile p t with
      dq := (s.tile p t).dq ++ [{ job := .gather d (bytesWords 16 qb) off (gatherStop d off qb) }] }) := by
  have hlegal := hp.legal
  obtain ⟨hroom, -, -, -, -, hindex, hstart, hpages, hdata⟩ := hp
  rw [execKvgather, issue_stands h, if_neg (reserved_clear hw.high hw.low), if_neg (Nat.not_le.2 hroom), withRegs_clean hw.regs]
  unfold gatherSpace at hindex hstart hdata
  unfold gatherEntries at hindex
  unfold gatherStop at hindex hpages hdata
  simp only [hw.line, hw.desc, hw.offset, hw.read, hw.seq, hw.table, hlegal, hindex, hstart, hpages, hdata,
    Bool.false_eq_true, Bool.or_false, if_false]
  exact congrArg _ (gate_unheld hheld)

end

/-- Settles O20: a KVAPP and a KVGATHER whose checks all pass have one path left, which ends in a queue of the tile, and the gate lets it
through where no dry regulator holds it; the oldest append leaves its queue (R418, R419, R423, R433, R611). That the rows are written at
issue is the model's reading (DEDUCED, log entry 25). -/
theorem kvAppendAndGatherComplete : Obligations.KvAppendAndGatherComplete := by
  unfold Obligations.KvAppendAndGatherComplete
  refine fun s s1 s2 p t r w qb pages => ⟨?append, fun e rest hf ho hq => ?complete, ?gather⟩
  case append =>
    intro h hi lo hroom hregs hline hres hread hseq pos k publish hvalid hpt hrange hpages hfinite u hrows v hheld
    exact execKvapp_of_passes h ⟨hi, lo, hregs, hline, rfl, rfl, hread, hseq, hpt⟩ ⟨hroom, hres, hvalid, hrange, hpages, hfinite⟩
      hrows hheld
  case complete =>
    show execKvappComplete p t s = _
    exact execKvappComplete_of_served hf ho hq
  case gather =>
    intro h hi lo hroom hregs hline hres hnonempty hmost haligned hread hseq stop sp nsb hindex hstart hpt hpages hdata v hheld
    exact execKvgather_of_passes h ⟨hi, lo, hregs, hline, rfl, rfl, hread, hseq, hpt⟩
      ⟨hroom, hres, hnonempty, hmost, haligned, hindex, hstart, hpages, hdata⟩ hheld

end Sys2Proof.Machine
end

section
/-! PROOFS. Dispatch of a node (R500, R548, R1117): what a READY node that may dispatch comes to, and the reads of its body that go well. -/

namespace Sys2Proof.Machine

section
variable {s u v : State} {p : Fin 8} {n : Nat} {i j : Inst}

/-! The node that dispatches (R500, R504, R659). -/

/-- A node that may dispatch is READY. -/
theorem Dispatches.ready (h : Dispatches s p n i u j) : i.st = .ready := by
  obtain ⟨-, hmay, -⟩ := h
  simp only [mayDispatch, Bool.and_eq_true, beq_iff_eq] at hmay
  obtain ⟨⟨⟨⟨hst, -⟩, -⟩, -⟩, -⟩ := hmay
  exact hst

/-- What a dispatch latches leaves the node's words. -/
theorem Dispatches.words_eq (h : Dispatches s p n i u j) : j.words = i.words := by
  obtain ⟨-, -, -, -, rfl, hj⟩ := h
  rw [startRun, State.inst_setInst, Option.some_inj] at hj
  subst hj
  split
  · rfl
  · dsimp only
    split <;> rfl

/-- A node that fits its command and may dispatch leaves only its own work to do (R500, R1099). -/
theorem dispatchNode_of_dispatches {fits : Inst → Bool} (h : Dispatches s p n i u j) (hfits : fits i = true) (go : State → Inst → State) :
    dispatchNode s p n fits go = traced (go u j) p n i := by
  have hst := h.ready
  obtain ⟨hi, hmay, hrerun, hhead, rfl, hj⟩ := h
  have hheader : ¬(i.firstAt.isNone && headerBad (boundary s p) p i) = true := by
    cases hf : i.firstAt with
    | none => simp [hhead hf]
    | some _ => simp
  have hgo : ¬(i.st == .ready && i.rerun && i.noRerun) = true := by simpa [hst] using hrerun
  unfold dispatchNode traced
  simp only [hi, hfits, hmay, hj, if_neg hheader, if_neg hgo, Bool.not_true, Bool.false_eq_true, if_false]
  cases (go (startRun (boundary s p) p n i) j).inst? p n with
  | none => rfl
  | some k => simp only [beq_iff_eq]

/-- Ranges that all pass let the work go on (R1117). -/
theorem withRanges_of_ok {rs : List Named} (h : ∀ r ∈ rs, r = .ok) (k : State → State) : withRanges s p n rs k = k s := by
  have hnone : rs.find? (· != .ok) = none := List.find?_eq_none.2 fun r hr => by simp [h r hr]
  rw [withRanges, hnone]

/-! Reads that go well (R512, R513, R607, R616, R673). -/

/-- A read of named device memory goes on with its bytes. -/
theorem nodeRead_of_reads {a len : Nat} {bs : List Byte} (h : NodeReads u p n i a len bs v) (k : State → List Byte → State) :
    nodeRead u p n i a len k = k v bs := by
  obtain ⟨hopen, m, hread, hclean, rfl⟩ := h
  simp [nodeRead, hopen, hread, hclean]

/-- A read of a condition word goes on with the word (R512, R513, R865). -/
theorem condRead_of_reads {rd : HostRd} {w : Nat} (h : CondReads u p n i rd w v) (k : State → Nat → State) :
    condRead u p n i rd k = k v w := by
  rcases h with ⟨hhost, hpages, d, rfl, rfl, rfl⟩ | ⟨hdev, m, x, hread, hclean, rfl, rfl⟩
  · simp only [condRead, hhost, hpages, if_true]
  · simp only [condRead, hdev, plainRead, hread, hclean, Bool.false_eq_true, if_false]

end

end Sys2Proof.Machine
end

section
/-! PROOFS. COPY nodes, KV_EXPORT and KV_IMPORT (R508 to R510, R747, R799, R853, R877): checks that pass, a source that reads well and a
destination that takes the bytes leave one path of each command. -/

namespace Sys2Proof.Machine

section
variable {s u v w : State} {p : Fin 8} {n : Nat} {i j : Inst} {src : HostRd} {bs : List Byte}

/-! The checks of every COPY. -/

theorem copyGo_of_passes (h : CopyPasses u p n j) (k : State → State) : copyGo u p n j k = k u := by
  obtain ⟨hfields, hroute, hopen, hranges⟩ := h
  have hslice : ¬(j.dstKind = 3 && j.overFabric && !u.inSlice (bitsOf (wd j.words 7) 31 19)) = true := by
    simp only [Bool.and_eq_true, decide_eq_true_eq, Bool.not_eq_true', not_and, and_imp]
    intro hd hf
    simp [(hroute hd hf).1]
  have hport : ¬(j.dstKind = 3 && j.overFabric && routeRefused u p (bitsOf (wd j.words 7) 31 19)) = true := by
    simp only [Bool.and_eq_true, decide_eq_true_eq, not_and, and_imp]
    intro hd hf
    simp [(hroute hd hf).2]
  rw [copyGo, if_neg (by simp [hfields]), if_neg hslice, if_neg hport, if_neg (by simp [hopen]), withRanges_of_ok hranges]

/-- A COPY of its command's mode and kinds whose checks pass does its own work with the dispatch, where no dry regulator holds it
back (R611). -/
theorem copyNode_of_passes {mode : Nat} {fits : Inst → Bool} {k : State → Inst → State} (h : Dispatches s p n i u j) (hty : i.ty = 1)
    (hp : CopyPasses u p n j) (hmode : i.cMode = mode) (hfits : fits i = true) (hk : k u j = w) (hheld : Unheld s (traced w p n i)) :
    copyNode s p n mode fits k = traced w p n i := by
  have hst := h.ready
  have hmine : (i.ty == 1 && (i.cMode == mode || (mode == 0 && 3 ≤ i.cMode)) && fits i) = true := by simp [hty, hmode, hfits]
  have hi : s.inst? p n = some i := h.1
  unfold copyNode
  simp only [hi]
  rw [if_neg (by simp [hst]), dispatchNode_of_dispatches h hmine, copyGo_of_passes hp, hk, gate_unheld hheld]

/-! The source (R509, R747, R748, R865). -/

/-- A range of a stream whose chunks all read well, on a medium without failure, counts its chunks (R748). -/
theorem streamRead_of_ok (s : State) (p : Nat) (chunks : List Nat) (bs : List Byte) :
    streamRead s p chunks false (.ok bs) = (.ok bs, charge s p 10 (1048576 * chunks.length)) := rfl

theorem copySource_of_reads (h : CopyReads u p n j src bs v) (k : State → List Byte → State) : copySource u p n j src k = k v bs := by
  rcases h with ⟨hkind, hread⟩ | ⟨hkind, ⟨d, rfl, rfl⟩, hpages, rfl⟩ | ⟨hkind, hsrc, img, key, r, hstream, hread, rfl⟩
  · rw [copySource, if_pos hkind, nodeRead_of_reads hread]
  · simp only [copySource, hkind, hpages, one_ne_zero, if_false, if_true]
  · have hmedia : (src == .error) = false := by simpa using hsrc
    simp only [copySource, hkind, hstream, hmedia, hread, streamRead_of_ok, OfNat.ofNat_ne_zero, OfNat.ofNat_ne_one, if_false]

/-! The destination (R509, R799, R853, R877). -/

/-- A fabric COPY none of whose packets is refused waits for its acknowledgements (R799). -/
theorem copyFabric_of_sent (h : (sendAll v p n true j (copyPackets j bs)).2.2 = []) : copyFabric v p n j bs =
    (sendAll v p n true j (copyPackets j bs)).1.modInst p n fun k =>
      { k with acks := (sendAll v p n true j (copyPackets j bs)).2.1, sentAt := (v.part p).count,
               unsent := unsentOf v p (copyPackets j bs)
               ended := (sendAll v p n true j (copyPackets j bs)).2.1 == [] && unsentOf v p (copyPackets j bs) == [] } := by
  simp only [copyFabric, h]

/-- An RDMA COPY on a READY connection of its context is one write (R872, R877). -/
theorem copyRdma_of_ready {c : Conn} (hc : tabFind v.conns (wd j.words 7) = some c) (hctx : c.ctx = j.ctx) (hready : c.st = .ready) :
    copyRdma v p n j bs = charge { v with
      ethOut := v.ethOut ++ [{ conn := wd j.words 7, kind := if bitOf (wd c.words 0) 28 then 1 else 0, key := wd c.words 10,
                               addr := j.dst, bytes := bs,
                               imm := if bitOf (wd c.words 0) 28 then bitsOf (wd c.words 11) 11 0 else 0
                               ctx := j.ctx, epoch := (v.ctx j.ctx).epoch }]
      conns := tabSet v.conns (wd j.words 7) { c with
        outst := c.outst ++ [((p : Nat), n)], sentAt := if c.outst = [] then v.hub else c.sentAt } } p 9 bs.length := by
  simp only [copyRdma, hc]
  rw [if_neg (by simp [hctx, hready]), if_neg (by simp [hready])]

theorem copyDest_of_arrives (h : CopyArrives v p n j bs w) : copyDest v p n j bs = w := by
  rcases h with ⟨hk, x, hwrite, rfl⟩ | ⟨hk, hpages, rfl⟩ | ⟨hk, g, gs, hpages, rfl⟩ | ⟨hk, hfab, hsent, rfl⟩ |
    ⟨hk, hfab, c, hc, hctx, hready, rfl⟩
  · simp only [copyDest, hk, hwrite, if_true]
  · simp only [copyDest, hk, hpages, copyPost, one_ne_zero, if_false, if_true]
  · simp only [copyDest, hk, hpages, one_ne_zero, if_false, if_true]
  · rw [copyDest, if_neg (by simp [hk]), if_neg (by simp [hk]), if_pos hfab, copyFabric_of_sent hsent]
  · rw [copyDest, if_neg (by simp [hk]), if_neg (by simp [hk]), if_neg (by simp [hfab]), copyRdma_of_ready hc hctx hready]

/-- A destination of the kind of another module is the fabric or a connection, as TRANSPORT says. -/
theorem copyDest_remote (hk : j.dstKind = 3) : copyDest v p n j bs = if j.overFabric then copyFabric v p n j bs else copyRdma v p n j bs := by
  rw [copyDest, if_neg (by simp [hk]), if_neg (by simp [hk])]

theorem copyFabric_of_arrives (h : CopyArrives v p n j bs w) (hk : j.dstKind = 3) (hf : j.overFabric = true) :
    copyFabric v p n j bs = w := by
  rw [← copyDest_of_arrives h, copyDest_remote hk, if_pos hf]

theorem copyRdma_of_arrives (h : CopyArrives v p n j bs w) (hk : j.dstKind = 3) (hf : j.overFabric = false) :
    copyRdma v p n j bs = w := by
  rw [← copyDest_of_arrives h, copyDest_remote hk, if_neg (by simp [hf])]

/-! Each command. -/

/-- What a dispatch latches leaves the kind of the destination. -/
theorem Dispatches.dstKind_eq (h : Dispatches s p n i u j) : j.dstKind = i.dstKind := by
  unfold Inst.dstKind
  rw [h.words_eq]

/-- It leaves the way to another module. -/
theorem Dispatches.overFabric_eq (h : Dispatches s p n i u j) : j.overFabric = i.overFabric := by
  unfold Inst.overFabric
  rw [h.words_eq]

/-- The command c copies with mode 0: its node is of the kinds that the command is for (R508). -/
def CopiesKinds (c : Instr) (p : Fin 8) (n : Nat) (src : HostRd) (i : Inst) : Prop :=
  c = .copyLinear p n src ∧ i.srcKind ≠ 2 ∧ i.dstKind ≠ 3 ∨ c = .copyNvwsStream p n src ∧ i.srcKind = 2 ∨
    c = .copyFabric p n src ∧ i.srcKind ≠ 2 ∧ i.dstKind = 3 ∧ i.overFabric = true ∨
    c = .copyRdma p n src ∧ i.srcKind ≠ 2 ∧ i.dstKind = 3 ∧ i.overFabric = false

/-- The work of a copy of mode 0 ends with the bytes where they go. -/
theorem copySource_copyDest (hr : CopyReads u p n j src bs v) (ha : CopyArrives v p n j bs w) :
    (copySource u p n j src fun x b => copyDest x p n j b) = w := by
  rw [copySource_of_reads hr, copyDest_of_arrives ha]

/-- A copy of mode 0 moves its bytes with the dispatch (DEDUCED, log entry 25). -/
theorem exec_copy_of_arrives {c : Instr} (h : Dispatches s p n i u j) (hty : i.ty = 1) (hp : CopyPasses u p n j) (hmode : i.cMode = 0)
    (hr : CopyReads u p n j src bs v) (ha : CopyArrives v p n j bs w) (hc : CopiesKinds c p n src i)
    (hheld : Unheld s (traced w p n i)) : exec c s = .next (traced w p n i) := by
  rcases hc with ⟨rfl, hs, hd⟩ | ⟨rfl, hs⟩ | ⟨rfl, hs, hd, hf⟩ | ⟨rfl, hs, hd, hf⟩
  · show execCopyLinear p n src s = _
    rw [execCopyLinear, copyNode_of_passes h hty hp hmode (by simp [hs, hd]) (copySource_copyDest hr ha) hheld, next]
  · show execCopyNvwsStream p n src s = _
    rw [execCopyNvwsStream, copyNode_of_passes h hty hp hmode (by simp [hs]) (copySource_copyDest hr ha) hheld, next]
  · show execCopyFabric p n src s = _
    have hwork : (copySource u p n j src fun x b => copyFabric x p n j b) = w := by
      rw [copySource_of_reads hr, copyFabric_of_arrives ha (h.dstKind_eq.trans hd) (h.overFabric_eq.trans hf)]
    rw [execCopyFabric, copyNode_of_passes h hty hp hmode (by simp [hs, hd, hf]) hwork hheld, next]
  · show execCopyRdma p n src s = _
    have hwork : (copySource u p n j src fun x b => copyRdma x p n j b) = w := by
      rw [copySource_of_reads hr, copyRdma_of_arrives ha (h.dstKind_eq.trans hd) (h.overFabric_eq.trans hf)]
    rw [execCopyRdma, copyNode_of_passes h hty hp hmode (by simp [hs, hd, hf]) hwork hheld, next]

/-- A KV_EXPORT whose records fit into LENGTH sends them (R444, R508). -/
theorem execKvExport_of_arrives {qb : List Byte} {s1 s2 : State} (h : Dispatches s p n i u j) (hty : i.ty = 1) (hp : CopyPasses u p n j)
    (hmode : i.cMode = 1) (hread : kvRead u p n j.ctx j.mapVer j.src 64 0 = .ok (qb, s1))
    (hseq : seqBad (bytesWords 16 qb) (bitsOf (wd j.words 6) 11 0 + bitsOf (wd j.words 15) 11 0 - 1) = false)
    (hall : exportAll s1 p n j (bytesWords 16 qb) = .ok s2 bs) (hfits : bs.length ≤ j.length) (ha : CopyArrives s2 p n j bs w)
    (hheld : Unheld s (traced w p n i)) : execKvExport p n s = .next (traced w p n i) := by
  rw [execKvExport, copyNode_of_passes (w := w) h hty hp hmode rfl ?work hheld, next]
  case work => simp only [hread, hseq, hall, if_neg (Nat.not_lt.2 hfits), copyDest_of_arrives ha, Bool.false_eq_true, if_false]

/-- A KV_IMPORT whose records all pass has written its pages; its commit is to publish LEN (R445 to R448). -/
theorem execKvImport_of_written {qb rest : List Byte} {s1 s2 : State} {top : Nat} (h : Dispatches s p n i u j) (hty : i.ty = 1)
    (hp : CopyPasses u p n j) (hmode : i.cMode = 2) (hr : CopyReads u p n j src bs v)
    (hread : kvRead v p n j.ctx j.mapVer j.dst 64 0 = .ok (qb, s1)) (hseq : seqBad (bytesWords 16 qb) 0 = false)
    (hall : importAll s1 p n j (bytesWords 16 qb) (bs.length / 64 + 1) bs 0 = (.ok s2 rest, top))
    (hw : (s2.modInst p n fun k => { k with ended := true, writes := if bs = [] then [] else [⟨j.ctx, j.mapVer, j.dst, 4, top⟩] }) = w)
    (hheld : Unheld s (traced w p n i)) : execKvImport p n src s = .next (traced w p n i) := by
  rw [execKvImport, copyNode_of_passes (w := w) h hty hp hmode rfl ?work hheld, next]
  case work =>
    rw [copySource_of_reads hr]
    simp only [hread, hseq, hall, hw, Bool.false_eq_true, if_false]

end

/-- Settles O25: the checks, the source and the destination of a COPY each have one path left, and the gate lets it through where no dry
regulator holds it (R509, R611, R747, R799, R853, R877). That the bytes move at dispatch is the model's reading (DEDUCED, log
entry 25). -/
theorem copiesMoveTheirBytes : Obligations.CopiesMoveTheirBytes := by
  unfold Obligations.CopiesMoveTheirBytes
  refine fun s u p n i j src h hty hp => ⟨fun bs v u1 c hmode hr ha hc hheld => ?copy,
    fun qb bs s1 s2 u1 hmode hread hseq hall hfits ha hheld => ?exported, fun bs qb rest v s1 s2 top hmode hr hread hseq hall => ?imported⟩
  case copy => exact exec_copy_of_arrives h hty hp hmode hr ha hc hheld
  case exported =>
    show execKvExport p n s = _
    exact execKvExport_of_arrives h hty hp hmode hread hseq hall hfits ha hheld
  case imported =>
    intro y hheld
    show execKvImport p n src s = _
    exact execKvImport_of_written h hty hp hmode hr hread hseq hall rfl hheld

end Sys2Proof.Machine
end

section
/-! PROOFS. WAIT and COND (R511 to R514, R538, R1115 to R1117): the release of a WAIT on a fence, one read of a condition word, at the
dispatch or when its interval has passed, and what a condition compares. -/

namespace Sys2Proof.Machine

/-! A condition (R512). -/

/-- OP compares the masked word with the reference: equal, not equal, at or above, below. -/
theorem condHolds_iff (i : Inst) (w : Nat) : condHolds i w = true ↔
    (bitsOf (wd i.words 6) 29 28 = 0 ∧ w &&& i.cMask = i.cRef) ∨ (bitsOf (wd i.words 6) 29 28 = 1 ∧ w &&& i.cMask ≠ i.cRef) ∨
    (bitsOf (wd i.words 6) 29 28 = 2 ∧ i.cRef ≤ w &&& i.cMask) ∨ (bitsOf (wd i.words 6) 29 28 = 3 ∧ w &&& i.cMask < i.cRef) := by
  have hop : bitsOf (wd i.words 6) 29 28 < 4 := Nat.mod_lt _ (by decide)
  have hland : Nat.land w i.cMask = w &&& i.cMask := rfl
  unfold condHolds
  generalize bitsOf (wd i.words 6) 29 28 = op at hop
  rw [hland]
  interval_cases op <;> simp

section
variable {s u v : State} {p : Fin 8} {n : Nat} {i j : Inst} {rd : HostRd} {w : Nat}

/-! WAIT on a fence (R511, R513, R525, R1115). -/

/-- The WAIT with its grant latched, which its first dispatch does (R1115). -/
def latchGrant (u : State) (p n : Nat) (j : Inst) : State :=
  if j.rerun then u
  else u.modInst p n fun k => { k with grant := some ((waitFenceOf j).1, (u.ctx (waitFenceOf j).1).epoch) }

/-- A WAIT on a fence that it may use is released with the dispatch where the fence word suffices. -/
theorem execWaitFence_of_usable (h : Dispatches s p n i u j) (hty : i.ty = 2) (hkind : i.kind = false)
    (hok : j.rerun = false → waitFenceBad u p j = false) :
    execWaitFence p n s = .next (traced ((latchGrant u p n j).modInst p n (releaseWait (waitFenceOf j).1 (waitFenceOf j).2
      (fenceWord (latchGrant u p n j) (waitFenceOf j).1 (waitFenceOf j).2))) p n i) := by
  have hpass : ¬(!j.rerun && waitFenceBad u p j) = true := by simpa using hok
  rw [execWaitFence, dispatchNode_of_dispatches h (by simp [hty, hkind]), if_neg hpass, next]
  rfl

/-! One read of the condition word (R513, R514). -/

/-- The WAIT ends where the condition holds, else it asks again after 1 µs. -/
def waitChoice (v : State) (p n : Nat) (i : Inst) (w : Nat) : State :=
  if condHolds i w then endExec v p n else pollAgain v p n 1

/-- The COND takes its choice, or asks again where its word says "not yet". -/
def condChoice (v : State) (p n : Nat) (i : Inst) (w : Nat) : State :=
  if i.kind && Nat.land w i.cMask = i.cIdle then pollAgain v p n i.pollUs
  else v.modInst p n fun k => { k with choice := some (condHolds i w), ended := true }

theorem waitPoll_of_reads (h : CondReads u p n i rd w v) : waitPoll u p n i rd = waitChoice v p n i w := by
  rw [waitPoll, condRead_of_reads h, waitChoice]

theorem condPoll_of_reads (h : CondReads u p n i rd w v) : condPoll u p n i rd = condChoice v p n i w := by
  rw [condPoll, condRead_of_reads h, condChoice]

/-- A WAIT on memory whose interval has passed reads its word. -/
theorem execWaitMemoryPoll_of_due (hi : s.inst? p n = some i) (hdue : pollDue s p i = true) (hr : CondReads s p n i rd w v)
    (hty : i.ty = 2) (hkind : i.kind = true) : execWaitMemoryPoll p n rd s = .next (waitChoice v p n i w) := by
  simp only [execWaitMemoryPoll, next, hi]
  rw [if_neg (by simp [hty, hkind]), if_pos hdue, waitPoll_of_reads hr]

/-- One whose fields and range pass reads it at its dispatch (R1117). -/
theorem execWaitMemoryPoll_of_dispatches (h : Dispatches s p n i u j) (hdue : pollDue s p i = false)
    (hranges : ∀ r ∈ condRange u p j, r = .ok) (hr : CondReads u p n j rd w v) (hty : i.ty = 2) (hkind : i.kind = true)
    (hok : condBad j false true = false) : execWaitMemoryPoll p n rd s = .next (traced (waitChoice v p n j w) p n i) := by
  have hi : s.inst? p n = some i := h.1
  simp only [execWaitMemoryPoll, next, hi]
  rw [if_neg (by simp [hty, hkind]), if_neg (by simp [hdue]), dispatchNode_of_dispatches h rfl, if_neg (by simp [hok]),
    withRanges_of_ok hranges, waitPoll_of_reads hr]

/-- A COND whose interval has passed reads its word. -/
theorem execCondPoll_of_due (hi : s.inst? p n = some i) (hdue : pollDue s p i = true) (hr : CondReads s p n i rd w v)
    (hty : i.ty = 4) : execCondPoll p n rd s = .next (condChoice v p n i w) := by
  simp only [execCondPoll, next, hi]
  rw [if_neg (by simp [hty]), if_pos hdue, condPoll_of_reads hr]

/-- One whose fields and range pass reads it at its dispatch (R1117). -/
theorem execCondPoll_of_dispatches (h : Dispatches s p n i u j) (hdue : pollDue s p i = false)
    (hranges : ∀ r ∈ condRange u p j, r = .ok) (hr : CondReads u p n j rd w v) (hty : i.ty = 4)
    (hok : condBad j j.kind true = false) : execCondPoll p n rd s = .next (traced (condChoice v p n j w) p n i) := by
  have hi : s.inst? p n = some i := h.1
  simp only [execCondPoll, next, hi]
  rw [if_neg (by simp [hty]), if_neg (by simp [hdue]), dispatchNode_of_dispatches h rfl, if_neg (by simp [hok]),
    withRanges_of_ok hranges, condPoll_of_reads hr]

/-! The timeout (R538). -/

theorem execWaitTimeout_of_passed {at_ lim : Nat} (hi : s.inst? p n = some i) (hat : i.firstAt = some at_) (hlim : i.timeout = some lim)
    (hty : i.ty = 2 ∨ i.ty = 4) (hst : i.st = .running) (hended : i.ended = false) (hf : (s.part p).frozen = false)
    (hpast : at_ + lim ≤ (s.part p).count) : execWaitTimeout p n s = .next (failNode s p n 0x3283 i.data) := by
  simp only [execWaitTimeout, next, hi, hat, hlim]
  rw [if_pos (by simpa [hst, hended, hf, hpast] using hty)]

end

/-- Settles O26: a WAIT on a fence is released by the fence word, a read of a condition word goes on with the choice of its node, at the
dispatch and when the interval has passed, and a condition is one of four comparisons (R511 to R514, R538). -/
theorem waitsAndConditionsPoll : Obligations.WaitsAndConditionsPoll := by
  unfold Obligations.WaitsAndConditionsPoll
  refine ⟨fun s p n i => ⟨fun u j h hty hkind hok => ?fence, fun rd w v hi hdue hr => ⟨fun hty hkind => ?waitAgain, fun hty => ?condAgain⟩,
    fun u v j rd w h hdue hranges hr => ⟨fun hty hkind hok => ?waitFirst, fun hty hok => ?condFirst⟩,
    fun at_ lim hi hat hlim hty hst hended hf hpast => ?timeout⟩, condHolds_iff⟩
  case fence => exact execWaitFence_of_usable h hty hkind hok
  case waitAgain => exact execWaitMemoryPoll_of_due hi hdue hr hty hkind
  case condAgain => exact execCondPoll_of_due hi hdue hr hty
  case waitFirst => exact execWaitMemoryPoll_of_dispatches h hdue hranges hr hty hkind hok
  case condFirst => exact execCondPoll_of_dispatches h hdue hranges hr hty hok
  case timeout => exact execWaitTimeout_of_passed hi hat hlim hty hst hended hf hpast

end Sys2Proof.Machine
end

section
/-! PROOFS. Commits and completion records (R525, R528 to R531, R543 to R545): a node whose execution has ended commits where its ring has
room, and the earliest record goes to the place and with the PHASE that its number gives. -/

namespace Sys2Proof.Machine

section
variable {s : State} {p : Fin 8} {n : Nat} {i : Inst} {cons : HostRd}

/-! The commit of a node. -/

/-- The node n has ended its execution on a partition that is not frozen, and no unit of its transfers waits (R528, R611, R636). -/
structure CommitsNow (s : State) (p : Fin 8) (n : Nat) (i : Inst) : Prop where
  inst : s.inst? p n = some i
  running : i.st = .running
  ended : instEnded i = true
  thawed : (s.part p).frozen = false
  served : instOwes s p i = false

/-- Such a node passes the guard of its commit. -/
theorem CommitsNow.passes (h : CommitsNow s p n i) :
    ¬(i.st != .running || !instEnded i || (s.part p).frozen || instOwes s p i) = true := by
  simp [h.running, h.ended, h.thawed, h.served]

/-- A WAIT that was released with error is abandoned instead (R525; DEDUCED, log entry 37). -/
theorem execNodeCommit_of_fenceError (h : CommitsNow s p n i) (hty : i.ty = 2) (hst : i.status = .fenceError)
    (hheld : Unheld s (resolveNode s p n .abandoned .fenceError)) :
    execNodeCommit p n cons s = .next (resolveNode s p n .abandoned .fenceError) := by
  simp only [execNodeCommit, next, h.inst]
  rw [if_neg h.passes, if_pos (by simp [hty, hst]), gate_unheld hheld]

/-- An EPOCH whose generation is no more LOADED fails at its commit (DEDUCED, log entry 45). -/
theorem execNodeCommit_of_unloaded {t : State} (h : CommitsNow s p n i) (hty : i.ty = 8) (hload : epochLoaded s p i = false)
    (ht : failNode s p n 0x32B4 [i.ctx, bitsOf (wd i.words 6) 15 0, wd i.words 7, 0] = t) (hheld : Unheld s t) :
    execNodeCommit p n cons s = .next t := by
  simp only [execNodeCommit, next, h.inst]
  rw [if_neg h.passes, if_neg (by simp [hty]), if_pos (by simp [hty, hload]), ht, gate_unheld hheld]

/-- Node n needs no entry of a ring, or finds a free one behind those that the records ahead of it claim (R544). -/
def RecordFits (s : State) (p : Fin 8) (n : Nat) (i : Inst) (cons : HostRd) : Prop :=
  i.crec = false ∨ (s.cp i.ctx p).broken = true ∨ (s.cp i.ctx p).ring = none ∨
    ∃ r bs, (s.cp i.ctx p).ring = some r ∧ cons = .data bs ∧ missingPages s (s.ctx i.ctx).owner r.cons 4 = [] ∧
      (r.k + 2 ^ 32 - leNat (bs.take 4) % 2 ^ 32) % 2 ^ 32 + claimed s p i.ctx n < 2 ^ r.sizeLog2

theorem ringRoom_of_fits (h : RecordFits s p n i cons) : ringRoom s p n i cons = (true, s) := by
  unfold ringRoom
  split
  · rfl
  · next hcrec =>
    dsimp only
    split
    · rfl
    · next hbroken =>
      rcases h with hno | hbr | hring | ⟨r, bs, hring, rfl, hpages, hroom⟩
      · simp [hno] at hcrec
      · exact absurd hbr hbroken
      · rw [hring]
      · simp only [hring, hpages, hroom, decide_true]

/-- Any other node commits where its record fits (R528 to R531, R544). -/
theorem execNodeCommit_of_fits (h : CommitsNow s p n i) (hwait : ¬(i.ty = 2 ∧ i.status = .fenceError))
    (hepoch : i.ty = 8 → epochLoaded s p i = true ∧ epochWaits s p n i = false) (hfits : RecordFits s p n i cons)
    (hheld : Unheld s (commitNode s p n)) : execNodeCommit p n cons s = .next (commitNode s p n) := by
  have hloaded : ¬(i.ty = 8 && !epochLoaded s p i) = true := by simpa using fun ht => (hepoch ht).1
  have hfree : ¬(i.ty = 8 && epochWaits s p n i) = true := by simpa using fun ht => (hepoch ht).2
  simp only [execNodeCommit, next, h.inst, ringRoom_of_fits hfits]
  rw [if_neg h.passes, if_neg (by simpa using hwait), if_neg hloaded, if_neg hfree, if_pos trivial, gate_unheld hheld]

end

/-! Completion records (R543 to R545). -/

@[simp] theorem State.inst_setCp (s : State) (c p : Nat) (x : CtxPart) (q n : Nat) : (s.setCp c p x).inst? q n = s.inst? q n := rfl
@[simp] theorem State.inst_post (s : State) (c a : Nat) (bs : List Byte) (relaxed : Bool) (q n : Nat) :
    (s.post c a bs relaxed).inst? q n = s.inst? q n := rfl

/-- The state once the words ws of a record have gone to the entry of record k of ring r, with its PHASE, and the ring stands at k + 1
(R543). -/
def recordWritten (s : State) (p : Fin 8) (c : Fin 64) (rest : List (Nat × Option (List Nat))) (r : Ring) (ws : List Nat) : State :=
  (s.setCp c p { s.cp c p with recs := rest, ring := some { r with k := r.k + 1 } }).post c (r.base + 32 * (r.k % 2 ^ r.sizeLog2))
    (wordsBytes (withPhase ws ((r.k / 2 ^ r.sizeLog2 + 1) % 2))) false

section
variable {s : State} {p : Fin 8} {c : Fin 64} {bs : List Byte} {n : Nat} {ws : List Nat} {rest : List (Nat × Option (List Nat))}
  {r : Ring}

/-- The record is the newest write to host memory, under the epoch of its context (R575). -/
theorem recordWritten_eq : recordWritten s p c rest r ws =
    { s.setCp c p { s.cp c p with recs := rest, ring := some { r with k := r.k + 1 } } with
      hostOut := s.hostOut ++ [{ addr := r.base + 32 * (r.k % 2 ^ r.sizeLog2)
                                 bytes := wordsBytes (withPhase ws ((r.k / 2 ^ r.sizeLog2 + 1) % 2))
                                 relaxed := false, ctx := c, epoch := (s.ctx c).epoch }] } := by
  simp [recordWritten, State.post, State.setCp]

/-- The earliest record, ready, of a ring that has room is written, and a commit that waited with it ends (R531, R543 to R545, R865). -/
theorem execCompletionRecordWrite_of_room (hrecs : (s.cp c p).recs = (n, some ws) :: rest)
    (hring : (s.cp c p).ring = some r) (hpath : (s.cp c p).broken = false) (hf : (s.part p).frozen = false)
    (hroom : (r.k + 2 ^ 32 - leNat (bs.take 4) % 2 ^ 32) % 2 ^ 32 < 2 ^ r.sizeLog2)
    (hcount : missingPages s (s.ctx c).owner r.cons 4 = [])
    (hentry : missingPages s (s.ctx c).owner (r.base + 32 * (r.k % 2 ^ r.sizeLog2)) 32 = []) :
    execCompletionRecordWrite p c (.data bs) s = .next (if (s.inst? p n).any (·.held) then
      commitEnd (recordWritten s p c rest r ws) p n else recordWritten s p c rest r ws) := by
  simp only [execCompletionRecordWrite, next, hrecs, hring]
  rw [if_neg (by simp [hpath, hf])]
  simp only [hcount, hentry, List.append_nil]
  rw [if_neg (Nat.not_le.2 hroom)]
  rw [State.inst_post, State.inst_setCp]
  cases s.inst? p n <;> rfl

end

/-- Settles O28: a node that has ended passes the guards of its commit one by one, and the earliest record of a ring with room is written
at base + 32 × (k mod size) with PHASE ((k div size) + 1) mod 2 (R543). That a generation must be LOADED at the commit of its EPOCH is
the model's reading (DEDUCED, log entry 45). -/
theorem nodesCommitAndRecord : Obligations.NodesCommitAndRecord := by
  unfold Obligations.NodesCommitAndRecord
  refine ⟨fun s p n i cons hi hst hended hf hserved => ⟨?wait, ?epoch, ?commit⟩,
    fun s p c bs n w ws rest r hrecs hring hpath hf hroom hcount hentry => ?record⟩
  case wait => exact execNodeCommit_of_fenceError ⟨hi, hst, hended, hf, hserved⟩
  case epoch => exact fun hty hload hheld => execNodeCommit_of_unloaded ⟨hi, hst, hended, hf, hserved⟩ hty hload rfl hheld
  case commit => exact execNodeCommit_of_fits ⟨hi, hst, hended, hf, hserved⟩
  case record =>
    show execCompletionRecordWrite p c (.data bs) s = _
    rw [execCompletionRecordWrite_of_room hrecs hring hpath hf hroom hcount hentry, recordWritten_eq, withPhase]

end Sys2Proof.Machine
end

section
/-! PROOFS. The mailbox (R549 to R567, R1103, R1111): writes to its registers, what the MCP makes of the request whose turn it is, and
what goes to the response buffer. -/

namespace Sys2Proof.Machine

@[simp] theorem State.setFn_setFn (s : State) (k : Nat) (x y : Fn) : (s.setFn k x).setFn k y = s.setFn k y := by
  simp [State.setFn]

/-! Registers of the mailbox (R549, R557, R1093). -/

/-- The mailbox control window of every function. -/
theorem regWord_cmi {s : State} (hst : s.boot.stage ≠ 7) (k : Nat) {o : Nat} (ho : o < 0x10) :
    regWord s k (0x3000 + o) = cmiWord s k o := by
  unfold regWord
  rw [if_neg (by omega), if_neg hst, if_neg (by omega), if_neg (by omega), if_pos (by omega), Nat.add_sub_cancel_left]

section
variable {s : State} {k : Fin 9}

theorem execCmiReqCtrlGo_of_live (hk : s.fnLive k = true) (hup : s.barUp = true) (hst : s.boot.stage ≠ 7) :
    execCmiReqCtrlGo k s = .next (s.setFn k { s.fn k with go := true }) := by
  have hword : regWord s k 0x3000 = some _ := regWord_cmi hst k (o := 0) (by decide)
  rw [execCmiReqCtrlGo, next, barGuard_of_regWord hup hk rfl hword, setGo, if_pos hk]

theorem execCmiRspValidClear_of_live (hk : s.fnLive k = true) (hup : s.barUp = true) (hst : s.boot.stage ≠ 7) :
    execCmiRspValidClear k s = .next (s.setFn k { s.fn k with rspValid := false }) := by
  have hword : regWord s k 0x3004 = some _ := regWord_cmi hst k (o := 4) (by decide)
  rw [execCmiRspValidClear, next, barGuard_of_regWord hup hk rfl hword, clearRsp, if_pos hk]

end

/-! Taking a request (R552 to R555, R560, R567, R1111). -/

/-- Copying a request buffer takes free choices alone. -/
theorem copiedBuf_frame (s : State) (k : Nat) : ∃ n, (copiedBuf s k).2 = { s with free := n } := by
  rw [copiedBuf]
  refine List.foldlRecOn (motive := fun a : Mem × State => ∃ n, a.2 = { s with free := n }) _ _ ⟨s.free, rfl⟩ ?_
  rintro a ⟨n, ha⟩ e -
  exact ⟨n + 1, by simp only [State.takeFree, ha]⟩

/-- The request of function k as the MCP copies it, under its number. -/
def copiedReq (s : State) (k : Nat) : Req := { (reqOf (copiedBuf s k).1).2 with no := (s.fn k).reqNo }

/-- Function f once its request is copied: GO is 0, and the next request gets the next number (R552). -/
def Fn.copied (f : Fn) : Fn := { f with go := false, rewritten := [], reqNo := f.reqNo + 1 }

/-- Function f once its request r is copied and outstanding (R554). -/
def Fn.awaiting (f : Fn) (r : Req) : Fn := { f.copied with outst := f.outst ++ [(r.no, r.seq)] }

/-- The state with the request of function k copied, its turn over and g in the place of the function. -/
def afterCopy (s : State) (k : Nat) (g : Fn) : State := { (copiedBuf s k).2.setFn k g with rrLast := k }

section
variable (s : State) (k : Nat) (g : Fn)

/-- The same as one update. -/
theorem afterCopy_frame : ∃ n, afterCopy s k g = { s with fns := tabSet s.fns k g, rrLast := k, free := n } := by
  obtain ⟨n, h⟩ := copiedBuf_frame s k
  exact ⟨n, by rw [afterCopy, h, State.setFn]⟩

@[simp] theorem afterCopy_fn : (afterCopy s k g).fn k = g := State.fn_setFn _ k g

@[simp] theorem setFn_afterCopy (h : Fn) : (afterCopy s k g).setFn k h = afterCopy s k h := by
  simp [afterCopy, State.setFn]

@[simp] theorem afterCopy_taken : (afterCopy s k g).taken = s.taken := by
  obtain ⟨n, h⟩ := afterCopy_frame s k g
  rw [h]

@[simp] theorem repliesAhead_afterCopy (j : Nat) : repliesAhead (afterCopy s k g) j = repliesAhead s j := by
  obtain ⟨n, h⟩ := afterCopy_frame s k g
  rw [h]
  rfl

/-- Checks 1 to 6 read readiness and the contexts alone. -/
@[simp] theorem headerChecks_afterCopy (j : Nat) (h : List Nat) (r : Req) :
    headerChecks (afterCopy s k g) j h r = headerChecks s j h r := by
  obtain ⟨n, hn⟩ := afterCopy_frame s k g
  rw [hn]
  rfl

end

/-- The function with the refusal of a request that has just been taken behind its replies: the refusal of a simple message waits for
the replies to the simple requests taken before it (R560, R566). -/
def Fn.refused (f : Fn) (s : State) (k : Nat) (r : Req) (st d : Nat) : Fn := { f with replies := f.replies ++
  [{ seq := r.seq, opcode := r.opcode, ctx := r.ctx, status := st, detail := d, payload := [], req := r.no
     after := if longMsg r.opcode then []
       else (s.taken.filter fun x => x.1 == k && !longMsg x.2.opcode).map (·.2.no) ++ repliesAhead s k }] }

theorem refuseTaken_afterCopy (s : State) (k : Nat) (g : Fn) (r : Req) (st d : Nat) :
    refuseTaken (afterCopy s k g) k r st d = afterCopy s k (g.refused s k r st d) := by
  simp [refuseTaken, Fn.refused]

/-- The copied request, outstanding, after checks 1 to 6: refused with their status and detail, or taken (R567). -/
def afterChecks (s : State) (k : Nat) : Option (Nat × Nat) → State
  | some (st, d) => afterCopy s k (((s.fn k).awaiting (copiedReq s k)).refused s k (copiedReq s k) st d)
  | none => { afterCopy s k ((s.fn k).awaiting (copiedReq s k)) with taken := s.taken ++ [(k, copiedReq s k)] }

/-- What the MCP makes of the request whose turn it is: the room, the number and checks 1 to 6 decide, in this order. -/
theorem takeRequest_eq (s : State) (k : Nat) : takeRequest s k =
    if 16 ≤ (s.fn k).outst.length then afterCopy s k ((s.fn k).copied.refused s k (copiedReq s k) 0x18 noField)
    else if (s.fn k).outst.any (·.2 == (copiedReq s k).seq) then
      afterCopy s k (((s.fn k).awaiting (copiedReq s k)).refused s k (copiedReq s k) 0x19 0)
    else afterChecks s k (headerChecks s k (reqOf (copiedBuf s k).1).1 (copiedReq s k)) := by
  unfold takeRequest
  extract_lets f b hr q r v s1 g s2
  have hs1 : s1 = afterCopy s k f.copied := rfl
  have hs2 : s2 = afterCopy s k (f.awaiting r) := by
    show s1.setFn k { s1.fn k with outst := f.outst ++ [(r.no, r.seq)] } = _
    rw [hs1, afterCopy_fn, setFn_afterCopy, Fn.awaiting]
  simp only [hs1, hs2, headerChecks_afterCopy, refuseTaken_afterCopy, afterCopy_taken]
  rfl

/-- The MCP serves the function whose turn it is while it runs (R555). -/
theorem execMcpTakeRequest_of_turn {s : State} {k : Fin 9} (hready : s.mcpReady = true) (hstop : s.stopped = false)
    (hturn : nextFn s = some (k : Nat)) : execMcpTakeRequest k s = .next (takeRequest s k) := by
  simp [execMcpTakeRequest, next, hready, hstop, hturn]

section
variable {s : State} {k : Nat}

theorem takeRequest_of_full (hfull : 16 ≤ (s.fn k).outst.length) :
    takeRequest s k = afterCopy s k ((s.fn k).copied.refused s k (copiedReq s k) 0x18 noField) := by
  rw [takeRequest_eq]
  exact if_pos hfull

/-- The test of a sequence number: an outstanding request has it (R554). -/
theorem outst_any_seq {l : List (Nat × Nat)} {q : Nat} : (l.any (·.2 == q)) = true ↔ ¬∀ x ∈ l, x.2 ≠ q := by
  simp

theorem takeRequest_of_inUse (hroom : (s.fn k).outst.length < 16)
    (hused : ¬∀ x ∈ (s.fn k).outst, x.2 ≠ (copiedReq s k).seq) :
    takeRequest s k = afterCopy s k (((s.fn k).awaiting (copiedReq s k)).refused s k (copiedReq s k) 0x19 0) := by
  rw [takeRequest_eq]
  exact (if_neg (Nat.not_le.2 hroom)).trans (if_pos (outst_any_seq.2 hused))

/-- A request that there is room for, under a fresh number, is outstanding and comes to what checks 1 to 6 say. -/
theorem takeRequest_of_fresh {e : Option (Nat × Nat)} (hroom : (s.fn k).outst.length < 16)
    (hfresh : ∀ x ∈ (s.fn k).outst, x.2 ≠ (copiedReq s k).seq)
    (he : headerChecks s k (reqOf (copiedBuf s k).1).1 (copiedReq s k) = e) : takeRequest s k = afterChecks s k e := by
  rw [takeRequest_eq, he]
  exact (if_neg (Nat.not_le.2 hroom)).trans (if_neg (mt outst_any_seq.1 (not_not.2 hfresh)))

end

/-! The response buffer (R556 to R562). -/

/-- A message goes to the response buffer of a function, and its vector tells the host where IRQ_EN is set (R556). -/
theorem putMessage_setFn (s : State) (k : Nat) (f : Fn) (ws : List Nat) (seq : Nat) : putMessage (s.setFn k f) k ws seq =
    let u := s.setFn k { f with rspBuf := memWrite f.rspBuf 0 (wordsBytes ws), rspValid := true, rspSeq := seq }
    if f.irqEn then raiseVector u k f.irqVec else u := by
  simp only [putMessage, State.fn_setFn, State.setFn_setFn]

section
variable {s : State} {k : Fin 9}

/-- The oldest reply that may go is delivered (R559, R560). -/
theorem execCmiResponseDelivery_of_reply {r : Reply} (hfree : (s.fn k).rspValid = false) (hstop : s.stopped = false)
    (hreply : (s.fn k).replies.find? (replyMayGo (s.fn k).outst) = some r) :
    execCmiResponseDelivery k s = .next (putMessage (s.setFn k { s.fn k with
      replies := (s.fn k).replies.erase r, outst := (s.fn k).outst.filter (·.1 != r.req) }) k (replyWords r) r.seq) := by
  simp [execCmiResponseDelivery, next, hfree, hstop, hreply]

/-- With no such reply the oldest event is (R562). -/
theorem execCmiResponseDelivery_of_event {m : EvMsg} {rest : List EvMsg} (hfree : (s.fn k).rspValid = false)
    (hstop : s.stopped = false) (hnone : (s.fn k).replies.find? (replyMayGo (s.fn k).outst) = none)
    (hevent : (s.fn k).events = m :: rest) :
    execCmiResponseDelivery k s = .next (putMessage (s.setFn k { s.fn k with events := rest }) k (eventWords m) 0) := by
  simp [execCmiResponseDelivery, next, hfree, hstop, hnone, hevent]

end

/-- Settles O32: a write to GO or RSP_VALID passes the guard of BAR0; the request whose turn it is is copied, and its room, its number and
checks 1 to 6 decide what it comes to; a delivery finds the reply that may go, and only without one the event (R549 to R567). -/
theorem mailboxServes : Obligations.MailboxServes := by
  unfold Obligations.MailboxServes
  refine ⟨fun s k => ⟨execCmiReqCtrlGo_of_live, fun hready hstop hturn => ?take⟩,
    fun s k => ⟨execCmiRspValidClear_of_live, ?reply, ?event, fun r u h => ?identity⟩⟩
  case take =>
    have hexec : exec (.mcpTakeRequest k) s = .next (takeRequest s k) := execMcpTakeRequest_of_turn hready hstop hturn
    intro f b h r fresh u refused
    have hrefused (g : Fn) (st d : Nat) (hg : g.replies = f.replies) :
        afterCopy s k (g.refused s k r st d) = refused (afterCopy s k g) st d := by
      show _ = (afterCopy s k g).setFn k { (afterCopy s k g).fn k with replies := _ }
      rw [afterCopy_fn, setFn_afterCopy, Fn.refused, hg]
    refine ⟨fun hroom hfresh hpass => hexec.trans (congrArg _ ?taken), fun st d hroom hfresh hfail => hexec.trans (congrArg _ ?failed),
      fun hroom hused => hexec.trans (congrArg _ ?inUse), fun hfull => hexec.trans (congrArg _ ?full)⟩
    case taken => exact takeRequest_of_fresh hroom hfresh hpass
    case failed => exact (takeRequest_of_fresh hroom hfresh hfail).trans (hrefused (f.awaiting r) st d rfl)
    case inUse => exact (takeRequest_of_inUse hroom hused).trans (hrefused (f.awaiting r) 0x19 0 rfl)
    case full => exact (takeRequest_of_full hfull).trans (hrefused f.copied 0x18 noField rfl)
  case reply => exact fun r hfree hstop hreply =>
      (execCmiResponseDelivery_of_reply hfree hstop hreply).trans (congrArg _ (putMessage_setFn _ _ _ _ _))
  case event => exact fun m rest hfree hstop hnone hevent =>
      (execCmiResponseDelivery_of_event hfree hstop hnone hevent).trans (congrArg _ (putMessage_setFn _ _ _ _ _))
  case identity => exact congrArg Host.Outcome.next (runOp_asked h _)

end Sys2Proof.Machine
end

section
/-! PROOFS. Contexts, fence grants and page tables (R402 to R404, R573 to R583): a message that passes its checks has only its effect left,
and the two ends of a teardown wait for what they say. -/

namespace Sys2Proof.Machine

/-! Contexts (R573 to R580). -/

section
variable {s u v : State} {k : Fin 9} {c : Fin 64} {r : Req} {n : Nat}

/-- A CTX_CREATE whose checks pass makes the context that the free number names (R573 to R576). -/
theorem execCtxCreate_of_accepted (h : Asked s k 0x0101 r u) (hres : NoBits r [0xFFFFFF00])
    (hsome : maskParts (wd r.payload 0 % 256) ≠ [])
    (hparts : ∀ p ∈ maskParts (wd r.payload 0 % 256), u.ownerOf p = k ∧ (u.part p).inService = true)
    (hroom : (liveCtxs u).length < 63) (hlevel : u.dbgLevel ≠ 2)
    (hid : freshId u (fun c => (u.ctx c).st != .free) 1 63 u.ctxs.length = some (n, v)) :
    execCtxCreate k s = .next (reply (newCtx v n k (maskParts (wd r.payload 0 % 256))) k r.no r.seq r.opcode n 0 0
      [n + 256 * (((v.ctx n).epoch + 1) % 256)]) := by
  have howned : ((maskParts (wd r.payload 0 % 256)).any fun p => u.ownerOf p != (k : Nat)) = false := by
    simpa using fun p hp => (hparts p hp).1
  have hserves : ((maskParts (wd r.payload 0 % 256)).any fun p => !(u.part p).inService) = false := by
    simpa using fun p hp => (hparts p hp).2
  rw [execCtxCreate, runOp_asked h, next]
  refine congrArg _ ((checked_go ?checks).trans ?made)
  case checks =>
    exact firstBad_cons howned <| firstBad_reserved _ hres <| firstBad_cons (by simpa using hsome) <|
      firstBad_cons (by simpa using hroom) <| firstBad_cons hserves <| firstBad_cons (by simpa using hlevel) firstBad_nil
  case made => simp only [hid, newCtx, State.ctx_setCtx]

/-- CTX_QUERY has no check of its own (R580). -/
theorem execCtxQuery_of_asked (h : Asked s k 0x0103 r u) : execCtxQuery k s = .next (okReply u k r
    [(match (u.ctx r.ctx).st with | .draining => 1 | .zeroing => 2 | _ => 0) +
      256 * (u.ctx r.ctx).parts.foldl (fun a p => a + 2 ^ p) 0 + 65536 * (u.ctx r.ctx).epoch]) :=
  congrArg Host.Outcome.next (runOp_asked h _)

/-- A CTX_DESTROY with a drain limit in range begins the teardown as a long operation (R577). -/
theorem execCtxDestroy_of_accepted (h : Asked s k 0x0102 r u) (hlimit : wd r.payload 0 ≤ 1000000) :
    execCtxDestroy k s = .next (beginTeardown (longOp u k r [] 0 0) r.ctx (wd r.payload 0) (some u.nextOp)) := by
  rw [execCtxDestroy, runOp_asked h, next]
  exact congrArg _ (checked_go (firstBad_cons (by simpa using hlimit) firstBad_nil))

/-- No partition of a context is in a reset. -/
theorem noReset_of_all (h : ∀ p ∈ (s.ctx c).parts, (s.part p).reset = none) :
    ((s.ctx c).parts.any fun p => (s.part p).reset.isSome) = false := by
  simpa using h

/-- Nothing of a draining context is outstanding: it is cleared, not fenced (R577). -/
theorem execCtxDrainEnd_of_clean (hst : (s.ctx c).st = .draining) (hreset : ∀ p ∈ (s.ctx c).parts, (s.part p).reset = none)
    (hcommits : commitsDone s c = true) (htxns : hasTxns s c = false) (hrecords : recordWaits s c = false) :
    execCtxDrainEnd c true s = .next (teardownClear s c false) := by
  simp [execCtxDrainEnd, next, hst, noReset_of_all hreset, hcommits, htxns, hrecords]

/-- Its limit has passed: it is cleared and fenced (R577). -/
theorem execCtxDrainEnd_of_late (hst : (s.ctx c).st = .draining) (hreset : ∀ p ∈ (s.ctx c).parts, (s.part p).reset = none)
    (hlate : (s.ctx c).drainBy ≤ s.hub) : execCtxDrainEnd c false s = .next (teardownClear s c true) := by
  simp [execCtxDrainEnd, next, hst, noReset_of_all hreset, hlate]

theorem execCtxZeroingEnd_of_zeroing (hst : (s.ctx c).st = .zeroing) : execCtxZeroingEnd c s = .next (teardownEnd s c) := by
  simp [execCtxZeroingEnd, next, hst]

/-! Grants (R581 to R583). -/

/-- The payload spells a grant over fence words that its context has (R581). -/
structure GrantFits (u : State) (r : Req) (g : Grant) : Prop where
  spelled : grantOf r.payload = g
  reserved : NoBits r [0xFFFFFCC0, 0xE000F000]
  nonempty : 1 ≤ g.count
  most : g.count ≤ 4096
  inside : g.first + g.count ≤ 512 * (u.ctx r.ctx).parts.length

variable {g : Grant}

/-- It passes the checks that FENCE_GRANT and FENCE_REVOKE share. -/
theorem GrantFits.passes (h : GrantFits u r g) : firstBad (grantChecks u r) = none := by
  obtain ⟨rfl, hres, hlo, hhi, hin⟩ := h
  have hcount : ((grantOf r.payload).count == 0 || decide (4096 < (grantOf r.payload).count)) = false := by
    simp only [Bool.or_eq_false_iff, beq_eq_false_iff_ne, decide_eq_false_iff_not]
    omega
  exact firstBad_reserved _ hres <| firstBad_cons hcount <| firstBad_cons (by simpa using hin) firstBad_nil

/-- A FENCE_GRANT to an open context, with room for it, adds its grant (R581, R582). -/
theorem execFenceGrant_of_accepted (hg : GrantFits u r g) (h : Asked s k 0x0110 r u) (hto : g.grantee ≠ 0)
    (hopen : (u.ctx g.grantee).st = .open) (hroom : (u.ctx r.ctx).grants.length < 64) :
    execFenceGrant k s = .next (okReply (u.setCtx r.ctx
      { u.ctx r.ctx with grants := (u.ctx r.ctx).grants ++ [g] }) k r []) := by
  have hchecks := hg.passes
  obtain ⟨rfl, -⟩ := hg
  rw [execFenceGrant, runOp_asked h, next]
  exact congrArg _ (checked_go (firstBad_append hchecks <| firstBad_cons (by simp [hto, hopen]) <|
    firstBad_cons (by simpa using hroom) firstBad_nil))

/-- A FENCE_REVOKE of a grant that exists ends it at the boundaries of the grantee's partitions, those that are idle at once (R583). -/
theorem execFenceRevoke_of_accepted (hg : GrantFits u r g) (h : Asked s k 0x0111 r u) (hmem : g ∈ (u.ctx r.ctx).grants) :
    let v := (u.ctx g.grantee).parts.foldl boundaryIfIdle (u.setCtx r.ctx
      { u.ctx r.ctx with grants := revokeIn (u.ctx r.ctx).grants g (u.ctx g.grantee).parts })
    execFenceRevoke k s = .next (okReply (v.setCtx r.ctx
      { v.ctx r.ctx with grants := (v.ctx r.ctx).grants.filter fun g => g.revoked != some [] }) k r []) := by
  have hchecks := hg.passes
  obtain ⟨rfl, -⟩ := hg
  rw [execFenceRevoke, runOp_asked h, next]
  exact congrArg _ (checked_go (firstBad_append hchecks <| firstBad_cons (by simpa using hmem) firstBad_nil))

/-! Page tables (R402 to R404). -/

/-- A KV_TABLE_SET whose checks pass leaves its table for the next command boundary, which is now where the partition is idle. -/
theorem execKvTableSet_of_accepted {p : Nat} (hp : bitsOf (wd r.payload 0) 23 21 = p) (hn : bitsOf (wd r.payload 0) 20 0 = n)
    (h : Asked s k 0x0230 r u) (hpart : PartOk u k r p) (hres : NoBits r [0xFF000000, 0xFFFFFFFF, 0, 0xFFFF0000])
    (hlo : 1 ≤ n) (hhi : n ≤ 1048576) (hbase : wd64 r.payload 2 % 4096 = 0) :
    execKvTableSet k s = .next (okReply (boundaryIfIdle (u.setCp r.ctx p
      { u.cp r.ctx p with ptNext := some ⟨wd64 r.payload 2, n⟩ }) p) k r []) := by
  subst hp hn
  have hentries : (bitsOf (wd r.payload 0) 20 0 == 0 || decide (1048576 < bitsOf (wd r.payload 0) 20 0)) = false := by
    simp only [Bool.or_eq_false_iff, beq_eq_false_iff_ne, decide_eq_false_iff_not]
    omega
  rw [execKvTableSet, runOp_asked h, next]
  exact congrArg _ (checked_go (firstBad_append (firstBad_part hpart) <| firstBad_reserved _ hres <|
    firstBad_cons hentries <| firstBad_cons (by simpa using hbase) firstBad_nil))

end

/-- Settles O33: a message that passes its checks has only its effect left; a teardown ends its drain once nothing is outstanding or its
limit has passed, and its zeroing once it is at it (R402 to R404, R573 to R583). -/
theorem contextsGrantsAndTables : Obligations.ContextsGrantsAndTables := by
  unfold Obligations.ContextsGrantsAndTables
  refine ⟨fun s u k c r => ⟨fun n v => ?create, execCtxQuery_of_asked, execCtxDestroy_of_accepted,
      fun hst hreset => ⟨execCtxDrainEnd_of_clean hst hreset, execCtxDrainEnd_of_late hst hreset⟩, execCtxZeroingEnd_of_zeroing⟩,
    fun s u k r => ⟨fun hres hlo hhi => ⟨fun h hin => ?grant, fun h hin => ?revoke⟩, ?table⟩⟩
  case create => exact execCtxCreate_of_accepted
  case grant => exact execFenceGrant_of_accepted ⟨rfl, hres, hlo, hhi, hin⟩ h
  case revoke => exact execFenceRevoke_of_accepted ⟨rfl, hres, hlo, hhi, hin⟩ h
  case table => exact execKvTableSet_of_accepted rfl rfl

end Sys2Proof.Machine
end

section
/-! PROOFS. The schedule of a partition, its grace windows and its regulators (R609 to R616, R620 to R635): what a refill does to one
regulator and to all eleven, the four ways over a slot boundary, and the kills at the end of a grace window. -/

namespace Sys2Proof.Machine

/-! What a regulator serves (R610). -/

namespace Regulator

/-- The bytes that wait and proceed: whole units of 256 while the balance is above 0, and no more than wait. -/
def served (r : Regulator) : Nat := if r.balance ≤ 0 then 0 else min r.owed (256 * ((r.balance + 65535) / 65536).toNat)

/-- A service takes these bytes off the bytes that wait and off the balance, and marks a regulator where bytes stay behind. -/
theorem serve_eq (r : Regulator) : r.serve = { r with
    owed := r.owed - r.served, balance := r.balance - 256 * (r.served : Int), waited := r.waited || r.owed - r.served != 0 } := by
  unfold serve served
  dsimp only
  split_ifs with hdry hall
  · simp
  · simp [Nat.min_eq_left hall]
  · have hleft : r.owed - 256 * ((r.balance + 65535) / 65536).toNat ≠ 0 := by omega
    have htaken (n : Nat) : 65536 * (n : Int) = 256 * (256 * n : Nat) := by omega
    simp only [Nat.min_eq_right (Nat.le_of_not_le hall), htaken, bne_iff_ne.2 hleft, Bool.or_true]

end Regulator

/-! A refill of one regulator (R609, R615, R616). -/

/-- Regulator r1 is r with the settings taken that its last command boundary left for a refill; a RATE of 0 may still wait. -/
structure TakesArmed (r r1 : Regulator) : Prop where
  balance_eq : r1.balance = r.balance
  owed_eq : r1.owed = r.owed
  kept : r.armed = none → r1.rate = r.rate ∧ r1.burst = r.burst
  taken : ∀ rate burst, r.armed = some (rate, burst) → rate ≠ 0 → r1.rate = rate ∧ r1.burst = burst ∧ r1.armed = none

/-- Regulator r1 of resource k with the tokens of one microsecond added, and one more refill counted where requests waited. -/
def addTokens (k : Nat) (waited : Bool) (r1 : Regulator) (throttled : Nat) : Regulator :=
  { r1 with balance := min (r1.balance + r1.rate * regStep k) (r1.burst * (r1.rate * regStep k)), waited := false
            throttled := if waited then min (throttled + 1) (2 ^ 32 - 1) else throttled }

/-- A refill takes the settings that wait, adds the tokens and serves what waits. -/
theorem refill_eq_serve (P : Part) (k : Nat) (r : Regulator) :
    ∃ r1, TakesArmed r r1 ∧ refill P k r = (addTokens k r.waited r1 r.throttled).serve := by
  unfold refill
  refine ⟨_, ?_, rfl⟩
  match harmed : r.armed with
  | none => exact ⟨rfl, rfl, fun _ => ⟨rfl, rfl⟩, fun _ _ h => by simp [harmed] at h⟩
  | some (rate, burst) =>
    by_cases hrate : rate = 0
    · have hnone : r.armed ≠ none := by simp [harmed]
      have hzero (a b : Nat) (h : r.armed = some (a, b)) : a = 0 := by
        cases harmed.symm.trans h
        exact hrate
      simp only [if_pos hrate]
      split_ifs <;> exact ⟨rfl, rfl, fun h => absurd h hnone, fun a b h ha => absurd (hzero a b h) ha⟩
    · simp only [if_neg hrate]
      refine ⟨rfl, rfl, fun h => by simp [harmed] at h, fun a b h _ => ?_⟩
      obtain ⟨rfl, rfl⟩ : rate = a ∧ burst = b := by simpa [harmed] using h
      exact ⟨rfl, rfl, rfl⟩

/-! A refill of a partition. -/

/-- Entries put at the keys of a list: a key of the list holds its own, any other what it held. -/
theorem tabFind_foldl_tabSet {α : Type} (f : Nat → α) (l : List Nat) (t : Tab α) (j : Nat) :
    tabFind (l.foldl (fun t k => tabSet t k (f k)) t) j = if j ∈ l then some (f j) else tabFind t j := by
  induction l generalizing t with
  | nil => simp
  | cons k l ih =>
    rw [List.foldl_cons, ih]
    by_cases hl : j ∈ l
    · simp [hl]
    · by_cases hk : j = k <;> simp [hl, hk]

/-- The regulators of a partition after a refill. -/
def refilled (P : Part) : Tab Regulator := (List.range 11).foldl (fun t k => tabSet t k (refill P k (P.reg k))) P.regs

/-- The eleven resources are refilled, and no other entry changes. -/
theorem tabFind_refilled (P : Part) (k : Nat) :
    tabFind (refilled P) k = if k < 11 then some (refill P k (P.reg k)) else tabFind P.regs k := by
  simp only [refilled, tabFind_foldl_tabSet, List.mem_range]

section
variable {s : State} {p : Fin 8}

theorem execRegulatorRefill_of_due (hheld : (s.part p).computeHeld = false) (hdue : (s.part p).refillAt + 25 ≤ (s.part p).count) :
    execRegulatorRefill p s =
      .next (s.setPart p { s.part p with regs := refilled (s.part p), refillAt := (s.part p).refillAt + 25 }) := by
  have hdue' : ¬ (s.part p).count < (s.part p).refillAt + us 1 := Nat.not_lt.2 hdue
  simp only [execRegulatorRefill, next, hheld, hdue', decide_false, Bool.or_self, Bool.false_eq_true, if_false]
  rfl

end

/-- Settles O31: a refill writes the eleven regulators one by one; each takes the settings that wait, is capped at BURST refills, and
serves what waits (R607, R609, R610, R615). -/
theorem refillAddsTokensUpToBurst : Obligations.RefillAddsTokensUpToBurst := by
  unfold Obligations.RefillAddsTokensUpToBurst
  refine fun s p hheld hdue => ⟨refilled (s.part p), execRegulatorRefill_of_due hheld hdue, fun k hk => ?other, fun k hk => ?resource⟩
  case other => rw [tabFind_refilled, if_neg (Nat.not_lt.2 hk)]
  case resource =>
    obtain ⟨r1, htakes, hrefill⟩ := refill_eq_serve (s.part p) k ((s.part p).reg k)
    obtain ⟨hbalance, howed, hkept, htaken⟩ := htakes
    refine ⟨refill (s.part p) k ((s.part p).reg k), by rw [tabFind_refilled, if_pos hk], ?_⟩
    rw [hrefill, Regulator.serve_eq]
    refine ⟨?balance, ?owed, hkept, htaken, rfl, by simp [addTokens]⟩
    case balance =>
      simp only [addTokens, Regulator.served, hbalance, howed]
      rfl
    case owed =>
      simp only [addTokens, Regulator.served, hbalance, howed]
      rfl

/-! The schedule (R620 to R623, R629, R635). -/

theorem takeTable_nil (P : Part) (e : Nat) :
    takeTable P [] e = { P with sched := none, schedNext := none, slot := 0, frames := 0, frameAt := e } := rfl

theorem takeTable_cons (P : Part) (a : Slot) (m : List Slot) (e : Nat) :
    takeTable P (a :: m) e = { P with sched := some (a :: m), schedNext := none, slot := 0, frames := 1, frameAt := e } := rfl

section
variable {s : State} {p : Fin 8} {l m : List Slot} {e : Nat}

/-- The running slot of partition p, of table l, has had its time at die count e, and nothing holds the partition. -/
structure SlotEnds (s : State) (p : Fin 8) (l : List Slot) (e : Nat) : Prop where
  sched_eq : (s.part p).sched = some l
  thawed : (s.part p).frozen = false
  served : (s.part p).computeHeld = false
  end_eq : (s.part p).frameAt + slotEnd l (s.part p).slot = e
  due : e ≤ (s.part p).count

/-- Partition P of table l after the running slot, which ended at die count e: the next slot of the frame, else the table that waits,
else a new frame. -/
def afterSlot (P : Part) (l : List Slot) (e : Nat) : Part :=
  if P.slot + 1 < l.length then { P with slot := P.slot + 1 }
  else (P.schedNext.map fun m => takeTable P m e).getD { P with slot := 0, frames := P.frames + 1, frameAt := e }

theorem afterSlot_within_frame {P : Part} (hmore : P.slot + 1 < l.length) : afterSlot P l e = { P with slot := P.slot + 1 } :=
  if_pos hmore

theorem afterSlot_new_frame {P : Part} (hlast : l.length ≤ P.slot + 1) (hnext : P.schedNext = none) :
    afterSlot P l e = { P with slot := 0, frames := P.frames + 1, frameAt := e } := by
  simp [afterSlot, Nat.not_lt.2 hlast, hnext]

theorem afterSlot_new_table {P : Part} (hlast : l.length ≤ P.slot + 1) (hnext : P.schedNext = some m) :
    afterSlot P l e = takeTable P m e := by
  simp [afterSlot, Nat.not_lt.2 hlast, hnext]

/-- A boundary that is due puts the partition behind its slot, and its grace window opens (R623, R629, R635). -/
theorem execSlotBoundary_of_ends (h : SlotEnds s p l e) :
    execSlotBoundary p s = .next (s.setPart p (markBoundary (afterSlot (s.part p) l e) e)) := by
  obtain ⟨hsched, hthawed, hserved, rfl, hdue⟩ := h
  simp only [execSlotBoundary, next, hsched, hthawed, hserved, Nat.not_lt.2 hdue, Bool.or_self, Bool.false_eq_true, if_false, afterSlot]
  split_ifs
  · rfl
  · cases (s.part p).schedNext <;> rfl

/-! The end of grace (R630, R631). -/

/-- The nodes that an ended grace window of the partition names and that have run on since, in the order of the windows. -/
def graceVictims (P : Part) : List Nat :=
  (P.graces.filter fun g => decide (g.ends ≤ P.count)).flatMap fun g => g.nodes.filter (graceRuns P g)

theorem execGraceExpiry_of_thawed (hthawed : (s.part p).frozen = false) : execGraceExpiry p s =
    .next ((graceVictims (s.part p)).foldl (fun u n => preempt u p n) (s.setPart p { s.part p with
      graces := (s.part p).graces.filter fun g => !decide (g.ends ≤ (s.part p).count) })) := by
  simp only [execGraceExpiry, next, hthawed, Bool.false_eq_true, if_false]
  rfl

end

/-- Settles O30: a boundary goes one of four ways, each with the grace window that markBoundary opens; the end of grace kills the nodes
of the windows that are over (R620 to R623, R630, R631, R635). -/
theorem scheduleAndGrace : Obligations.ScheduleAndGrace := by
  unfold Obligations.ScheduleAndGrace
  refine ⟨fun s p l hsched => ?boundary, fun s p hthawed => ?grace⟩
  case boundary =>
    intro P e held at_ hthawed hserved hdue
    have hexec : exec (.slotBoundary p) s = .next (s.setPart p (markBoundary (afterSlot P l e) e)) :=
      execSlotBoundary_of_ends ⟨hsched, hthawed, hserved, rfl, hdue⟩
    refine ⟨fun hmore => ?within, fun hlast hnext => ?frame, fun a m hlast hnext => ?table, fun hlast hnext => ?removed⟩
    case within =>
      rw [afterSlot_within_frame hmore] at hexec
      exact hexec
    case frame =>
      rw [afterSlot_new_frame hlast hnext] at hexec
      exact hexec
    case table =>
      rw [afterSlot_new_table hlast hnext, takeTable_cons] at hexec
      exact hexec
    case removed =>
      rw [afterSlot_new_table hlast hnext, takeTable_nil] at hexec
      exact hexec
  case grace => exact execGraceExpiry_of_thawed hthawed

end Sys2Proof.Machine
end

section
/-! PROOFS. The step of the machine (R641, R642; DESIGN CHOICE, log entry 1): the front command, or one count of the clock, which changes
the counters and the notes of idleness alone. -/

namespace Sys2Proof.Machine

/-! Updates of the partitions alone. -/

/-- State t is s but for its partitions. -/
def OnlyParts (s t : State) : Prop := { t with parts := s.parts } = s

theorem OnlyParts.refl (s : State) : OnlyParts s s := rfl

theorem OnlyParts.trans {s t u : State} (h : OnlyParts s t) (h2 : OnlyParts t u) : OnlyParts s u := by
  unfold OnlyParts at *
  rw [← h, ← h2]

theorem onlyParts_setPart (s : State) (p : Nat) (x : Part) : OnlyParts s (s.setPart p x) := rfl

/-- A chain of such updates is one. -/
theorem OnlyParts.foldl {f : State → Nat → State} (hf : ∀ s p, OnlyParts s (f s p)) (l : List Nat) (s : State) :
    OnlyParts s (l.foldl f s) := by
  induction l generalizing s with
  | nil => exact .refl s
  | cons p l ih => exact (hf s p).trans (ih _)

/-- A state that differs in the hub counter as well. -/
theorem OnlyParts.of_setHub {s t : State} {n : Nat} (h : OnlyParts { s with hub := n } t) :
    { t with hub := s.hub, parts := s.parts } = s := by
  unfold OnlyParts at h
  exact congrArg (fun x : State => { x with hub := s.hub }) h

/-- The same write of the hub counter to both states. -/
theorem OnlyParts.setHub {s t : State} (h : OnlyParts s t) (n : Nat) : OnlyParts { s with hub := n } { t with hub := n } := by
  unfold OnlyParts at h
  exact congrArg (fun x : State => { x with hub := n }) h

theorem OnlyParts.hub_eq {s t : State} (h : OnlyParts s t) : t.hub = s.hub := by
  unfold OnlyParts at h
  rw [← h]

theorem State.part_setHub (s : State) (n q : Nat) : ({ s with hub := n } : State).part q = s.part q := rfl

/-! The note of idleness (R940, R941). -/

/-- Partition y is x but for the note of idleness. -/
def SameButIdle (x y : Part) : Prop := { y with idleAt := x.idleAt } = x

theorem SameButIdle.trans {x y z : Part} (h : SameButIdle x y) (h2 : SameButIdle y z) : SameButIdle x z := by
  unfold SameButIdle at *
  rw [← h, ← h2]

/-- A note is the write of one partition's idleAt, or nothing. -/
theorem noteIdle_eq (s : State) (p : Nat) : noteIdle s p = s ∨ ∃ i, noteIdle s p = s.setPart p { s.part p with idleAt := i } := by
  unfold noteIdle
  dsimp only
  split_ifs
  · exact .inl rfl
  · exact .inr ⟨none, rfl⟩
  · exact .inl rfl
  · exact .inr ⟨some (s.part p).count, rfl⟩

theorem noteIdle_onlyParts (s : State) (p : Nat) : OnlyParts s (noteIdle s p) := by
  rcases noteIdle_eq s p with h | ⟨i, h⟩ <;> rw [h]
  · exact .refl s
  · exact onlyParts_setPart s p _

theorem noteIdle_part (s : State) (p q : Nat) : SameButIdle (s.part q) ((noteIdle s p).part q) := by
  rcases noteIdle_eq s p with h | ⟨i, h⟩ <;> rw [h]
  · rfl
  · by_cases hq : q = p
    · subst hq
      rw [State.part_setPart]
      rfl
    · rw [State.part_setPart_ne _ _ _ _ hq]
      rfl

/-- The notes of several partitions. -/
theorem noteIdle_foldl_part (l : List Nat) (s : State) (q : Nat) : SameButIdle (s.part q) ((l.foldl noteIdle s).part q) := by
  induction l generalizing s with
  | nil => rfl
  | cons p l ih => exact (noteIdle_part s p q).trans (ih _)

/-! The die counters (R641). -/

/-- One count of a partition's die counter. -/
def Part.counted (P : Part) : Part := { P with count := (P.count + 1) % 2 ^ 64 }

/-- An update of the partitions of a list leaves any other partition. -/
theorem part_foldl_setPart_of_not_mem (f : Part → Part) {l : List Nat} {p : Nat} (hp : p ∉ l) (s : State) :
    (l.foldl (fun s p => s.setPart p (f (s.part p))) s).part p = s.part p := by
  induction l generalizing s with
  | nil => rfl
  | cons q l ih =>
    obtain ⟨hq, hl⟩ := not_or.1 (mt List.mem_cons.2 hp)
    rw [List.foldl_cons, ih hl, State.part_setPart_ne _ _ _ _ hq]

/-- Where the list names none twice, each of its partitions is updated once. -/
theorem part_foldl_setPart (f : Part → Part) {l : List Nat} (hl : l.Nodup) (s : State) {p : Nat} (hp : p ∈ l) :
    (l.foldl (fun s p => s.setPart p (f (s.part p))) s).part p = f (s.part p) := by
  induction l generalizing s with
  | nil => cases hp
  | cons q l ih =>
    obtain ⟨hq, hl⟩ := List.nodup_cons.1 hl
    rw [List.foldl_cons]
    by_cases hmem : p ∈ l
    · rw [ih hl _ hmem, State.part_setPart_ne _ _ _ _ (ne_of_mem_of_not_mem hmem hq)]
    · obtain rfl : p = q := (List.mem_cons.1 hp).resolve_right hmem
      rw [part_foldl_setPart_of_not_mem f hmem, State.part_setPart]

/-! One count of the clock (R641, R642). -/

theorem allParts_nodup : allParts.Nodup := by decide

theorem mem_allParts {p : Nat} (hp : p < 8) : p ∈ allParts := List.mem_range.2 hp

/-- The eight die counters advance. -/
def countAll (s : State) : State := allParts.foldl (fun s p => s.setPart p (s.part p).counted) s

theorem countAll_onlyParts (s : State) : OnlyParts s (countAll s) :=
  .foldl (fun s p => onlyParts_setPart s p _) allParts s

theorem countAll_part (s : State) {p : Nat} (hp : p < 8) : (countAll s).part p = (s.part p).counted :=
  part_foldl_setPart Part.counted allParts_nodup s (mem_allParts hp)

/-- A tick notes what is idle, and then counts. -/
theorem tick_eq (s : State) : tick s = countAll { allParts.foldl noteIdle s with hub := (s.hub + 1) % 2 ^ 64 } := rfl

/-- Beside the partitions a tick writes the hub counter alone. -/
theorem tick_onlyParts (s : State) : OnlyParts { s with hub := (s.hub + 1) % 2 ^ 64 } (tick s) := by
  rw [tick_eq]
  exact ((OnlyParts.foldl noteIdle_onlyParts allParts s).setHub _).trans (countAll_onlyParts _)

/-- Each of the eight partitions is counted once after its note. -/
theorem tick_part (s : State) {p : Nat} (hp : p < 8) : (tick s).part p = ((allParts.foldl noteIdle s).part p).counted := by
  rw [tick_eq, countAll_part _ hp, State.part_setHub]

/-- The note leaves the counter. -/
theorem tick_part_count (s : State) {p : Nat} (hp : p < 8) : ((tick s).part p).count = ((s.part p).count + 1) % 2 ^ 64 := by
  have hcount := congrArg Part.count (noteIdle_foldl_part allParts s p)
  dsimp only at hcount
  rw [tick_part s hp, Part.counted, hcount]

/-- Beside its counter and its note nothing of a partition changes. -/
theorem tick_part_rest (s : State) {p : Nat} (hp : p < 8) :
    { (tick s).part p with count := (s.part p).count, idleAt := (s.part p).idleAt } = s.part p := by
  have hnote := congrArg (fun P : Part => { P with count := (s.part p).count }) (noteIdle_foldl_part allParts s p)
  rw [tick_part s hp, Part.counted]
  exact hnote

/-- Settles O1: a step takes the front command off the queue; on an empty queue it is one tick, which writes the hub counter, the eight
die counters and the notes of idleness (R641, R642; DESIGN CHOICE, log entry 1). -/
theorem stepRunsFrontCommand : Obligations.StepRunsFrontCommand := by
  unfold Obligations.StepRunsFrontCommand
  refine ⟨fun s c => rfl, fun s hempty => ⟨tick s, ?step, ?hub, fun p hp => ?count, fun p hp => ?part, ?frame⟩⟩
  case step => rw [step, hempty]
  case hub => exact (tick_onlyParts s).hub_eq
  case count => exact tick_part_count s hp
  case part => exact tick_part_rest s hp
  case frame => exact (tick_onlyParts s).of_setHub

end Sys2Proof.Machine
end

section
/-! PROOFS. Messages of the schedule, the regulators and grace windows (R613, R614, R619 to R622, R635, R646), of power (R948, R952, R965,
R976) and JOB_PATIENCE_SET (R1018): a message whose checks pass has only its setting left to store. -/

namespace Sys2Proof.Machine

/-! Power (R948, R965, R976). -/

section
variable {s u : State} {k : Fin 9} {r : Req}

/-- The PF alone may permit A4; a lowered tolerance wakes the module from it (R948, R952). -/
theorem execPowerLatencySet_of_accepted (h : Asked s k 0x0601 r u) (hres : NoBits r [0x7F000000])
    (hpf : bitOf (wd r.payload 0) 31 = true → (k : Nat) = 0) :
    let l := bitsOf (wd r.payload 0) 23 0
    let v := u.setFn k { u.fn k with latUs := l, allowA4 := bitOf (wd r.payload 0) 31 }
    execPowerLatencySet k s = .next (okReply (if u.power.a4 && l < (u.fn k).latUs then
      { v with power := { v.power with a4Waking := true } } else v) k r []) := by
  have hallowed : (bitOf (wd r.payload 0) 31 && k != 0) = false := by
    rw [Bool.and_eq_false_imp]
    exact fun hbit => bne_eq_false_iff_eq.2 (Fin.ext (hpf hbit))
  rw [execPowerLatencySet, runOp_asked h, next]
  exact congrArg _ (checked_go (firstBad_reserved _ hres <| firstBad_cons hallowed firstBad_nil))

theorem execPowerCapSet_of_accepted (h : Asked s k 0x0602 r u) (hres : NoBits r [0xFFFFFF00])
    (hcap : bitsOf (wd r.payload 0) 7 0 = 0 ∨ 40 ≤ bitsOf (wd r.payload 0) 7 0 ∧ bitsOf (wd r.payload 0) 7 0 ≤ 160) :
    execPowerCapSet k s = .next (okReply { u with power := { u.power with
      capSteps := if bitsOf (wd r.payload 0) 7 0 = 0 then 160 else bitsOf (wd r.payload 0) 7 0 } } k r []) := by
  have hrange : (bitsOf (wd r.payload 0) 7 0 != 0 &&
      (decide (bitsOf (wd r.payload 0) 7 0 < 40) || decide (160 < bitsOf (wd r.payload 0) 7 0))) = false := by
    simp only [Bool.and_eq_false_imp, bne_iff_ne, Bool.or_eq_false_iff, decide_eq_false_iff_not]
    omega
  rw [execPowerCapSet, runOp_asked h, next]
  exact congrArg _ (checked_go (firstBad_reserved _ hres <| firstBad_cons hrange firstBad_nil))

theorem execSlewFloorSet_of_accepted (h : Asked s k 0x0603 r u) (hres : NoBits r [0xFFFFFF80])
    (hfloor : bitsOf (wd r.payload 0) 6 0 ≤ 70) :
    execSlewFloorSet k s = .next (okReply { u with power := { u.power with floorPct := bitsOf (wd r.payload 0) 6 0 } } k r []) := by
  rw [execSlewFloorSet, runOp_asked h, next]
  exact congrArg _ (checked_go (firstBad_reserved _ hres <| firstBad_cons (by simpa using hfloor) firstBad_nil))

/-- POWER_QUERY has no check of its own (R976). -/
theorem execPowerQuery_of_asked (h : Asked s k 0x0604 r u) : execPowerQuery k s = .next (okReply u k r
    [pwrStatus u, pwrLimits u, pwrMeasure u % 2 ^ 32, pwrMeasure u / 2 ^ 32, pwrThermal u, pwrTolerance u, (u.fn k).latUs]) :=
  congrArg Host.Outcome.next (runOp_asked h _)

/-! Schedule, regulators and grace windows (R613, R614, R619 to R622, R635, R646). -/

variable {p n : Nat} {ws : List Nat}

/-- A table whose slots are good and whose frame is at most 1 s waits for the end of the frame in force (R619 to R622). -/
theorem execSchedTableSet_of_accepted (hp : bitsOf (wd r.payload 0) 18 16 = p) (hn : bitsOf (wd r.payload 0) 8 0 = n)
    (hws : (r.payload.drop 2).take n = ws) (h : Asked s k 0x0701 r u) (hres : NoBits r [0xFFF8FE00, 0xFFFFFFFF]) (hmost : n ≤ 256)
    (hgood : ∀ x ∈ ws, slotBad u p x = false) (hframe : frameUs (ws.map slotOf) ≤ 1000000) :
    execSchedTableSet k s = .next (okReply (u.setPart p { u.part p with schedNext := some (ws.map slotOf) }) k r []) := by
  subst hp hn hws
  rw [execSchedTableSet, runOp_asked h, next]
  exact congrArg _ (checked_go (firstBad_reserved _ hres <| firstBad_cons (by simpa using hmost) <|
    firstBad_cons (by simpa using hgood) <| firstBad_cons (by simpa using hframe) firstBad_nil))

/-- Good settings of different resources wait for the next command boundary, which is now where the partition is idle (R613 to R615). -/
theorem execRegulatorSet_of_accepted (hp : bitsOf (wd r.payload 0) 18 16 = p) (hn : bitsOf (wd r.payload 0) 3 0 = n)
    (hws : (r.payload.drop 1).take n = ws) (h : Asked s k 0x0702 r u) (hres : NoBits r (0xFFF8FFF0 :: ws.map fun _ => 0x00FE0080))
    (hleast : 1 ≤ n) (hmost : n ≤ 11) (hgood : ∀ x ∈ ws, regBad x = false) (hdistinct : (ws.map fun x => (regEntry x).1).Nodup) :
    execRegulatorSet k s = .next (okReply (boundaryIfIdle (ws.foldl (fun v x =>
      v.setReg p (regEntry x).1 { (v.part p).reg (regEntry x).1 with next := some (regEntry x).2 }) u) p) k r []) := by
  subst hp hn hws
  have hentries : (bitsOf (wd r.payload 0) 3 0 == 0 || decide (11 < bitsOf (wd r.payload 0) 3 0)) = false := by
    simp only [Bool.or_eq_false_iff, beq_eq_false_iff_ne, decide_eq_false_iff_not]
    omega
  rw [execRegulatorSet, runOp_asked h, next]
  exact congrArg _ (checked_go (firstBad_reserved _ hres <| firstBad_cons hentries <|
    firstBad_cons (by simpa using hgood) <| firstBad_cons (by simpa using hdistinct) firstBad_nil))

/-- A grace window of at most 10 ms waits for the next boundary (R635). -/
theorem execPreemptGraceSet_of_accepted (hp : bitsOf (wd r.payload 0) 18 16 = p) (h : Asked s k 0x0703 r u)
    (hres : NoBits r [0xFFF8FFFF]) (hgrace : wd r.payload 1 ≤ 10000) :
    execPreemptGraceSet k s =
      .next (okReply (u.setPart p { u.part p with graceNext := some (wd r.payload 1) }) k r []) := by
  subst hp
  rw [execPreemptGraceSet, runOp_asked h, next]
  exact congrArg _ (checked_go (firstBad_reserved _ hres <| firstBad_cons (by simpa using hgrace) firstBad_nil))

/-- The owner of a partition is told its schedule (R646). -/
theorem execSchedQuery_of_owner (hp : bitsOf (wd r.payload 0) 18 16 = p) (h : Asked s k 0x0704 r u) (howner : u.ownerOf p = k)
    (hres : NoBits r [0xFFF8FFFF]) : execSchedQuery k s = .next (okReply u k r
      [((u.part p).sched.getD []).length + 65536 * (u.part p).slot, (u.part p).graceUs, frameUs ((u.part p).sched.getD []), 0,
        (u.part p).frames % 2 ^ 32, (u.part p).frames / 2 ^ 32 % 2 ^ 32]) := by
  subst hp
  rw [execSchedQuery, runOp_asked h, next]
  exact congrArg _ (checked_go (firstBad_cons (by simpa using howner) <| firstBad_reserved _ hres firstBad_nil))

/-- A context joins a job with a patience of at most 10 min (R1018). -/
theorem execJobPatienceSet_of_accepted (h : Asked s k 0x0805 r u) (hpatience : wd r.payload 1 ≤ 600000) :
    execJobPatienceSet k s = .next (okReply (u.setCtx r.ctx { u.ctx r.ctx with
      job := wd r.payload 0, patienceMs := wd r.payload 1 }) k r []) := by
  rw [execJobPatienceSet, runOp_asked h, next]
  exact congrArg _ (checked_go (firstBad_cons (by simpa using hpatience) firstBad_nil))

end

/-- Settles O42: each setting within its range passes the checks of its message, which then stores it; the queries have their owner or no
check at all (R613, R614, R619 to R621, R635, R646, R948, R965, R976, R1018). -/
theorem powerAndScheduleSettings : Obligations.PowerAndScheduleSettings := by
  unfold Obligations.PowerAndScheduleSettings
  exact fun s u k r => ⟨execPowerLatencySet_of_accepted, execPowerCapSet_of_accepted, execSlewFloorSet_of_accepted,
    execPowerQuery_of_asked, execSchedTableSet_of_accepted rfl rfl rfl, execRegulatorSet_of_accepted rfl rfl rfl,
    execPreemptGraceSet_of_accepted rfl, execSchedQuery_of_owner rfl, execJobPatienceSet_of_accepted⟩

end Sys2Proof.Machine
end

section
/-! PROOFS. Device memory (R651 to R664): a message whose checks pass has only its effect left, and the end of a MEM_FREE waits for what
still holds the frames. -/

namespace Sys2Proof.Machine

section
variable {s u v : State} {k : Fin 9} {r : Req} {n dva size p hdl : Nat} {b : Alloc}

/-! Allocations (R651, R660, R661, R664). -/

/-- The units of a MEM_ALLOC are in range. -/
theorem allocUnits_inRange (hlo : 1 ≤ n) (hhi : n ≤ 1048576) : (n == 0 || decide (1048576 < n)) = false := by
  simp only [Bool.or_eq_false_iff, beq_eq_false_iff_ne, decide_eq_false_iff_not]
  omega

/-- A MEM_ALLOC that finds its pages and a number takes the pages for the context (R661). -/
theorem execMemAlloc_of_accepted {big : Bool} {pages : List Nat} (hp : bitsOf (wd r.payload 0) 18 16 = p)
    (hn : bitsOf (wd r.payload 1) 20 0 = n) (hbig : bitOf (wd r.payload 0) 8 = big)
    (hpages : pickPages (u.part p).hbm.used (Config.freeNat u.free) big (bitsOf (wd r.payload 0) 5 4) n = pages)
    (h : Asked s k 0x0201 r u) (hpart : PartOk u k r p) (hres : NoBits r [0xFFF8FECF, 0xFFE00000]) (hlo : 1 ≤ n) (hhi : n ≤ 1048576)
    (hroom : n ≤ pages.length)
    (hid : freshId { u with free := u.free + 1 } (fun h => (tabFind (u.ctx r.ctx).allocs h).isSome) 1 4294967295
      (u.ctx r.ctx).allocs.length = some (hdl, v)) :
    execMemAlloc k s = .next (okReply ((v.setPart p { u.part p with
      hbm := { (u.part p).hbm with used := setInsAll (u.part p).hbm.used (pages.flatMap (pageUnits big)) } }).setCtx r.ctx
        { u.ctx r.ctx with allocs := tabSet (u.ctx r.ctx).allocs hdl { part := p, big, pages } }) k r [hdl]) := by
  subst hp hn hbig hpages
  rw [execMemAlloc, runOp_asked h, next]
  refine congrArg _ ((checked_go ?checks).trans ((if_neg (Nat.not_lt.2 hroom)).trans ?taken))
  case checks =>
    exact firstBad_append (firstBad_part hpart) <| firstBad_reserved _ hres <|
      firstBad_cons (allocUnits_inRange hlo hhi) firstBad_nil
  case taken =>
    have hid' : freshId u.takeFree.2 (fun h => (tabFind (u.takeFree.2.ctx r.ctx).allocs h).isSome) 1 4294967295
      (u.takeFree.2.ctx r.ctx).allocs.length = some (hdl, v) := hid
    simp only [hid']
    rfl

/-- A MEM_FREE of an allocation that no mapping names begins as a long operation, which marks it (R664). -/
theorem execMemFree_of_unmapped (h : Asked s k 0x0202 r u) (hfind : tabFind (u.ctx r.ctx).allocs (wd r.payload 0) = some b)
    (hkept : beingFreed u b = false) (hunmapped : ∀ m ∈ liveMaps (u.ctx r.ctx), m.handle ≠ wd r.payload 0) :
    execMemFree k s = .next ((longOp u k r [b.part] 0 0).setCtx r.ctx { u.ctx r.ctx with
      allocs := tabSet (u.ctx r.ctx).allocs (wd r.payload 0) { b with freeing := some u.nextOp } }) := by
  rw [execMemFree, runOp_asked h, next]
  simp only [hfind]
  exact congrArg _ (checked_go (firstBad_cons hkept <| firstBad_cons (by simpa using hunmapped) firstBad_nil))

/-- Frames that nothing holds any more are zeroed and returned, and their MEM_FREE is answered (R660, R664). -/
theorem execMemFreeZeroDone_of_released {c : Fin 64} {o : Nat} (hfind : tabFind (s.ctx c).allocs hdl = some b)
    (ho : b.freeing = some o) (hfreed : beingFreed s b = true) (hheld : stillHeld s c hdl = false) (hreset : (s.part b.part).reset = none) :
    let v := zeroUnits s b.part (b.pages.flatMap (pageUnits b.big))
    execMemFreeZeroDone c hdl s =
      .next (endOp (v.setCtx c { v.ctx c with allocs := tabDel (v.ctx c).allocs hdl }) o 0 []) := by
  simp [execMemFreeZeroDone, next, hfind, ho, hfreed, hheld, hreset]

/-! Mappings (R659, R662, R663). -/

/-- A MEM_MAP of pages of an allocation at a free, aligned range adds its mapping (R659, R662). -/
theorem execMemMap_of_accepted (hn : bitsOf (wd r.payload 2) 20 0 = n) (hdva : wd64 r.payload 4 % 2 ^ 48 = dva)
    (hsize : (if b.big then 2097152 else 65536) = size) (h : Asked s k 0x0203 r u)
    (hres : NoBits r [0, 0x7FE00000, 0xFFE00000, 0xFFFFFFFF, 0, 0xFFFF0000])
    (hfind : tabFind (u.ctx r.ctx).allocs (wd r.payload 0) = some b) (hkept : beingFreed u b = false) (hlo : 1 ≤ n)
    (halign : dva % size = 0) (hend : dva + n * size ≤ 2 ^ 48) (hfree : meetsMap (u.ctx r.ctx) dva (n * size) = false)
    (hpages : bitsOf (wd r.payload 1) 20 0 + n ≤ b.pages.length) :
    execMemMap k s = .next (okReply (remap u r.ctx fun v l => l ++
      [{ dva, units := ((b.pages.drop (bitsOf (wd r.payload 1) 20 0)).take n).flatMap (pageUnits b.big), big := b.big,
         writable := bitOf (wd r.payload 1) 31, part := b.part, handle := wd r.payload 0, born := v }]) k r []) := by
  subst hn hdva hsize
  have hspan := Bool.or_eq_false_iff.2 ⟨decide_eq_false (Nat.not_lt.2 hend), hfree⟩
  rw [execMemMap, runOp_asked h, next]
  simp only [hfind]
  exact congrArg _ (checked_go (firstBad_reserved _ hres <| firstBad_cons hkept <|
    firstBad_cons (beq_eq_false_iff_ne.2 (Nat.ne_of_gt hlo)) <| firstBad_cons (by simpa using halign) <|
    firstBad_cons hspan <| firstBad_cons (by simpa using hpages) firstBad_nil))

/-- The n bytes at address dva can leave mapping m: they cut 2 MiB pages at their boundaries alone (R663). -/
def CutsWholePages (dva n : Nat) (m : Mapping) : Prop :=
  m.big = true → overlap dva n m.dva (65536 * m.units.length) = true →
    (m.dva < dva → dva % 2097152 = 0) ∧ (dva + n < m.dva + 65536 * m.units.length → (dva + n) % 2097152 = 0)

/-- The model's test for mappings that the bytes would cut inside a page finds none. -/
theorem cutsInside_eq_false {l : List Mapping} (h : ∀ m ∈ l, CutsWholePages dva n m) :
    (l.any fun m => m.big && overlap dva n m.dva (65536 * m.units.length) &&
      ((decide (m.dva < dva) && dva % 2097152 != 0) ||
        (decide (dva + n < m.dva + 65536 * m.units.length) && (dva + n) % 2097152 != 0))) = false := by
  simpa only [CutsWholePages, List.any_eq_false, Bool.and_eq_true, Bool.or_eq_true, decide_eq_true_eq, bne_iff_ne, not_and, not_or, not_not,
    and_imp] using h

/-- The mappings of allocations that a context has in force. -/
def mappedAllocs (x : Ctx) : List Mapping := (liveMaps x).filter fun m => m.handle != 0

/-- A MEM_UNMAP of an aligned range that is mapped throughout cuts it out of every mapping (R659, R663). -/
theorem execMemUnmap_of_accepted (hn : 65536 * bitsOf (wd r.payload 0) 20 0 = n) (hdva : wd64 r.payload 2 % 2 ^ 48 = dva)
    (h : Asked s k 0x0204 r u) (hres : NoBits r [0xFFE00000, 0xFFFFFFFF, 0, 0xFFFF0000]) (halign : dva % 65536 = 0) (hlo : 0 < n)
    (hend : dva + n ≤ 2 ^ 48)
    (hmapped : ∀ i, i < n / 65536 → ∃ m ∈ mappedAllocs (u.ctx r.ctx), m.covers (u.ctx r.ctx).mapVer (dva + 65536 * i) = true)
    (hwhole : ∀ m ∈ mappedAllocs (u.ctx r.ctx), CutsWholePages dva n m) :
    execMemUnmap k s = .next (okReply (remap u r.ctx fun v l => l.flatMap (cutMap dva n v)) k r []) := by
  subst hn hdva
  rw [execMemUnmap, runOp_asked h, next]
  refine congrArg _ (checked_go (firstBad_reserved _ hres <| firstBad_cons (by simpa using halign) <|
    firstBad_cons (beq_eq_false_iff_ne.2 (Nat.ne_of_gt hlo)) <| firstBad_cons (by simpa using hend) <| firstBad_cons ?units <|
    firstBad_cons (cutsInside_eq_false hwhole) firstBad_nil))
  case units =>
    rw [Bool.not_eq_false', List.all_eq_true]
    exact fun i hi => List.any_eq_true.2 (hmapped i (List.mem_range.1 hi))

end

/-- Settles O34: a message of device memory that passes its checks has only its effect left, and MEM_FREE_ZERO_DONE passes its own once
nothing holds the frames (R651 to R664). -/
theorem deviceMemoryIsManaged : Obligations.DeviceMemoryIsManaged := by
  unfold Obligations.DeviceMemoryIsManaged
  exact fun s u k r => ⟨fun hdl v => execMemAlloc_of_accepted rfl rfl rfl rfl, fun b => execMemMap_of_accepted rfl rfl rfl,
    execMemUnmap_of_accepted rfl rfl, fun b => execMemFree_of_unmapped, fun c hdl o a => execMemFreeZeroDone_of_released⟩

end Sys2Proof.Machine
end

section
/-! PROOFS. Upkeep of the memory (R675 to R678, R946) and the watchdogs (R52 to R54, R981 to R985, R1007): a check whose time has come has
only its effect left. -/

namespace Sys2Proof.Machine

section
variable {s : State} {p : Fin 8} {t : Fin 16}

/-! The memory of a partition (R675, R677, R946). -/

/-- The scrub of a partition in service reads its next line; one of context 0's frames that it cannot correct is Partition-fatal (R674,
R677, R678). -/
theorem execPatrolScrubRead_of_serving (hserves : (s.part p).inService = true) (hreset : (s.part p).reset = none)
    (hawake : (s.part p).hbm.selfRefresh = false) :
    let h := (s.part p).hbm
    let line := scrubLine h.scrub
    let v := (readLine (s.setPart p { s.part p with hbm := { h with scrub := (h.scrub + 1) % stackLines } }) p line scrubUnit).2
    execPatrolScrubRead p s = .next (if line ∈ h.ue ∧ systemLine ≤ line ∧ line < dpaLines then
      raise v { code := 0x42A7, part := some p, data := hbmData p line scrubUnit } else v) := by
  simp [execPatrolScrubRead, next, hserves, hreset, hawake, and_assoc]

/-- A parity error before the fifth in a row is counted (R675). -/
theorem execHbmCaParityError_of_few {c : Fin 96} (hrails : s.pins.rails = true) (hfew : tabGet 0 (s.part p).hbm.ca c + 1 < 5) :
    execHbmCaParityError p c s = .next (s.setPart p { s.part p with
      hbm := { (s.part p).hbm with ca := tabSet (s.part p).hbm.ca c (tabGet 0 (s.part p).hbm.ca c + 1) } }) := by
  simp only [execHbmCaParityError, next, hrails, if_pos hfew]
  rfl

/-- The fifth is Partition-fatal, at the bank and row that free choice names (R675, R702). -/
theorem execHbmCaParityError_of_fifth {c : Fin 96} (hrails : s.pins.rails = true) (hmany : 4 ≤ tabGet 0 (s.part p).hbm.ca c) :
    execHbmCaParityError p c s = .next (raise (State.setPart { s with free := s.free + 1 } p { s.part p with
      hbm := { (s.part p).hbm with ca := tabDel (s.part p).hbm.ca c } })
        { code := 0x42A8, part := some p
          data := [3 * p + c / 32, c % 32, Config.freeNat s.free / 2 ^ 20 % 64, Config.freeNat s.free % 2 ^ 18] }) := by
  simp only [execHbmCaParityError, next, hrails, if_neg (Nat.not_lt.2 (Nat.succ_le_succ hmany))]
  rfl

/-- Stacks woken in A3 return to self-refresh 100 µs after their last access (R946). -/
theorem execHbmSelfRefreshReturn_of_due {w : Nat} (hwoken : (s.part p).hbm.wokenAt = some w) (hact : (s.part p).act = 3)
    (hdue : w + us 100 ≤ (s.part p).count) : execHbmSelfRefreshReturn p s =
      .next (s.setPart p { s.part p with hbm := { (s.part p).hbm with selfRefresh := true, wokenAt := none } }) := by
  simp [execHbmSelfRefreshReturn, next, hwoken, hact, hdue]

/-! The tiles and the cores of a partition (R52, R53, R981 to R984). -/

/-- A kernel without progress for 10 ms is killed (R983). -/
theorem execTileHang_of_stuck {r : Run} (hrun : (s.tile p t).run = some r) (hended : r.ended = false)
    (hthawed : (s.part p).frozen = false) (hdue : r.progress + us 10000 ≤ (s.part p).count) :
    execTileHang p t s = .next (killNode s p r.inst 0x3311 [p, t, 0x3311]) := by
  simp [execTileHang, next, hrun, hended, hthawed, hdue]

/-- A heartbeat still for 2 ms is Partition-fatal (R981, R982). -/
theorem execCpHeartbeatCheck_of_still (hrunning : s.running = true) (hserves : (s.part p).inService = true) (hact : (s.part p).act ≠ 3)
    (hdue : (s.part p).beatAt + us 2000 ≤ (s.part p).count) : execCpHeartbeatCheck p s =
      .next (raise s { code := 0x4310, part := some p, data := [p, p, 0x4310] }) := by
  simp [execCpHeartbeatCheck, next, hrunning, hserves, hact, hdue]

/-- A tile that has not stopped 2 µs after its kill is Partition-fatal (R984). -/
theorem execTileStopFail_of_late {a : Nat} (hrunning : s.running = true) (hkilled : (s.tile p t).killedAt = some a)
    (hdue : a + us 2 ≤ (s.part p).count) :
    execTileStopFail p t s = .next (raise s { code := 0x4312, part := some p, data := [p, t, 0x4312] }) := by
  simp [execTileStopFail, next, hrunning, hkilled, hdue]

/-- A DCP without service for 100 ms has its partition reset (R52, R53). -/
theorem execDcpWatchdog_of_late (hrunning : s.running = true) (hdue : (s.part p).dcpAt + watchLimit ≤ (s.part p).count)
    (hup : dcpInReset s p = false) : execDcpWatchdog p s = .next
      (startReset (logEvent s { code := 0x4313, part := some p, data := [p, p, 0x4313] }) p 0x4313 false true false true []) := by
  simp [execDcpWatchdog, next, hrunning, hup, hdue]

/-! The cores of the hub (R52, R54, R985, R1007). -/

/-- A module that gives no more replies: it has stopped with FAULT_N asserted, no event waits for a function and no partition is in a
reset (R1007, R1008). -/
structure Silenced (v : State) : Prop where
  stopped : v.stopped = true
  mcpReady : v.mcpReady = false
  faultN : v.faultN = false
  events : ∀ e ∈ v.fns, e.2.events = []
  resets : ∀ e ∈ v.parts, e.2.reset = none

/-- The stop that ends a Module-fatal condition which the MCP itself has (R1007, R1008). -/
def silence (s : State) : State :=
  { s with faultN := false, mcpReady := false, stopped := true, parts := tabMap s.parts fun _ P => { P with reset := none },
           fns := tabMap s.fns fun _ f => { f with events := [] } }

theorem silenced_silence (s : State) : Silenced (silence s) where
  stopped := rfl
  mcpReady := rfl
  faultN := rfl
  events := List.forall_mem_map.2 fun _ _ => rfl
  resets := List.forall_mem_map.2 fun _ _ => rfl

/-- An MCP without service for 100 ms leaves the module silenced (R52, R54, R1007, R1008). -/
theorem execMcpWatchdog_of_late (hrunning : s.running = true) (hdue : s.mcpAt + watchLimit ≤ s.hub) :
    ∃ v, execMcpWatchdog s = .next (silence v) := by
  have hlate : (!s.running || decide (s.hub < s.mcpAt + watchLimit)) = false := by simp [hrunning, hdue]
  exact ⟨_, congrArg Host.Outcome.next (if_neg (by rw [hlate]; decide))⟩

/-- A hub core without service for 100 ms is Module-fatal (R985). -/
theorem execHubCoreFail_of_late (c : Nat) (hrunning : s.running = true) (hdue : s.mcpAt + watchLimit ≤ s.hub) :
    execHubCoreFail c s = .next (raise s { code := 0x5315, data := [0, c, 0x5315] }) := by
  simp [execHubCoreFail, next, hrunning, hdue]

end

/-- Settles O50: each check whose time has come has only its effect left, and what the MCP's watchdog leaves is silenced (R52 to R54, R675 to
R678, R946, R981 to R985, R1007). -/
theorem watchdogsAndUpkeepAct : Obligations.WatchdogsAndUpkeepAct := by
  unfold Obligations.WatchdogsAndUpkeepAct
  refine fun s p t => ⟨execPatrolScrubRead_of_serving, fun c hrails => ⟨execHbmCaParityError_of_few hrails, fun hmany =>
      ⟨_, _, execHbmCaParityError_of_fifth hrails hmany⟩⟩, fun w => execHbmSelfRefreshReturn_of_due, fun r => execTileHang_of_stuck,
    fun hrunning => ⟨execCpHeartbeatCheck_of_still hrunning, fun a => execTileStopFail_of_late hrunning,
      execDcpWatchdog_of_late hrunning, fun hdue => ?mcp, fun c => execHubCoreFail_of_late c hrunning⟩⟩
  case mcp =>
    obtain ⟨v, hv⟩ := execMcpWatchdog_of_late hrunning hdue
    obtain ⟨hstopped, hready, hfault, hevents, hresets⟩ := silenced_silence v
    exact ⟨silence v, hv, hstopped, hready, hfault, hevents, hresets⟩

end Sys2Proof.Machine
end

section
/-! PROOFS. What every function of the model keeps: the queue of waiting commands, the debug mark and the canonical memories. -/

namespace Sys2Proof.Machine

/-- What a step from σ keeps, told of the six parts of a state that it speaks of. -/
def KeptParts (σ : State) (q : List Instr) (lvl : Nat) (ever : Bool) (ps : Tab Part) (ts : Tab Tile) (fs : Tab Fn) :
    Prop :=
  q = σ.pending ∧ (DebugMarked σ → lvl ≤ 2 ∧ (lvl ≠ 0 → ever = true)) ∧
  (MemoryCanonical σ → (∀ e ∈ ps, e.2.hbm.mem.wf = true) ∧ (∀ e ∈ ts, e.2.memOk = true) ∧ ∀ e ∈ fs, e.2.memOk = true)

/-- State t has the queue of σ, and it is marked and canonical where σ is. -/
def Kept (σ t : State) : Prop := KeptParts σ t.pending t.dbgLevel t.sec.ever t.parts t.tiles t.fns

theorem kept_iff {σ t : State} : Kept σ t ↔ KeptParts σ t.pending t.dbgLevel t.sec.ever t.parts t.tiles t.fns := Iff.rfl
theorem Kept.parts {σ t : State} (h : Kept σ t) : KeptParts σ t.pending t.dbgLevel t.sec.ever t.parts t.tiles t.fns := h
theorem Kept.of_parts {σ t : State} (h : KeptParts σ t.pending t.dbgLevel t.sec.ever t.parts t.tiles t.fns) : Kept σ t := h
theorem Kept.refl (s : State) : Kept s s := ⟨rfl, id, id⟩

/-- Where an outcome goes on, it goes on to a kept state. -/
def GoesKept (σ : State) (o : Host.Outcome State Fault Refusal) : Prop := ∀ t, o = .next t → Kept σ t
theorem goesKept_next {σ t : State} : GoesKept σ (next t) ↔ Kept σ t :=
  ⟨fun h => h t rfl, fun h t e => by cases e; exact h⟩
theorem goesKept_next' {σ t : State} : GoesKept σ (.next t) ↔ Kept σ t := goesKept_next
theorem goesKept_fault {σ : State} {f} : GoesKept σ (.fault f) := by
  intro t h
  cases h

section
variable {σ s t : State}

theorem Kept.step (h : Kept σ s) (hq : t.pending = s.pending) (hd : DebugMarked s → DebugMarked t)
  (hm : MemoryCanonical s → MemoryCanonical t) : Kept σ t := by
  obtain ⟨h1, h2, h3⟩ := h
  exact ⟨hq.trans h1, fun x => hd (h2 x), fun x => hm (h3 x)⟩
theorem Kept.ite {c : Prop} [Decidable c] (hs : Kept σ s) (ht : Kept σ t) : Kept σ (if c then s else t) := by
  split
  exacts [hs, ht]
theorem setTile_kept (h : Kept σ s) {p t : Nat} {x : Tile} (hx : (s.tile p t).memOk = true → x.memOk = true) :
    Kept σ (s.setTile p t x) :=
  h.step rfl id fun m => m.setTile p t (hx (m.tile p t))
theorem setPart_kept (h : Kept σ s) {p : Nat} {x : Part} (hx : (s.part p).hbm.mem.wf = true → x.hbm.mem.wf = true) :
    Kept σ (s.setPart p x) :=
  h.step rfl id fun m => m.setPart p (hx (m.part p))
theorem setFn_kept (h : Kept σ s) {p : Nat} {x : Fn} (hx : (s.fn p).memOk = true → x.memOk = true) : Kept σ (s.setFn p x) :=
  h.step rfl id fun m => m.setFn p (hx (m.fn p))
theorem setCtx_kept (h : Kept σ s) {c x} : Kept σ (s.setCtx c x) := h.step rfl id id
theorem setCp_kept (h : Kept σ s) {c p x} : Kept σ (s.setCp c p x) := h.step rfl id id
theorem setPort_kept (h : Kept σ s) {c x} : Kept σ (s.setPort c x) := h.step rfl id id
theorem setLp_kept (h : Kept σ s) {c p x} : Kept σ (s.setLp c p x) := h.step rfl id id
theorem post_kept (h : Kept σ s) {c a x r} : Kept σ (s.post c a x r) := h.step rfl id id
theorem takeFree_kept (h : Kept σ s) : Kept σ s.takeFree.2 := h.step rfl id id
theorem setInst_kept (h : Kept σ s) {p n x} : Kept σ (s.setInst p n x) := setPart_kept h id
theorem modInst_kept (h : Kept σ s) {p n f} : Kept σ (s.modInst p n f) := by
  unfold State.modInst
  split
  · exact setInst_kept h
  · exact h
theorem logEvent_kept (h : Kept σ s) {e} : Kept σ (logEvent s e) := by
  refine h.step (by simp) ?_ (logEvent_canonical · e)
  simp [DebugMarked]

theorem foldl_kept {α : Type} {f : State → α → State} (h : Kept σ s) (l : List α) (hf : ∀ s a, Kept σ s → Kept σ (f s a)) :
    Kept σ (l.foldl f s) := by
  induction l generalizing s with
  | nil => exact h
  | cons a l ih => exact ih (hf s a h)
theorem foldl_fst_kept {α β : Type} {f : State × β → α → State × β} {x : State × β} (h : Kept σ x.1) (l : List α)
    (hf : ∀ s a, Kept σ s.1 → Kept σ (f s a).1) : Kept σ (l.foldl f x).1 := by
  induction l generalizing x with
  | nil => exact h
  | cons a l ih => exact ih (hf x a h)
theorem foldl_snd_kept {α β : Type} {f : β × State → α → β × State} {x : β × State} (h : Kept σ x.2) (l : List α)
    (hf : ∀ s a, Kept σ s.2 → Kept σ (f s a).2) : Kept σ (l.foldl f x).2 := by
  induction l generalizing x with
  | nil => exact h
  | cons a l ih => exact ih (hf x a h)
theorem KeptParts.parts_tabMap {q d e ps ts fs} {f : Nat → Part → Part} (h : KeptParts σ q d e ps ts fs)
    (hf : ∀ p P, P.hbm.mem.wf = true → (f p P).hbm.mem.wf = true) :
    KeptParts σ q d e (tabMap ps f) ts fs := by
  obtain ⟨h1, h2, h3⟩ := h
  refine ⟨h1, h2, fun m => ⟨?_, (h3 m).2⟩⟩
  intro e he
  obtain ⟨x, hx, rfl⟩ := List.mem_map.mp he
  exact hf _ _ ((h3 m).1 x hx)
theorem KeptParts.tiles_tabMap {q d e ps ts fs} {f : Nat → Tile → Tile} (h : KeptParts σ q d e ps ts fs)
    (hf : ∀ p P, P.memOk = true → (f p P).memOk = true) :
    KeptParts σ q d e ps (tabMap ts f) fs := by
  obtain ⟨h1, h2, h3⟩ := h
  refine ⟨h1, h2, fun m => ⟨(h3 m).1, ?_, (h3 m).2.2⟩⟩
  intro e he
  obtain ⟨x, hx, rfl⟩ := List.mem_map.mp he
  exact hf _ _ ((h3 m).2.1 x hx)
theorem KeptParts.fns_tabMap {q d e ps ts fs} {f : Nat → Fn → Fn} (h : KeptParts σ q d e ps ts fs)
    (hf : ∀ p P, P.memOk = true → (f p P).memOk = true) :
    KeptParts σ q d e ps ts (tabMap fs f) := by
  obtain ⟨h1, h2, h3⟩ := h
  refine ⟨h1, h2, fun m => ⟨(h3 m).1, (h3 m).2.1, ?_⟩⟩
  intro e he
  obtain ⟨x, hx, rfl⟩ := List.mem_map.mp he
  exact hf _ _ ((h3 m).2.2 x hx)

theorem KeptParts.parts_tabMods {q d e ps ts fs} {f : Nat → Part → Part} (h : KeptParts σ q d e ps ts fs) (l : List Nat)
    (hf : ∀ p P, P.hbm.mem.wf = true → (f p P).hbm.mem.wf = true) :
    KeptParts σ q d e (l.foldl (fun t p => tabMod {} t p (f p)) ps) ts fs := by
  obtain ⟨h1, h2, h3⟩ := h
  refine ⟨h1, h2, fun m => ⟨?_, (h3 m).2⟩⟩
  refine List.foldlRecOn (motive := fun t : Tab Part => ∀ e ∈ t, e.2.hbm.mem.wf = true) _ _ (h3 m).1 fun t ht p _ e he => ?_
  rcases tabSet_mem he with rfl | he
  · exact hf _ _ (by
      unfold tabGet
      split
      exacts [ht _ (tabFind_mem ‹_›), rfl])
  · exact ht e he

/-- Whichever way an access ends, the state that it leaves is kept. -/
def EndsKept (σ : State) {ε α : Type} (r : Except (ε × State) (α × State)) : Prop :=
  (∀ e, r = .error e → Kept σ e.2) ∧ ∀ x, r = .ok x → Kept σ x.2

section
variable {ε α : Type} {r : Except (ε × State) (α × State)}

theorem EndsKept.ok (h : EndsKept σ r) {x : α} (e : r = .ok (x, t)) : Kept σ t := h.2 _ e
theorem EndsKept.error (h : EndsKept σ r) {x : ε} (e : r = .error (x, t)) : Kept σ t := h.1 _ e
theorem EndsKept.stop (h : EndsKept σ r) {x : ε × State} (e : r = .error x) : Kept σ x.2 := h.1 _ e
theorem EndsKept.of_ok {x : α × State} (h : Kept σ x.2) : EndsKept σ (.ok x : Except (ε × State) (α × State)) :=
  ⟨fun _ e => (by cases e), fun _ e => (by cases e; exact h)⟩
theorem EndsKept.of_error {x : ε × State} (h : Kept σ x.2) : EndsKept σ (.error x : Except (ε × State) (α × State)) :=
  ⟨fun _ e => (by cases e; exact h), fun _ e => (by cases e)⟩

end

/-- Another record of every partition, with its memory canonical where it was. -/
theorem Kept.mapParts (hs : Kept σ s) {f : Nat → Part → Part} (hf : ∀ p P, P.hbm.mem.wf = true → (f p P).hbm.mem.wf = true) :
    Kept σ { s with parts := tabMap s.parts f } := KeptParts.parts_tabMap hs hf
theorem Kept.mapFns (hs : Kept σ s) {f : Nat → Fn → Fn} (hf : ∀ p P, P.memOk = true → (f p P).memOk = true) :
    Kept σ { s with fns := tabMap s.fns f } := KeptParts.fns_tabMap hs hf

/-- The state that moving pages out of a context or into one has come to. -/
def KvOut.state : KvOut → State
  | .ok s _ => s
  | .stop s => s

/-! What the small writes of a tile leave of its memories. -/

theorem Spad.memOk_bytes {d : Spad} {m : Mem} (h : m.wf = true) : Spad.memOk { d with bytes := m } = true := h
theorem Tile.setS_memOk (x : Tile) (k v : Nat) : (x.setS k v).memOk = x.memOk := rfl
theorem Tile.setV_memOk (x : Tile) (k v : Nat) : (x.setV k v).memOk = x.memOk := rfl
theorem Tile.setM_memOk (x : Tile) (k v : Nat) : (x.setM k v).memOk = x.memOk := by
  unfold Tile.setM
  split <;> rfl
theorem Tile.touch_memOk (x : Tile) (now : Nat) : (x.touch now).memOk = x.memOk := by
  unfold Tile.touch
  split <;> rfl
theorem Tile.spad_memOk {x : Tile} (h : x.memOk = true) (k : Spc) : (x.spad k).memOk = true := by
  simp only [Tile.memOk, Bool.and_eq_true] at h
  obtain ⟨⟨hw, ha⟩, hp⟩ := h
  cases k <;> assumption
end

section
variable {σ s t : State}

/-! The functions of EventLog. -/

theorem notify_kept (hs : Kept σ s) (m : EvMsg) : Kept σ (notify s m) := by
  grind [notify, setFn_kept, Fn.memOk, kept_iff]
theorem writeFatal_kept (hs : Kept σ s) : Kept σ (writeFatal s) := by
  grind [writeFatal, kept_iff]
theorem traceRec_kept (hs : Kept σ s) (code p ctx seg idx iter : Nat) : Kept σ (traceRec s code p ctx seg idx iter) := by
  grind [traceRec, kept_iff]

/-! The functions of Access. -/

theorem damageGen_kept (hs : Kept σ s) (c b g : Nat) (chunk : Nat) : Kept σ (damageGen s c b g chunk) := by
  grind (gen := 20) [damageGen, setCtx_kept, logEvent_kept, kept_iff, KeptParts.parts_tabMap, State.setCtx]
theorem askPeer_kept (hs : Kept σ s) (c conn addr len : Nat) : Kept σ (askPeer s c conn addr len) := by
  grind [askPeer, kept_iff]
theorem askShard_kept (hs : Kept σ s) (c conn addr : Nat) (h : List Nat) (k : Nat) : Kept σ (askShard s c conn addr h k) := by
  grind [askShard, askPeer_kept]
theorem askRepair_kept (hs : Kept σ s) (p c : Nat) (w : WGen) (sb : Nat × Nat) : Kept σ (askRepair s p c w sb) := by
  grind [askRepair, askShard_kept, foldl_kept]
theorem poisonSb_kept (hs : Kept σ s) (p c b g : Nat) (w : WGen) (sb : Nat × Nat) : Kept σ (poisonSb s p c b g w sb) := by
  have h : ∀ poison, Kept σ (s.setPart p { s.part p with hbm := { (s.part p).hbm with poison } }) := fun _ => setPart_kept hs id
  grind [poisonSb, damageGen_kept, askRepair_kept, kept_iff]
theorem residentPoison_kept (hs : Kept σ s) (p line : Nat) : Kept σ (residentPoison s p line) := by
  grind [residentPoison, poisonSb_kept, foldl_kept, kept_iff]
theorem correctedLine_kept (hs : Kept σ s) (p line : Nat) : Kept σ (correctedLine s p line) := by
  grind [correctedLine, setPart_kept, logEvent_kept, kept_iff]
theorem wakeHbm_kept (hs : Kept σ s) (p line : Nat) : Kept σ (wakeHbm s p line) := by
  grind [wakeHbm, setPart_kept, kept_iff]
theorem readLine_kept (hs : Kept σ s) (p line unit : Nat) : Kept σ (readLine s p line unit).2 := by
  grind [readLine, wakeHbm_kept, setPart_kept, logEvent_kept, residentPoison_kept, correctedLine_kept, kept_iff]
theorem zeroUnits_kept (hs : Kept σ s) (p : Nat) (us_ : List Nat) : Kept σ (zeroUnits s p us_) :=
  hs.step rfl id (zeroUnits_canonical · p us_)
theorem readDva_kept (hs : Kept σ s) (frm c v a n unit : Nat) : EndsKept σ (readDva s frm c v a n unit) := by
  unfold readDva
  refine List.foldlRecOn (motive := EndsKept σ) _ _ (EndsKept.of_ok hs) fun r hr x _ => ?_
  rcases r with ⟨e, t⟩ | ⟨bs, t⟩
  · exact hr
  · have ht : Kept σ t := hr.ok rfl
    grind [readLine_kept, EndsKept.of_ok, EndsKept.of_error]
theorem writeLine_kept (hs : Kept σ s) (p d : Nat) (bs : List PByte) : Kept σ (writeLine s p d bs) := by
  unfold writeLine
  refine setPart_kept (s := if bs.length = 64 then wakeHbm s p (d / 64) else (readLine s p (d / 64) mergeUnit).2) ?_ fun h =>
    memWrite_wf h _ _
  split
  · exact wakeHbm_kept hs p _
  · exact readLine_kept hs p _ _
theorem writeDva_kept (hs : Kept σ s) {frm c v a : Nat} {bs : List PByte} (h : writeDva s frm c v a bs = .ok t) : Kept σ t := by
  unfold writeDva at h
  split at h
  · cases h
  · cases h
    refine foldl_kept hs _ fun s x hs => ?_
    split
    · exact hs
    · exact writeLine_kept hs _ _ _

/-! The functions of Nodes. -/

theorem setFence_kept (hs : Kept σ s) (c f w : Nat) : Kept σ (setFence s c f w) := by
  unfold setFence
  split
  · exact Kept.mapParts (setCp_kept hs) fun _ _ => id
  · exact hs
theorem putRecord_kept (hs : Kept σ s) (p n : Nat) (i : Inst) (st : RecSt) (fence time : Nat) :
    Kept σ (putRecord s p n i st fence time) := by
  grind [putRecord, setCp_kept, kept_iff]
theorem reply_kept (hs : Kept σ s) (k req seq opcode ctx status detail : Nat) (payload : List Nat) :
    Kept σ (reply s k req seq opcode ctx status detail payload) := by
  grind [reply, setFn_kept, Fn.memOk, kept_iff]
theorem endOp_kept (hs : Kept σ s) (n status : Nat) (payload : List Nat) : Kept σ (endOp s n status payload) := by
  grind [endOp, reply_kept, kept_iff]
theorem settleReleases_kept (hs : Kept σ s) (c : Nat) : Kept σ (settleReleases s c) := by
  grind [settleReleases, endOp_kept, foldl_kept]
theorem releaseRefs_kept (hs : Kept σ s) (p : Nat) (i : Inst) : Kept σ (releaseRefs s p i) := by
  grind [releaseRefs, settleReleases_kept, setCp_kept]
/-- Free bytes leave a scratchpad canonical. -/
theorem scrambleSpad_memOk {d : Spad} (h : d.memOk = true) (k : Nat) : (scrambleSpad d k).1.memOk = true := by
  unfold scrambleSpad
  exact List.foldlRecOn (motive := fun a : Spad × Nat => a.1.memOk = true) _ _ h fun a ha _ _ =>
    Spad.memOk_bytes (memWrite_wf (m := a.1.bytes) ha _ _)

theorem scrambleBytes_memOk {d : Spad} (h : d.memOk = true) (a n k : Nat) : (scrambleBytes d a n k).1.memOk = true := by
  unfold scrambleBytes
  exact List.foldlRecOn (motive := fun a : Spad × Nat => a.1.memOk = true) _ _ h fun a ha _ _ =>
    Spad.memOk_bytes (memWrite_wf (m := a.1.bytes) ha _ _)

/-- A stopped tile is canonical. -/
theorem stopTile_memOk {x : Tile} (h : x.memOk = true) (k now : Nat) : (stopTile x k now).1.memOk = true := by
  simp only [Tile.memOk, Bool.and_eq_true] at h
  obtain ⟨⟨hw, ha⟩, hp⟩ := h
  simp only [stopTile, Tile.memOk, Bool.and_eq_true]
  refine ⟨⟨scrambleSpad_memOk hw _, scrambleSpad_memOk ha _⟩, ?_⟩
  exact List.foldlRecOn (motive := fun a : Spad × Nat => a.1.memOk = true) _ _ (scrambleSpad_memOk hp _) fun a ha l _ =>
    scrambleBytes_memOk ha _ _ _

theorem stopTiles_kept (hs : Kept σ s) (p n : Nat) : Kept σ (stopTiles s p n) := by
  unfold stopTiles
  refine foldl_kept hs _ fun s t hs => ?_
  have h1 : ∀ k now, Kept σ (s.setTile p t (stopTile (s.tile p t) k now).1) := fun k now => setTile_kept hs (stopTile_memOk · k now)
  grind [modInst_kept, kept_iff]
theorem ownFence_kept (hs : Kept σ s) (i : Inst) (error : Bool) : Kept σ (ownFence s i error).1 := by
  grind [ownFence, setFence_kept]
theorem resolve1_kept (hs : Kept σ s) (p n : Nat) (st : NodeSt) (rs : RecSt) : Kept σ (resolve1 s p n st rs) := by
  grind [resolve1, ownFence_kept, releaseRefs_kept, setInst_kept, setPart_kept, putRecord_kept, kept_iff]
theorem settlePass_kept (hs : Kept σ s) (p : Nat) (g : List (Nat × Inst)) : Kept σ (settlePass s p g) := by
  grind [settlePass, resolve1_kept, setPart_kept, setInst_kept, foldl_kept, kept_iff]
theorem dropGroup_kept (hs : Kept σ s) (p : Nat) (i : Inst) : Kept σ (dropGroup s p i) := by
  grind [dropGroup, setPart_kept, kept_iff]
theorem settle_kept {k : Nat} (hs : Kept σ s) (p : Nat) (i : Inst) : Kept σ (settle k s p i) := by
  induction k generalizing s p i with
  | zero => exact hs
  | succ k ih =>
    have h1 : Kept σ (settlePass s p (s.group p i)) := settlePass_kept hs _ _
    unfold settle
    extract_lets s1 g bad x s2
    split
    · split
      · exact dropGroup_kept (setCp_kept h1) _ _
      · have h2 : Kept σ s2 := dropGroup_kept h1 _ _
        grind [resolve1_kept, setInst_kept]
    · exact h1
theorem resolveNode_kept (hs : Kept σ s) (p n : Nat) (st : NodeSt) (rs : RecSt) : Kept σ (resolveNode s p n st rs) := by
  unfold resolveNode
  split
  · exact hs
  · split
    · exact hs
    · exact settle_kept (resolve1_kept hs _ _ _ _) _ _
theorem noteEvent_kept (hs : Kept σ s) (p n code : Nat) : Kept σ (noteEvent s p n code) := by
  grind [noteEvent, modInst_kept, kept_iff]
theorem abandon_kept (hs : Kept σ s) (p n : Nat) (rs : RecSt) : Kept σ (abandon s p n rs) := by
  unfold abandon
  split
  · exact hs
  split
  · exact hs
  refine foldl_kept (resolveNode_kept (stopTiles_kept (foldl_kept hs _ fun s m hs => ?_) _ _) _ _ _ _) _ fun s m hs => ?_
  · grind [resolve1_kept, stopTiles_kept]
  · grind [settle_kept]
theorem nodeEvent_kept (hs : Kept σ s) (p n code : Nat) (data : List Nat) : Kept σ (nodeEvent s p n code data) := by
  grind [nodeEvent, noteEvent_kept, logEvent_kept, kept_iff]
theorem failNode_kept (hs : Kept σ s) (p n code : Nat) (data : List Nat) : Kept σ (failNode s p n code data) := by
  grind [failNode, abandon_kept, nodeEvent_kept]
theorem txPush_kept (hs : Kept σ s) (k n src : Nat) (q : Packet) : Kept σ (txPush s k n src q) := by
  grind [txPush, setLp_kept, kept_iff]
theorem floodAbort_kept (hs : Kept σ s) (q : Packet) (skip : Option Nat) : Kept σ (floodAbort s q skip) := by
  grind [floodAbort, txPush_kept, foldl_kept]
theorem abandonSet_kept (hs : Kept σ s) (p : Nat) (victims : List Nat) (rs : RecSt) (event : Nat) :
    Kept σ (abandonSet s p victims rs event) := by
  unfold abandonSet
  refine foldl_kept (foldl_kept hs _ fun s m hs => ?_) _ fun s m hs => ?_
  · grind [resolve1_kept, stopTiles_kept, noteEvent_kept]
  · grind [settle_kept]
theorem abandonAll_kept (hs : Kept σ s) (p c : Nat) (rs : RecSt) (event : Nat) : Kept σ (abandonAll s p c rs event).1 := by
  grind [abandonAll, abandonSet_kept]
theorem jobAbortLocal_kept (hs : Kept σ s) (job seq code : Nat) : Kept σ (jobAbortLocal s job seq code) := by
  grind [jobAbortLocal, abandonAll_kept, logEvent_kept, foldl_kept]
theorem sendJobAbort_kept (hs : Kept σ s) (job code : Nat) : Kept σ (sendJobAbort s job code) := by
  grind [sendJobAbort, floodAbort_kept, jobAbortLocal_kept, logEvent_kept, kept_iff]
theorem settleKeys_kept (hs : Kept σ s) (c : Nat) : Kept σ (settleKeys s c) := by
  grind [settleKeys, setCtx_kept, foldl_kept, kept_iff]
theorem stopLoad_kept (hs : Kept σ s) (n : Nat) : Kept σ (stopLoad s n) := by
  grind [stopLoad, settleKeys_kept, foldl_kept, kept_iff]
theorem cancelLoad_kept (hs : Kept σ s) (n : Nat) : Kept σ (cancelLoad s n) := by
  grind [cancelLoad, stopLoad_kept, zeroUnits_kept, setCtx_kept, foldl_kept, kept_iff]
theorem stopCodebook_kept (hs : Kept σ s) (c n : Nat) : Kept σ (stopCodebook s c n) := by
  grind [stopCodebook, setCtx_kept, kept_iff]
theorem stopRelease_kept (hs : Kept σ s) (c n : Nat) : Kept σ (stopRelease s c n) := by
  grind [stopRelease, setCtx_kept, kept_iff]
theorem stopPrepare_kept (hs : Kept σ s) (c n : Nat) : Kept σ (stopPrepare s c n) := by
  grind [stopPrepare, setCtx_kept, kept_iff]
theorem stopDrop_kept (hs : Kept σ s) (c n : Nat) : Kept σ (stopDrop s c n) := by
  grind [stopDrop, setCtx_kept, kept_iff]
theorem stopOp_kept (hs : Kept σ s) (n c opcode : Nat) (zero : Bool) : Kept σ (stopOp s n c opcode zero) := by
  grind [stopOp, cancelLoad_kept, stopLoad_kept, stopDrop_kept, stopCodebook_kept, stopRelease_kept, stopPrepare_kept, kept_iff]
theorem beginTeardown_kept (hs : Kept σ s) (c drainUs : Nat) (op : Option Nat) : Kept σ (beginTeardown s c drainUs op) := by
  grind [beginTeardown, setCtx_kept, endOp_kept, stopOp_kept, abandonAll_kept, setPart_kept, foldl_kept, foldl_fst_kept, kept_iff]
theorem releaseWaiters_kept (hs : Kept σ s) (p : Nat) (ws : List Nat) (status durUs : Nat) :
    Kept σ (releaseWaiters s p ws status durUs) := by
  grind [releaseWaiters, endOp_kept, foldl_kept, kept_iff]
theorem partOutOfService_kept (hs : Kept σ s) (p : Nat) (limit : Bool) : Kept σ (partOutOfService s p limit) := by
  unfold partOutOfService
  extract_lets P back dcpAt s1 ws cause s2
  have h1 : Kept σ s1 := setPart_kept hs id
  have h2 : Kept σ s2 := releaseWaiters_kept (by split; exacts [logEvent_kept h1, h1]) _ _ _ _
  exact foldl_kept h2 _ fun s c hs => beginTeardown_kept hs _ _ _
theorem linkIslandReset_kept (hs : Kept σ s) (p : Nat) : Kept σ (linkIslandReset s p) := by
  grind [linkIslandReset, setPart_kept, kept_iff]
theorem notifyReset_kept (hs : Kept σ s) (p cause : Nat) : Kept σ (notifyReset s p cause) := by
  grind [notifyReset, notify_kept, foldl_kept]
theorem longOpsReset_kept (hs : Kept σ s) (p : Nat) : Kept σ (longOpsReset s p) := by
  grind [longOpsReset, endOp_kept, stopOp_kept, foldl_kept]
theorem checkModuleLimit_kept (hs : Kept σ s) (cause : Nat) (sent : List Nat) : Kept σ (checkModuleLimit s cause sent) := by
  grind [checkModuleLimit, logEvent_kept, sendJobAbort_kept, partOutOfService_kept, foldl_kept, kept_iff]
theorem noFiller_kept (hs : Kept σ s) (p : Nat) : Kept σ (noFiller s p) := by
  grind [noFiller, setTile_kept, foldl_kept, Tile.memOk, kept_iff]
theorem startReset_kept (hs : Kept σ s) (p cause : Nat) (memPath counted dump dcp : Bool) (waiters : List Nat) :
    Kept σ (startReset s p cause memPath counted dump dcp waiters) := by
  unfold startReset
  extract_lets P log1 inWin toOos mask r s1 s2 s3 a s4 P4 s5 s6 jobs s7
  split
  · exact setPart_kept hs id
  · have h1 : Kept σ s1 := setPart_kept hs id
    have h3 : Kept σ s3 := notifyReset_kept (linkIslandReset_kept (noFiller_kept h1 p) p) _ _
    have h4 : Kept σ s4 := foldl_fst_kept h3 _ fun s c hs => abandonAll_kept hs _ _ _ _
    have h6 : Kept σ s6 := longOpsReset_kept (s := s5) (setPart_kept h4 id) _
    have h7 : Kept σ s7 := foldl_kept h6 _ fun s j hs => sendJobAbort_kept hs _ _
    split
    · exact checkModuleLimit_kept h7 _ _
    · exact h7
theorem moduleFatal_kept (hs : Kept σ s) (code : Nat) : Kept σ (moduleFatal s code) := by
  unfold moduleFatal
  extract_lets s0 cs jobs s1 s2 s3
  have h1 : Kept σ s1 := foldl_kept (s := s0) hs _ fun s j hs => sendJobAbort_kept hs _ _
  have h2 : Kept σ s2 := by
    refine foldl_kept h1 _ fun s p hs => ?_
    have h : Kept σ (s.setPart p { s.part p with dispHeld := true, reset := none }) := setPart_kept hs id
    exact foldl_kept h _ fun s c hs => abandonAll_kept hs _ _ _ _
  have h3 : Kept σ s3 := checkModuleLimit_kept h2 _ _
  clear_value s3
  exact KeptParts.fns_tabMap h3 (f := fun _ f => { f with events := [] }) fun _ _ h => h
theorem raise_kept (hs : Kept σ s) (e : Ev) : Kept σ (raise s e) := by
  grind [raise, logEvent_kept, startReset_kept, moduleFatal_kept, kept_iff]
theorem forgetRequests_kept (hs : Kept σ s) (p n : Nat) : Kept σ (forgetRequests s p n) := by
  grind [forgetRequests, kept_iff]
theorem requeue_kept (hs : Kept σ s) (p n : Nat) (i : Inst) (reruns preempts : Nat) : Kept σ (requeue s p n i reruns preempts) := by
  grind [requeue, stopTiles_kept, forgetRequests_kept, setPart_kept, setInst_kept, kept_iff]
theorem killNode_kept (hs : Kept σ s) (p n code : Nat) (data : List Nat) : Kept σ (killNode s p n code data) := by
  grind [killNode, nodeEvent_kept, abandon_kept, raise_kept, requeue_kept, kept_iff]
theorem nodeEventOnce_kept (hs : Kept σ s) (p n code : Nat) (data : List Nat) : Kept σ (nodeEventOnce s p n code data) := by
  grind [nodeEventOnce, nodeEvent_kept, modInst_kept, kept_iff]
theorem nodeEventCounted_kept (hs : Kept σ s) (p n code : Nat) (data : List Nat) : Kept σ (nodeEventCounted s p n code data) := by
  grind [nodeEventCounted, nodeEventOnce_kept, kept_iff]
theorem accKill_kept (hs : Kept σ s) (p n : Nat) (e : AccErr) : Kept σ (accKill s p n e) := by
  cases e <;> exact failNode_kept hs _ _ _ _
theorem forbidRerun_kept (hs : Kept σ s) (p n : Nat) : Kept σ (forbidRerun s p n) := by
  grind [forbidRerun, modInst_kept, kept_iff]

/-! The functions of Regulate. -/

theorem setReg_kept (hs : Kept σ s) (p k : Nat) (r : Regulator) : Kept σ (State.setReg s p k r) := by
  grind [State.setReg, setPart_kept, kept_iff]
theorem charge_kept (hs : Kept σ s) (p k n : Nat) : Kept σ (charge s p k n) := by
  grind [charge, setReg_kept, kept_iff]
theorem gate_kept (hs : Kept σ s) (ht : Kept σ t) : Kept σ (gate s t) := by
  unfold gate
  split
  · exact ht
  · exact foldl_kept hs _ fun s x hs => setReg_kept hs _ _ _
theorem chargeHbm_kept (hs : Kept σ s) (p c v a n : Nat) : Kept σ (chargeHbm s p c v a n) := by
  grind [chargeHbm, charge_kept]
theorem readHbm_kept (hs : Kept σ s) (p c v a n unit : Nat) : EndsKept σ (readHbm s p c v a n unit) := by
  have h := readDva_kept hs p c v a n unit
  unfold readHbm
  split
  · exact .of_error (chargeHbm_kept (h.error ‹_›) _ _ _ _ _)
  · exact .of_ok (chargeHbm_kept (h.ok ‹_›) _ _ _ _ _)
theorem writeHbm_kept (hs : Kept σ s) {p c v a : Nat} {bs : List PByte} (h : writeHbm s p c v a bs = .ok t) : Kept σ t := by
  grind [writeHbm, writeDva_kept, chargeHbm_kept]
theorem regDisabled_kept (hs : Kept σ s) (p n : Nat) : Kept σ (regDisabled s p n) := by
  grind [regDisabled, failNode_kept, kept_iff]

/-! The functions of Sequencer. -/

theorem failTile_kept (hs : Kept σ s) (p t : Nat) (r : Run) (code : Nat) (more : List Nat) : Kept σ (failTile s p t r code more) := by
  grind [failTile, failNode_kept]
theorem killTile_kept (hs : Kept σ s) (p t : Nat) (r : Run) (code : Nat) (more : List Nat) : Kept σ (killTile s p t r code more) := by
  grind [killTile, killNode_kept]
theorem illegal_kept (hs : Kept σ s) (p t : Nat) (r : Run) : Kept σ (illegal s p t r) := by
  grind [illegal, failTile_kept]
theorem badAddress_kept (hs : Kept σ s) (p t : Nat) (r : Run) : Kept σ (badAddress s p t r) := by
  grind [badAddress, failTile_kept]
theorem issue_kept (hs : Kept σ s) (p t op : Nat) {body : Tile → Run → Nat → State}
    (hb : ∀ r w, Kept σ (body (s.tile p t) r w)) : Kept σ (issue s p t op body) := by
  rcases issue_cases s p t op body with h | ⟨r, -, h⟩ | ⟨r, w, -, -, -, -, h⟩ <;> rw [h]
  · exact hs
  · exact killTile_kept hs _ _ _ _ _
  · exact hb r w
theorem finish_kept (hs : Kept σ s) {p t : Nat} {x : Tile} (hx : (s.tile p t).memOk = true → x.memOk = true) (r : Run) :
    Kept σ (finish s p t x r) :=
  setTile_kept hs fun h => Tile.advance_memOk (hx h) r _
theorem withRegs_kept (hs : Kept σ s) (ht : Kept σ t) (p tl : Nat) (x : Tile) (r : Run) (vs ms ss : List Nat) :
    Kept σ (withRegs s p tl x r vs ms ss t) := by
  grind [withRegs, killTile_kept]
theorem lineKill_kept (hs : Kept σ s) (p t : Nat) (r : Run) (e : LineErr) (sp line : Nat) : Kept σ (lineKill s p t r e sp line) := by
  cases e
  · exact failTile_kept hs _ _ _ _ _
  · exact killTile_kept hs _ _ _ _ _
  · exact killTile_kept hs _ _ _ _ _
theorem linesKill_kept (hs : Kept σ s) (p t : Nat) (r : Run) (es : List (LineErr × Nat)) (sp : Nat) :
    Kept σ (linesKill s p t r es sp) := by
  grind [linesKill, nodeEvent_kept, forbidRerun_kept, lineKill_kept, foldl_kept, kept_iff]
theorem execNop_kept (hs : Kept σ s) (p : Fin 8) (t : Fin 16) : GoesKept σ (execNop p t s) := by
  grind [execNop, goesKept_next, issue_kept, illegal_kept, finish_kept, Tile.memOk]
theorem execEndKernel_kept (hs : Kept σ s) (p : Fin 8) (t : Fin 16) : GoesKept σ (execEndKernel p t s) := by
  grind [execEndKernel, goesKept_next, issue_kept, illegal_kept, setTile_kept, modInst_kept, Tile.memOk, kept_iff]
theorem execLoop_kept (hs : Kept σ s) (p : Fin 8) (t : Fin 16) : GoesKept σ (execLoop p t s) := by
  grind [execLoop, goesKept_next, issue_kept, illegal_kept, setTile_kept, Tile.setS_memOk, Tile.memOk, kept_iff]
theorem execSli_kept (hs : Kept σ s) (p : Fin 8) (t : Fin 16) : GoesKept σ (execSli p t s) := by
  grind [execSli, goesKept_next, issue_kept, illegal_kept, finish_kept, Tile.setS_memOk, Tile.memOk]
theorem execSalu_kept (hs : Kept σ s) (p : Fin 8) (t : Fin 16) : GoesKept σ (execSalu p t s) := by
  grind [execSalu, goesKept_next, issue_kept, illegal_kept, withRegs_kept, finish_kept, Tile.setS_memOk, Tile.memOk, kept_iff]
theorem execSld_kept (hs : Kept σ s) (p : Fin 8) (t : Fin 16) : GoesKept σ (execSld p t s) := by
  grind [execSld, goesKept_next, issue_kept, illegal_kept, withRegs_kept, badAddress_kept, lineKill_kept, finish_kept, Tile.setS_memOk,
    Tile.memOk, kept_iff]
theorem execSst_kept (hs : Kept σ s) (p : Fin 8) (t : Fin 16) : GoesKept σ (execSst p t s) := by
  grind [goesKept_next, execSst, issue_kept, illegal_kept, withRegs_kept, badAddress_kept, lineKill_kept, finish_kept,
    Tile.setSpad_memOk, Tile.spad_memOk, Spad.write_memOk]
theorem execReservedOpcode_kept (hs : Kept σ s) (p : Fin 8) (t : Fin 16) : GoesKept σ (execReservedOpcode p t s) := by
  grind [execReservedOpcode, goesKept_next, killTile_kept, illegal_kept, kept_iff]
theorem execImageOverrun_kept (hs : Kept σ s) (p : Fin 8) (t : Fin 16) : GoesKept σ (execImageOverrun p t s) := by
  grind [execImageOverrun, goesKept_next, illegal_kept, kept_iff]

/-! The functions of Fabric. -/

theorem fabricLineKill_kept (hs : Kept σ s) (q : Packet) (e : LineErr) (line : Nat) : Kept σ (fabricLineKill s q e line) := by
  unfold fabricLineKill
  split
  · exact lineKill_kept hs _ _ _ _ _ _
  · exact logEvent_kept hs
theorem applyData_kept (hs : Kept σ s) (q : Packet) : Kept σ (applyData s q) := by
  unfold applyData
  extract_lets x bf r tile sp d bs s1 t1
  split
  · have hr : Kept σ r.2 := by
      have h := readDva_kept hs q.dstDie q.destCtx x.mapVer q.addr q.data.length 17
      unfold r
      split
      · split
        exacts [h.ok ‹_›, h.error ‹_›]
      · exact hs
    split
    · exact writeDva_kept hr ‹_›
    · exact hr
  · have h1 : Kept σ s1 := by
      grind [fabricLineKill_kept]
    exact setTile_kept h1 fun h => Tile.setSpad_memOk h _ (Spad.writeFabric_memOk (Tile.spad_memOk h _) _ _)
theorem arrivalRejected_kept (hs : Kept σ s) (k n : Nat) (q : Packet) (st : Nat) : Kept σ (arrivalRejected s k n q st) := by
  grind [arrivalRejected, logEvent_kept]
theorem deliver_kept (hs : Kept σ s) (k n : Nat) (q : Packet) : Kept σ (deliver s k n q).1 := by
  grind [deliver, arrivalRejected_kept, logEvent_kept, setFence_kept, applyData_kept, kept_iff]
theorem sendFlits_kept (hs : Kept σ s) (k n : Nat) (fs : List (List Byte)) : Kept σ (sendFlits s k n fs) := by
  grind [sendFlits, kept_iff]
theorem idleFlit_kept (hs : Kept σ s) (k n : Nat) (nak : Bool) : Kept σ (idleFlit s k n nak) := by
  grind [idleFlit, sendFlits_kept, setLp_kept, foldl_kept, kept_iff]
theorem returnCredits_kept {f : Nat} (hs : Kept σ s) (k n : Nat) : Kept σ (returnCredits f s k n) := by
  induction f generalizing s with
  | zero => exact hs
  | succ f ih => grind [returnCredits, setLp_kept, idleFlit_kept]
theorem pump_kept (hs : Kept σ s) (k n : Nat) : Kept σ (pump s k n) := by
  grind [pump, sendFlits_kept, setLp_kept, setPort_kept, foldl_kept, kept_iff]
theorem txFrom_kept (hs : Kept σ s) (k n src : Nat) (q : Packet) : Kept σ (txFrom s k n src q) := by
  grind [txFrom, pump_kept, setLp_kept, kept_iff]
theorem sendAck_kept (hs : Kept σ s) (n : Nat) (q : Packet) : Kept σ (sendAck s n q) := by
  grind [sendAck, txFrom_kept, kept_iff]
theorem chargeSelf_kept (hs : Kept σ s) (p : Nat) (q : Packet) : Kept σ (chargeSelf s p q) := by
  grind [chargeSelf, chargeHbm_kept, charge_kept]
theorem noteErr_kept (hs : Kept σ s) (k bit : Nat) : Kept σ (noteErr s k bit) := by
  grind [noteErr, setPort_kept, kept_iff]
theorem sendPacket_kept (hs : Kept σ s) (p inst : Nat) (copy : Bool) (i : Inst) (q : Packet) :
    Kept σ (sendPacket s p inst copy i q).s := by
  grind [sendPacket, deliver_kept, chargeSelf_kept, noteErr_kept, setPart_kept, charge_kept, txFrom_kept]
theorem sendAll_kept (hs : Kept σ s) (p inst : Nat) (copy : Bool) (i : Inst) (qs : List Packet) :
    Kept σ (sendAll s p inst copy i qs).1 := by
  unfold sendAll
  exact foldl_fst_kept hs _ fun a q ha => sendPacket_kept ha _ _ _ _ _
theorem activateArms_kept (hs : Kept σ s) (p : Nat) : Kept σ (activateArms s p) := by
  grind [activateArms, setPart_kept, foldl_kept, kept_iff]
theorem dropArm_kept (hs : Kept σ s) (p a : Nat) : Kept σ (dropArm s p a) := by
  grind [dropArm, activateArms_kept, setPart_kept, kept_iff]
theorem startRetrain_kept (hs : Kept σ s) (k n : Nat) : Kept σ (startRetrain s k n) := by
  grind [startRetrain, setLp_kept, kept_iff]
theorem resend_kept (hs : Kept σ s) (k n : Nat) (r : List (Nat × List Byte)) : Kept σ (resend s k n r) := by
  grind [resend, sendFlits_kept, setPort_kept, kept_iff]
theorem portDown_kept (hs : Kept σ s) (k n : Nat) (st : PortSt) : Kept σ (portDown s k n st) := by
  grind [portDown, setPort_kept, logEvent_kept, kept_iff]
theorem flitControl_kept (hs : Kept σ s) (k n w0 w1 : Nat) : Kept σ (flitControl s k n w0 w1) := by
  grind [flitControl, setLp_kept, startRetrain_kept, pump_kept, resend_kept, foldl_kept, kept_iff]
theorem sendNak_kept (hs : Kept σ s) (k n : Nat) : Kept σ (sendNak s k n) := by
  grind [sendNak, idleFlit_kept, setLp_kept, kept_iff]
theorem acknowledge_kept (hs : Kept σ s) (k n seq : Nat) : Kept σ (acknowledge s k n seq) := by
  grind [acknowledge, idleFlit_kept]
theorem receive_kept (hs : Kept σ s) (k n : Nat) (flit : List Byte) (corrected : Nat) (ok : Bool) :
    Kept σ (receive s k n flit corrected ok) := by
  grind [receive, setPort_kept, sendNak_kept, setLp_kept, flitControl_kept, acknowledge_kept, foldl_kept, kept_iff]
theorem takeHead_kept (hs : Kept σ s) (k n i : Nat) (q : Packet) : Kept σ (takeHead s k n i q) := by
  grind [takeHead, returnCredits_kept, setLp_kept, kept_iff]

/-! The functions of Matrix. -/

theorem execMmul_kept (hs : Kept σ s) (p : Fin 8) (t : Fin 16) : GoesKept σ (execMmul p t s) := by
  grind [execMmul, goesKept_next, issue_kept, illegal_kept, withRegs_kept, lineKill_kept, failTile_kept, finish_kept, Tile.memOk,
    kept_iff]
theorem execMwait_kept (hs : Kept σ s) (p : Fin 8) (t : Fin 16) : GoesKept σ (execMwait p t s) := by
  grind [execMwait, goesKept_next, issue_kept, illegal_kept, finish_kept, Tile.memOk]
theorem execMmulg_kept (hs : Kept σ s) (p : Fin 8) (t : Fin 16) : GoesKept σ (execMmulg p t s) := by
  unfold execMmulg
  refine goesKept_next.2 (issue_kept hs _ _ _ fun r w => ?_)
  grind [failTile_kept, withRegs_kept, lineKill_kept, finish_kept, Tile.memOk]
theorem sbEvent_kept (hs : Kept σ s) (p t inst kind : Nat) (e : SbErr) : Kept σ (sbEvent s p t inst kind e) := by
  grind [sbEvent, forbidRerun_kept, nodeEventCounted_kept]
theorem passKill_kept (hs : Kept σ s) (p t : Nat) (r : Run) (e : PassErr) : Kept σ (passKill s p t r e) := by
  unfold passKill
  split
  · exact failTile_kept hs _ _ _ _ _
  · exact killTile_kept hs _ _ _ _ _
  · exact failTile_kept hs _ _ _ _ _
  · exact killTile_kept hs _ _ _ _ _
  · exact killTile_kept (sbEvent_kept hs _ _ _ _ _) _ _ _ _ _
theorem countConflicts_kept (hs : Kept σ s) (p t n : Nat) (sp : Spc) : Kept σ (countConflicts s p t n sp) := by
  grind [countConflicts, setTile_kept, nodeEventOnce_kept, Tile.memOk, kept_iff]
theorem Tile.write_pm_memOk {x : Tile} (h : x.memOk = true) (a : Nat) (bs : List Byte) :
    ({ x with pm := x.pm.write a bs false } : Tile).memOk = true :=
  x.setSpad_memOk h .pm (Spad.write_memOk (x.spad_memOk h .pm) a bs false)

theorem loadPass_memOk {x y : Tile} (hx : x.memOk = true) {cbW : Tab CbSlot} {named ns b ks : Nat} {c : MCmd}
    (h : loadPass x cbW named c ns b ks = .ok y) : y.memOk = true := by
  unfold loadPass at h
  extract_lets cs at h
  split at h
  · cases h
  · cases h
    exact hx

theorem rowPass_memOk {x : Tile} (hx : x.memOk = true) {cbA : Tab CbSlot} {named ns ks m : Nat} {c : MCmd} {w : List Nat}
    {ws : List (List (List Internal))} {y : Tile × Nat} (h : rowPass x cbA named c w ws ns ks m = .ok y) : y.1.memOk = true := by
  unfold rowPass at h
  extract_lets cols accs at h
  split at h
  · cases h
  extract_lets fx at h
  clear_value accs
  split at h
  · cases h
  extract_lets last out a at h
  split at h
  · cases h
  · cases h
    exact Tile.write_pm_memOk hx _ _

theorem copyFrozen_memOk {x y : Tile} (hx : x.memOk = true) {c : MCmd} (h : copyFrozen x c = .ok y) : y.memOk = true := by
  unfold copyFrozen at h
  extract_lets w frozen at h
  split at h
  · cases h
    exact hx
  refine List.foldlRecOn (motive := fun r : Except PassErr Tile => ∀ y, r = .ok y → y.memOk = true) _ _
    (fun y h => by cases h; exact hx) (fun r hr m _ y h => ?_) y h
  have hput : ∀ x : Tile, x.memOk = true → ∀ dst n bs, (match x.pm.mergeErr dst n with
      | some e => .error (PassErr.op .pm (.line e (x.pm.mergeLine dst n)))
      | none => .ok { x with pm := x.pm.write dst bs false } : Except PassErr Tile) = .ok y → y.memOk = true := by
    intro x hx dst n bs h
    split at h
    · cases h
    · cases h
      exact Tile.write_pm_memOk hx _ _
  split at h
  · cases h
  split at h
  · exact hput _ (hr _ rfl) _ _ _ h
  split at h
  · cases h
  · exact hput _ (hr _ rfl) _ _ _ h

/-- A pass leaves its tile's memories canonical. -/
theorem runPass_memOk {x : Tile} (hx : x.memOk = true) {cbW cbA : Tab CbSlot} {cbMask : Nat} {c : MCmd} {y : Tile × Nat}
    (h : runPass x cbW cbA cbMask c = .ok y) : y.1.memOk = true := by
  unfold runPass at h
  extract_lets q ns b ks load at h
  have hload : ∀ y, load = .ok y → y.memOk = true := by
    intro y h
    simp only [load] at h
    split at h
    · cases h
      exact hx
    · cases hl : loadPass x cbW (cbMask % 256) c ns b ks with
      | error e => simp [hl, Except.map] at h
      | ok z =>
        simp only [hl, Except.map, Except.ok.injEq] at h
        subst h
        exact (loadPass_memOk hx hl : z.memOk = true)
  clear_value load
  split at h
  · cases h
  rename_i x1
  extract_lets ws fw out at h
  split at h
  · cases h
  have hout : ∀ y, out = .ok y → y.1.memOk = true := by
    refine List.foldlRecOn (motive := fun r : Except (PassErr × Nat) (Tile × Nat) => ∀ y, r = .ok y → y.1.memOk = true) _ _
      (fun y h => by cases h; exact hload _ rfl) (fun r hr e _ => ?_)
    refine List.foldlRecOn (motive := fun r : Except (PassErr × Nat) (Tile × Nat) => ∀ y, r = .ok y → y.1.memOk = true) _ _
      hr (fun r hr m _ y h => ?_)
    split at h
    · cases h
    split at h
    · split at h
      · cases h
      · rename_i hrow
        cases h
        have hy := rowPass_memOk (hr _ rfl) hrow
        exact hy
    · cases h
      exact hr _ rfl
  clear_value out
  split at h
  · cases h
  have hz := hout _ rfl
  split at h
  · split at h
    · cases h
    · cases h
      exact copyFrozen_memOk hz ‹_›
  · cases h
    exact hz

theorem execMatrixPassStart_kept (hs : Kept σ s) (p : Fin 8) (t : Fin 16) (conf : Nat) (sp : Spc) :
    GoesKept σ (execMatrixPassStart p t conf sp s) := by
  unfold execMatrixPassStart
  extract_lets x0 s1 x
  refine goesKept_next.2 (.ite hs ?_)
  split
  · extract_lets c started cp
    have h1 : Kept σ s1 := countConflicts_kept hs _ _ _ _
    clear_value s1
    have hst : ∀ f, Kept σ (started f) := fun f => setTile_kept h1 (by exact id)
    split
    · exact passKill_kept (hst _) _ _ _ _
    · rename_i h
      exact setTile_kept h1 fun hx => (Tile.touch_memOk _ _).trans (runPass_memOk hx h)
  · exact hs
theorem execMatrixCommandComplete_kept (hs : Kept σ s) (p : Fin 8) (t : Fin 16) : GoesKept σ (execMatrixCommandComplete p t s) := by
  grind [execMatrixCommandComplete, goesKept_next, setTile_kept, Tile.memOk, kept_iff]

/-! The functions of Dma. -/

theorem Mv.bind_kept {m : Mv} (hm : Kept σ m.s) {f : State → Mv} (hf : ∀ s, Kept σ s → Kept σ (f s).s) : Kept σ (m.bind f).s := by
  unfold Mv.bind
  split
  exacts [hf _ hm, hm]

theorem Mv.orErr_kept {m : Mv} (hm : Kept σ m.s) (e : Option DErr) : Kept σ (m.orErr e).s := hm
theorem Mv.each_kept {m : Mv} (hm : Kept σ m.s) {f : State → Nat → Mv} (hf : ∀ s i, Kept σ s → Kept σ (f s i).s) (n : Nat) :
    Kept σ (m.each n f).s := by
  induction n with
  | zero => exact hm
  | succ n ih => exact Mv.bind_kept ih fun s hs => hf s n hs

/-- A transfer that stops at its first error, carrying a second result along. -/
theorem foldl_moves_kept {β : Type} {f : Mv × β → Nat → Mv × β} {x : Mv × β} (h : Kept σ x.1.s) (l : List Nat)
    (hf : ∀ a i, Kept σ a.1.s → Kept σ (f a i).1.s) : Kept σ (l.foldl f x).1.s :=
  List.foldlRecOn (motive := fun a : Mv × β => Kept σ a.1.s) l f h fun a ha i _ => hf a i ha
theorem dmaRead_kept (hs : Kept σ s) (w : Who) (space a n : Nat) (toHbm : Bool) : Kept σ (dmaRead w s space a n toHbm).1.s := by
  unfold dmaRead
  split
  · have h := readHbm_kept hs w.p w.r.ctx w.r.mapVer a n w.t
    split
    · exact hs
    split
    exacts [h.error ‹_›, h.ok ‹_›]
  · grind
theorem dmaWrite_kept (hs : Kept σ s) (w : Who) (space a : Nat) (bs : List PByte) : Kept σ (dmaWrite w s space a bs).s := by
  unfold dmaWrite
  split
  · split
    · exact hs
    split
    exacts [hs, writeHbm_kept hs ‹_›]
  · extract_lets sp x
    split
    · exact hs
    split
    · exact hs
    · exact setTile_kept hs fun h => Tile.setSpad_memOk h _ (Spad.writeMarked_memOk (Tile.spad_memOk h _) _ _)
theorem dmaRow_kept (hs : Kept σ s) (w : Who) (ss sa ds da n : Nat) (f : State → List PByte → Option (List PByte)) :
    Kept σ (dmaRow w s ss sa ds da n f).s := by
  have h := dmaRead_kept hs w ss sa n (ds = 0)
  unfold dmaRow
  extract_lets r
  split
  · split
    exacts [dmaWrite_kept h _ _ _ _, h]
  · exact h
theorem execDma_kept (hs : Kept σ s) (p : Fin 8) (t : Fin 16) : GoesKept σ (execDma p t s) := by
  grind [execDma, goesKept_next, issue_kept, illegal_kept, withRegs_kept, lineKill_kept, failTile_kept, finish_kept, Tile.memOk, kept_iff]
theorem execDwait_kept (hs : Kept σ s) (p : Fin 8) (t : Fin 16) : GoesKept σ (execDwait p t s) := by
  grind [execDwait, goesKept_next, issue_kept, illegal_kept, finish_kept, Tile.memOk]
theorem idxRead_kept (hs : Kept σ s) (w : Who) (list i : Nat) : Kept σ (idxRead w s list i).1.s := dmaRead_kept hs _ _ _ _ _
theorem dmaRows_kept (hs : Kept σ s) (w : Who) (d : List Nat) (sa da : Nat) : Kept σ (dmaRows w s d sa da).s := by
  unfold dmaRows
  refine Mv.each_kept hs (fun s i hs => ?_) _
  split
  · exact dmaRow_kept hs _ _ _ _ _ _ _
  · refine Mv.bind_kept (idxRead_kept hs _ _ _) fun s hs => ?_
    split
    exacts [dmaWrite_kept hs _ _ _ _, dmaRow_kept hs _ _ _ _ _ _ _]
  · refine Mv.bind_kept (idxRead_kept hs _ _ _) fun s hs => ?_
    split
    · exact dmaRead_kept hs _ _ _ _ _
    extract_lets dst old
    split
    · exact hs
    split
    · exact Mv.bind_kept (dmaRead_kept hs _ _ _ _ _) fun s hs => dmaRow_kept hs _ _ _ _ _ _ _
    · exact dmaRow_kept hs _ _ _ _ _ _ _
theorem cmpEvent_kept (hs : Kept σ s) (w : Who) (e : SbErr) : Kept σ (cmpEvent w s e) := by
  grind [cmpEvent, sbEvent_kept]
theorem sbCopy_kept (hs : Kept σ s) (w : Who) (ss sa ds da aux n : Nat) {entryAt : State → Nat → Mv × List PByte}
    (hentry : ∀ s i, Kept σ s → Kept σ (entryAt s i).1.s) : Kept σ (sbCopy w s ss sa ds da aux n entryAt).1.s := by
  unfold sbCopy
  refine foldl_moves_kept hs _ fun a i ha => ?_
  split
  · exact ha
  extract_lets r c entry
  have hr : Kept σ r.1.s := hentry _ _ ha
  split
  · split
    · exact Mv.orErr_kept (dmaWrite_kept (cmpEvent_kept hr _ _) _ _ _ _) _
    · exact Mv.orErr_kept (Mv.bind_kept (dmaRow_kept hr _ _ _ _ _ _ _) fun s hs => dmaWrite_kept hs _ _ _ _) _
  · exact hr
theorem sbExpand_kept (hs : Kept σ s) (w : Who) (slots : Tab CbSlot) (d : List Nat) (sa da : Nat) :
    Kept σ (sbExpand w s slots d sa da).s := by
  unfold sbExpand
  refine Mv.each_kept hs (fun s i hs => ?_) _
  extract_lets r c entry dst q x s1
  have hr : Kept σ r.1.s := dmaRead_kept hs _ _ _ _ _
  have hq : Kept σ q.1.s := dmaRead_kept hr _ _ _ _ _
  split
  · exact hr
  split
  · exact Mv.orErr_kept (dmaWrite_kept (cmpEvent_kept hr _ _) _ _ _ _) _
  split
  · exact hq
  · have h1 : Kept σ s1 := by
      unfold s1
      split
      exacts [cmpEvent_kept hq _ _, hq]
    exact Mv.orErr_kept (Mv.orErr_kept (dmaWrite_kept h1 _ _ _ _) _) _
theorem markNonfinite_kept {m : Mv} (hm : Kept σ m.s) (w : Who) (met : Bool) (slot : Nat) : Kept σ (markNonfinite w m met slot).s := by
  unfold markNonfinite
  split
  exacts [nodeEventCounted_kept hm _ _ _ _, hm]
theorem sbCode_kept (hs : Kept σ s) (w : Who) (slots : Tab CbSlot) (d : List Nat) (sa da : Nat) : Kept σ (sbCode w s slots d sa da).s := by
  unfold sbCode
  refine markNonfinite_kept (foldl_moves_kept hs _ fun a i ha => ?_) _ _ _
  split
  · exact ha
  extract_lets r b sums coded m
  have hr : Kept σ r.1.s := dmaRead_kept ha _ _ _ _ _
  split
  · exact hr
  · exact Mv.bind_kept (dmaWrite_kept hr _ _ _ _) fun s hs => dmaWrite_kept hs _ _ _ _
theorem dmaPack_kept (hs : Kept σ s) (w : Who) (slots : Tab CbSlot) (d : List Nat) (sa da : Nat) :
    Kept σ (dmaPack w s slots d sa da).s := by
  unfold dmaPack
  refine Mv.bind_kept (markNonfinite_kept (foldl_moves_kept hs _ fun a i ha => ?_) _ _ _) fun s hs => dmaWrite_kept hs _ _ _ _
  split
  · exact ha
  extract_lets r b q rate coded e m
  have hr : Kept σ r.1.s := dmaRead_kept ha _ _ _ _ _
  split
  · exact hr
  · exact Mv.bind_kept (dmaWrite_kept hr _ _ _ _) fun s hs => dmaWrite_kept hs _ _ _ _
theorem kvRead_kept (hs : Kept σ s) (p i c v a n t : Nat) : EndsKept σ (kvRead s p i c v a n t) := by
  have h := readHbm_kept hs p c v a n t
  unfold kvRead
  split
  · exact .of_error hs
  split
  · exact .of_error (h.error ‹_›)
  · exact .of_error (h.error ‹_›)
  split
  · exact .of_error (h.ok ‹_›)
  · exact .of_ok (h.ok ‹_›)
theorem kvPage_kept (hs : Kept σ s) (p i c v t : Nat) (pt : Option PTab) (slots : Tab CbSlot) (mask : Nat) (coded : Bool) (q : List Nat)
    (l g : Nat) : EndsKept σ (kvPage s p i c v t pt slots mask coded q l g) := by
  unfold kvPage
  split
  · exact .of_error hs
  have h := kvRead_kept hs p i c v (seqList q + 4 * (l * seqGroups q + g)) 4 t
  split
  · exact .of_error (h.stop ‹_›)
  have h1 := h.ok ‹_›
  extract_lets pn
  split
  · exact .of_error h1
  have h2 := fun a => kvRead_kept h1 p i c v a 8 t
  split
  · exact .of_error ((h2 _).stop ‹_›)
  have h3 := (h2 _).ok ‹_›
  extract_lets e rate slot
  split
  · exact .of_error h3
  split
  · exact .of_error h3
  split
  exacts [.of_error h3, .of_ok h3]
theorem gatherPage_kept (hs : Kept σ s) (w : Who) (d q : List Nat) (first stop l out k : Nat) :
    Kept σ (gatherPage w s d q first stop l out k).1.s := by
  unfold gatherPage
  extract_lets g seq n base ds da aux mark fault
  have h := fun slots => kvPage_kept hs w.p w.r.inst w.r.ctx w.r.mapVer w.t w.r.pt slots (w.r.cbMask % 256) false q l g
  split
  · exact (h _).error ‹_›
  · exact (h _).error ‹_›
  · exact (h _).error ‹_›
  · exact (h _).error ‹_›
  · exact (h _).error ‹_›
  extract_lets r
  have hmark : ∀ {s hit bs}, Kept σ s → Kept σ (mark s hit bs) := fun hs => by
    unfold mark
    split
    exacts [forbidRerun_kept (nodeEvent_kept hs _ _ _ _) _ _, hs]
  have hfault : ∀ {m : Mv}, Kept σ m.s → Kept σ (fault m).s := fun hm => by
    unfold fault
    split <;> exact hm
  have hr : Kept σ r.1.s := by
    refine foldl_moves_kept ((h _).ok ‹_›) _ fun a i ha => ?_
    split
    · exact ha
    extract_lets e s2 c hit entry sz b m
    have he : Kept σ e.1.s := dmaRead_kept ha _ _ _ _ _
    have h2 : Kept σ s2 := hmark he
    have hb : Kept σ b.1.s := dmaRead_kept h2 _ _ _ _ _
    split
    · exact hfault he
    split
    · exact dmaWrite_kept (cmpEvent_kept h2 _ _) _ _ _ _
    split
    · exact hfault hb
    · exact Mv.bind_kept (dmaWrite_kept (hmark hb) _ _ _ _) fun s hs => dmaWrite_kept hs _ _ _ _
  split <;> exact hr
theorem dmaGather_kept (hs : Kept σ s) (w : Who) (d q : List Nat) (first stop : Nat) : Kept σ (dmaGather w s d q first stop).s := by
  unfold dmaGather
  refine Mv.bind_kept (foldl_moves_kept hs _ fun a i ha => ?_) fun s hs => dmaWrite_kept hs _ _ _ _
  split
  exacts [ha, gatherPage_kept ha _ _ _ _ _ _ _ _]
theorem dmaStop_kept (hs : Kept σ s) (w : Who) (e : DErr) (info : Nat → List Nat) : Kept σ (dmaStop w s e info) := by
  cases e
  · exact lineKill_kept hs _ _ _ _ _ _
  · exact accKill_kept hs _ _ _
  · exact failTile_kept hs _ _ _ _ _
  · exact regDisabled_kept hs _ _
  · exact failNode_kept hs _ _ _ _
theorem dmaMove_kept (hs : Kept σ s) (w : Who) (job : DmaJob) : Kept σ (dmaMove w s job).s := by
  unfold dmaMove
  extract_lets slots
  split
  · extract_lets sa da
    split
    · exact dmaRows_kept hs _ _ _ _
    · exact dmaRows_kept hs _ _ _ _
    · exact dmaRows_kept hs _ _ _ _
    · split
      exacts [sbExpand_kept hs _ _ _ _ _, sbCopy_kept hs _ _ _ _ _ _ _ fun s i hs => dmaRead_kept hs _ _ _ _ _]
    · exact sbCode_kept hs _ _ _ _ _
    · exact dmaPack_kept hs _ _ _ _ _
  · exact dmaGather_kept hs _ _ _ _ _
  · exact hs
theorem execDmaDescriptorStart_kept (hs : Kept σ s) (p : Fin 8) (t : Fin 16) : GoesKept σ (execDmaDescriptorStart p t s) := by
  unfold execDmaDescriptorStart
  extract_lets x
  refine goesKept_next.2 (gate_kept hs ?_)
  split
  · exact hs
  split
  · split
    · exact hs
    extract_lets e w gs s1 m
    have hm : Kept σ m.s := dmaMove_kept (s := s1) (setTile_kept hs id) _ _
    split
    · exact setTile_kept hm (Tile.touch_memOk _ _).trans
    · exact dmaStop_kept hm _ _ _
  · exact hs
theorem execDmaDescriptorRetire_kept (hs : Kept σ s) (p : Fin 8) (t : Fin 16) : GoesKept σ (execDmaDescriptorRetire p t s) := by
  grind [execDmaDescriptorRetire, goesKept_next, setTile_kept, Tile.touch_memOk, Tile.memOk, kept_iff]
theorem execDmaBankStarvation_kept (hs : Kept σ s) (p : Fin 8) (t : Fin 16) (sp : Spc) : GoesKept σ (execDmaBankStarvation p t sp s) := by
  grind [execDmaBankStarvation, goesKept_next, countConflicts_kept]

/-! The functions of Kv. -/

theorem kvStop_kept (hs : Kept σ s) (p t : Nat) (r : Run) (e : KvErr) (seq g pos : Nat) : Kept σ (kvStop s p t r e seq g pos) := by
  cases e
  · exact failNode_kept hs _ _ _ _
  · exact failNode_kept hs _ _ _ _
  · exact failNode_kept hs _ _ _ _
  · exact regDisabled_kept hs _ _
  · exact accKill_kept hs _ _ _
theorem kvPages_kept (hs : Kept σ s) (p t : Nat) (r : Run) (q : List Nat) (g a b : Nat) (wr : Bool) :
    EndsKept σ (kvPages s p t r q g a b wr) := by
  unfold kvPages
  refine List.foldlRecOn (motive := EndsKept σ) _ _ (EndsKept.of_ok hs) fun acc hacc l _ => ?_
  rcases acc with e | ⟨ps, t⟩
  · exact hacc
  dsimp only
  have h := fun t' pt slots mask => kvPage_kept (hacc.ok rfl) p r.inst r.ctx r.mapVer t' pt slots mask wr q l g
  split
  · exact .of_error ((h _ _ _ _).error ‹_›)
  have h1 := (h _ _ _ _).ok ‹_›
  split
  exacts [.of_error h1, .of_error h1, .of_ok h1]
theorem kvWrite_kept (hs : Kept σ s) (w : Who) (ws : List (Nat × List Byte)) : Kept σ (kvWrite w s ws).s :=
  List.foldlRecOn (motive := fun m : Mv => Kept σ m.s) _ _ hs fun _ hm _ _ => Mv.bind_kept hm fun _ hs => dmaWrite_kept hs _ _ _ _
theorem appendRow_kept (hs : Kept σ s) (w : Who) (k : KvReq) (pages : List (Nat × KvPage)) (j : Nat) :
    Kept σ (appendRow w s k pages j).s := by
  unfold appendRow
  extract_lets tok n
  split
  · exact hs
  · exact List.foldlRecOn (motive := fun m : Mv => Kept σ m.s) _ _ hs fun m hm plane _ => Mv.bind_kept hm fun s hs =>
      Mv.bind_kept (dmaRead_kept hs _ _ _ _ _) fun s hs => kvWrite_kept hs _ _
theorem execKvapp_kept (hs : Kept σ s) (p : Fin 8) (t : Fin 16) : GoesKept σ (execKvapp p t s) := by
  unfold execKvapp
  refine goesKept_next.2 (gate_kept hs (issue_kept hs _ _ _ fun r w => ?_))
  split
  · exact illegal_kept hs _ _ _
  split
  · exact hs
  refine withRegs_kept hs ?_ _ _ _ _ _ _ _
  extract_lets a d seq g off publish who
  split
  · exact lineKill_kept hs _ _ _ _ _ _
  split
  · exact kvStop_kept hs _ _ _ _ _ _ _
  have h := fun a => kvRead_kept hs p r.inst r.ctx r.mapVer a 64 t
  split
  · exact kvStop_kept ((h _).error ‹_›) _ _ _ _ _ _ _
  have h1 := (h _).ok ‹_›
  extract_lets q pos k r1
  split
  · exact kvStop_kept h1 _ _ _ _ _ _ _
  split
  · exact kvStop_kept h1 _ _ _ _ _ _ _
  split
  · exact accKill_kept h1 _ _ _
  · exact kvStop_kept h1 _ _ _ _ _ _ _
  have h2 := fun q g a b => kvPages_kept h1 p t r q g a b true
  split
  · exact kvStop_kept ((h2 _ _ _ _).error ‹_›) _ _ _ _ _ _ _
  extract_lets nf m
  have hm : Kept σ m.s := markNonfinite_kept (Mv.each_kept ((h2 _ _ _ _).ok ‹_›) (fun s j hs => appendRow_kept hs _ _ _ _) _) _ _ _
  clear_value m
  split
  · exact dmaStop_kept hm _ _ _
  · exact finish_kept hm (by exact id) _
theorem execKvappComplete_kept (hs : Kept σ s) (p : Fin 8) (t : Fin 16) : GoesKept σ (execKvappComplete p t s) := by
  grind [execKvappComplete, goesKept_next, setTile_kept, Tile.touch_memOk, Tile.memOk, kept_iff]
theorem execKvwait_kept (hs : Kept σ s) (p : Fin 8) (t : Fin 16) : GoesKept σ (execKvwait p t s) := by
  grind [execKvwait, goesKept_next, issue_kept, illegal_kept, finish_kept, Tile.memOk]
theorem execKvgather_kept (hs : Kept σ s) (p : Fin 8) (t : Fin 16) : GoesKept σ (execKvgather p t s) := by
  unfold execKvgather
  refine goesKept_next.2 (gate_kept hs (issue_kept hs _ _ _ fun r w => ?_))
  split
  · exact illegal_kept hs _ _ _
  split
  · exact hs
  refine withRegs_kept hs ?_ _ _ _ _ _ _ _
  extract_lets a d seq g pos count sp aux
  split
  · exact lineKill_kept hs _ _ _ _ _ _
  split
  · exact kvStop_kept hs _ _ _ _ _ _ _
  have h := fun a => kvRead_kept hs p r.inst r.ctx r.mapVer a 64 t
  split
  · exact kvStop_kept ((h _).error ‹_›) _ _ _ _ _ _ _
  have h1 := (h _).ok ‹_›
  extract_lets q stop nsb
  refine .ite (kvStop_kept h1 _ _ _ _ _ _ _) (.ite (kvStop_kept h1 _ _ _ _ _ _ _) ?_)
  have h2 := fun q g a b => kvPages_kept h1 p t r q g a b false
  split
  · exact kvStop_kept ((h2 _ _ _ _).error ‹_›) _ _ _ _ _ _ _
  have h3 := (h2 _ _ _ _).ok ‹_›
  exact .ite (kvStop_kept h3 _ _ _ _ _ _ _) (finish_kept h3 (by exact id) _)

/-! The functions of Vector. -/

theorem vChk_kept (hs : Kept σ s) (ht : Kept σ t) (p tl : Nat) (x : Tile) (r : Run) (w : Nat) (useB : Bool) (vs ms ss : List Nat) :
    Kept σ (vChk s p tl x r w useB vs ms ss t) := withRegs_kept hs ht _ _ _ _ _ _ _
theorem vOp_kept (hs : Kept σ s) (p t op : Nat) (ok : Nat → Bool) (useB : Bool) (vs ss : Nat → List Nat)
    (f : Tile → Nat → Nat → Nat → Nat → List Nat) : Kept σ (vOp s p t op ok useB vs ss f) := by
  grind [vOp, issue_kept, illegal_kept, vChk_kept, finish_kept, Tile.setV_memOk, Tile.memOk, kept_iff]
theorem vBin_kept (hs : Kept σ s) (p t op : Nat) (ok : Nat → Bool) (f : Nat → Nat → Nat → Nat → Nat) : Kept σ (vBin s p t op ok f) := by
  grind [vBin, vOp_kept]
theorem vUn_kept (hs : Kept σ s) (p t op : Nat) (ok : Nat → Bool) (f : Nat → Nat → Nat → Nat) : Kept σ (vUn s p t op ok f) := by
  grind [vUn, vOp_kept]
theorem execVadd_kept (hs : Kept σ s) (p : Fin 8) (t : Fin 16) : GoesKept σ (execVadd p t s) := by
  grind [execVadd, goesKept_next, vBin_kept]
theorem execVsub_kept (hs : Kept σ s) (p : Fin 8) (t : Fin 16) : GoesKept σ (execVsub p t s) := by
  grind [execVsub, goesKept_next, vBin_kept]
theorem execVmul_kept (hs : Kept σ s) (p : Fin 8) (t : Fin 16) : GoesKept σ (execVmul p t s) := by
  grind [execVmul, goesKept_next, vBin_kept]
theorem execVfma_kept (hs : Kept σ s) (p : Fin 8) (t : Fin 16) : GoesKept σ (execVfma p t s) := by
  grind [execVfma, goesKept_next, vOp_kept]
theorem execVmin_kept (hs : Kept σ s) (p : Fin 8) (t : Fin 16) : GoesKept σ (execVmin p t s) := by
  grind [execVmin, goesKept_next, vBin_kept]
theorem execVmax_kept (hs : Kept σ s) (p : Fin 8) (t : Fin 16) : GoesKept σ (execVmax p t s) := by
  grind [execVmax, goesKept_next, vBin_kept]
theorem execVabs_kept (hs : Kept σ s) (p : Fin 8) (t : Fin 16) : GoesKept σ (execVabs p t s) := by
  grind [execVabs, goesKept_next, vUn_kept]
theorem execVneg_kept (hs : Kept σ s) (p : Fin 8) (t : Fin 16) : GoesKept σ (execVneg p t s) := by
  grind [execVneg, goesKept_next, vUn_kept]
theorem execVand_kept (hs : Kept σ s) (p : Fin 8) (t : Fin 16) : GoesKept σ (execVand p t s) := by
  grind [execVand, goesKept_next, vBin_kept]
theorem execVor_kept (hs : Kept σ s) (p : Fin 8) (t : Fin 16) : GoesKept σ (execVor p t s) := by
  grind [execVor, goesKept_next, vBin_kept]
theorem execVxor_kept (hs : Kept σ s) (p : Fin 8) (t : Fin 16) : GoesKept σ (execVxor p t s) := by
  grind [execVxor, goesKept_next, vBin_kept]
theorem execVshl_kept (hs : Kept σ s) (p : Fin 8) (t : Fin 16) : GoesKept σ (execVshl p t s) := by
  grind [execVshl, goesKept_next, vBin_kept]
theorem execVshr_kept (hs : Kept σ s) (p : Fin 8) (t : Fin 16) : GoesKept σ (execVshr p t s) := by
  grind [execVshr, goesKept_next, vBin_kept]
theorem execVsra_kept (hs : Kept σ s) (p : Fin 8) (t : Fin 16) : GoesKept σ (execVsra p t s) := by
  grind [execVsra, goesKept_next, vBin_kept]
theorem execVmov_kept (hs : Kept σ s) (p : Fin 8) (t : Fin 16) : GoesKept σ (execVmov p t s) := by
  grind [execVmov, goesKept_next, vUn_kept]
theorem execVbcast_kept (hs : Kept σ s) (p : Fin 8) (t : Fin 16) : GoesKept σ (execVbcast p t s) := by
  grind [execVbcast, goesKept_next, vOp_kept]
theorem execViota_kept (hs : Kept σ s) (p : Fin 8) (t : Fin 16) : GoesKept σ (execViota p t s) := by
  grind [execViota, goesKept_next, vOp_kept]
theorem execVext_kept (hs : Kept σ s) (p : Fin 8) (t : Fin 16) : GoesKept σ (execVext p t s) := by
  have h : s.takeFree.2.tile p t = s.tile p t := rfl
  grind [goesKept_next, execVext, issue_kept, illegal_kept, withRegs_kept, takeFree_kept, finish_kept, Tile.setS_memOk]
theorem execVins_kept (hs : Kept σ s) (p : Fin 8) (t : Fin 16) : GoesKept σ (execVins p t s) := by
  have h : s.takeFree.2.tile p t = s.tile p t := rfl
  grind [goesKept_next, execVins, issue_kept, illegal_kept, withRegs_kept, takeFree_kept, finish_kept, Tile.setV_memOk]
theorem execVperm_kept (hs : Kept σ s) (p : Fin 8) (t : Fin 16) : GoesKept σ (execVperm p t s) := by
  grind [execVperm, goesKept_next, vOp_kept]
theorem execVpack_kept (hs : Kept σ s) (p : Fin 8) (t : Fin 16) : GoesKept σ (execVpack p t s) := by
  grind [execVpack, goesKept_next, issue_kept, illegal_kept, withRegs_kept, finish_kept, Tile.setS_memOk, Tile.setV_memOk, Tile.memOk,
    kept_iff]
theorem execVcmp_kept (hs : Kept σ s) (p : Fin 8) (t : Fin 16) : GoesKept σ (execVcmp p t s) := by
  grind [execVcmp, goesKept_next, issue_kept, illegal_kept, withRegs_kept, finish_kept, Tile.setM_memOk, Tile.memOk, kept_iff]
theorem execVsel_kept (hs : Kept σ s) (p : Fin 8) (t : Fin 16) : GoesKept σ (execVsel p t s) := by
  grind [execVsel, goesKept_next, issue_kept, illegal_kept, withRegs_kept, finish_kept, Tile.setV_memOk, Tile.memOk, kept_iff]
theorem execMlog_kept (hs : Kept σ s) (p : Fin 8) (t : Fin 16) : GoesKept σ (execMlog p t s) := by
  grind [execMlog, goesKept_next, issue_kept, illegal_kept, withRegs_kept, finish_kept, Tile.setM_memOk, Tile.memOk, kept_iff]
theorem execMpop_kept (hs : Kept σ s) (p : Fin 8) (t : Fin 16) : GoesKept σ (execMpop p t s) := by
  grind [execMpop, goesKept_next, issue_kept, illegal_kept, withRegs_kept, finish_kept, Tile.setS_memOk, Tile.memOk, kept_iff]
theorem execMfirst_kept (hs : Kept σ s) (p : Fin 8) (t : Fin 16) : GoesKept σ (execMfirst p t s) := by
  grind [execMfirst, goesKept_next, issue_kept, illegal_kept, withRegs_kept, finish_kept, Tile.setS_memOk, Tile.memOk, kept_iff]
theorem execCvt_kept (hs : Kept σ s) (p : Fin 8) (t : Fin 16) : GoesKept σ (execCvt p t s) := by
  grind [execCvt, goesKept_next, issue_kept, illegal_kept, withRegs_kept, finish_kept, foldl_kept, Tile.setV_memOk, Tile.memOk, kept_iff]
theorem execVld_kept (hs : Kept σ s) (p : Fin 8) (t : Fin 16) : GoesKept σ (execVld p t s) := by
  grind [execVld, goesKept_next, issue_kept, illegal_kept, withRegs_kept, badAddress_kept, linesKill_kept, finish_kept, Tile.setV_memOk,
    Tile.memOk, kept_iff]
theorem storeMasked_memOk {d : Spad} (h : d.memOk = true) (a v : Nat) (on : Nat → Bool) : (storeMasked d a v on).memOk = true := by
  unfold storeMasked
  refine List.foldlRecOn (motive := fun d : Spad => d.memOk = true) _ _ h fun d hd l _ => ?_
  grind [Spad.write_memOk]

theorem execVst_kept (hs : Kept σ s) (p : Fin 8) (t : Fin 16) : GoesKept σ (execVst p t s) := by
  grind [goesKept_next, execVst, issue_kept, illegal_kept, withRegs_kept, badAddress_kept, lineKill_kept, finish_kept,
    Tile.setSpad_memOk, Tile.spad_memOk, storeMasked_memOk]

/-! The functions of Reduce. -/

theorem execRed_kept (hs : Kept σ s) (p : Fin 8) (t : Fin 16) : GoesKept σ (execRed p t s) := by
  have h : ∀ {x : Tile} (a : Nat) (bs : List Byte), x.memOk = true → { x with am := x.am.write a bs false }.memOk = true :=
    fun {x} a bs hx => x.setSpad_memOk hx .am (Spad.write_memOk (x.spad_memOk hx .am) a bs false)
  grind [goesKept_next, execRed, issue_kept, illegal_kept, withRegs_kept, badAddress_kept, lineKill_kept, finish_kept, Tile.setS_memOk]

/-! The functions of Grad. -/

theorem execGctlQuery_kept (hs : Kept σ s) (p : Fin 8) (t : Fin 16) : GoesKept σ (execGctlQuery p t s) := by
  grind [execGctlQuery, goesKept_next, issue_kept, failTile_kept, illegal_kept, finish_kept, Tile.setS_memOk, Tile.memOk]
theorem execGctlRelease_kept (hs : Kept σ s) (p : Fin 8) (t : Fin 16) : GoesKept σ (execGctlRelease p t s) := by
  grind [execGctlRelease, goesKept_next, issue_kept, failTile_kept, finish_kept, Tile.memOk, kept_iff]
theorem execGsend_kept (hs : Kept σ s) (p : Fin 8) (t : Fin 16) : GoesKept σ (execGsend p t s) := by
  unfold execGsend
  refine goesKept_next.2 (gate_kept hs (issue_kept hs _ _ _ fun r w => ?_))
  split
  · exact illegal_kept hs _ _ _
  split
  · exact hs
  extract_lets a d src bad ma mn fault poison
  split
  · exact lineKill_kept hs _ _ _ _ _ _
  have hbad : ∀ {s}, Kept σ s → Kept σ (bad s) := fun hs => failNode_kept hs _ _ _ _
  have hfault : ∀ {s}, Kept σ s → Kept σ (fault s) := fun hs => failNode_kept hs _ _ _ _
  have hpoison : ∀ {s}, Kept σ s → Kept σ (poison s) := fun hs => failNode_kept hs _ _ _ _
  split
  · exact hbad hs
  split
  · exact lineKill_kept hs _ _ _ _ _ _
  have h := kvRead_kept hs p r.inst r.ctx r.mapVer (addr48 d 4) 64 t
  split
  · exact accKill_kept (h.error ‹_›) _ _ _
  · exact regDisabled_kept (h.error ‹_›) _ _
  · exact hpoison (h.error ‹_›)
  · exact hfault (h.error ‹_›)
  have h1 := h.ok ‹_›
  extract_lets l
  split
  · exact hfault h1
  split
  · exact hbad h1
  have h2 := fun a => kvRead_kept h1 p r.inst r.ctx r.mapVer a 64 t
  split
  · exact accKill_kept ((h2 _).error ‹_›) _ _ _
  · exact regDisabled_kept ((h2 _).error ‹_›) _ _
  · exact hpoison ((h2 _).error ‹_›)
  · exact hfault ((h2 _).error ‹_›)
  · exact finish_kept ((h2 _).ok ‹_›) (by exact id) _
theorem svuWord_kept (hs : Kept σ s) (p c v a : Nat) : EndsKept σ (svuWord s p c v a) := by
  have h := readDva_kept hs p c v a 4 16
  unfold svuWord
  split
  exacts [.of_error (h.stop ‹_›), .of_ok (h.ok ‹_›)]
theorem svuWords_kept (hs : Kept σ s) (p c v : Nat) (l : List Nat) : EndsKept σ (svuWords s p c v l) := by
  induction l generalizing s with
  | nil => exact .of_ok hs
  | cons a l ih =>
    have h := svuWord_kept hs p c v a
    unfold svuWords
    split
    · exact .of_error (h.stop ‹_›)
    · exact .of_ok (h.ok ‹_›)
    have h1 := ih (h.ok ‹_›)
    split
    exacts [.of_error (h1.stop ‹_›), .of_ok (h1.ok ‹_›), .of_ok (h1.ok ‹_›)]
theorem poisonMoments_kept (hs : Kept σ s) (p c v : Nat) (l : List Nat) (o : Nat) : Kept σ (poisonMoments s p c v l o) := by
  grind [poisonMoments, writeDva_kept, foldl_kept, kept_iff]
theorem phase1_kept (hs : Kept σ s) (w : Who) (i : Nat) (e : DmaEnt) (d l hp : List Nat) (mask : List Byte) (src k row col : Nat) :
    Kept σ (phase1 w s i e d l hp mask src k row col) := by
  unfold phase1
  extract_lets x pa c v P o
  split
  · exact lineKill_kept (poisonMoments_kept hs _ _ _ _ _) _ _ _ _ _ _
  split
  · exact accKill_kept hs _ _ _
  split
  · exact regDisabled_kept hs _ _
  extract_lets s0
  have h := svuWords_kept (s := s0) (.ite hs (charge_kept hs _ _ _)) w.p c v
  split
  · exact accKill_kept ((h _).error ‹_›) _ _ _
  · exact failNode_kept ((h _).ok ‹_›) _ _ _ _
  have h1 := (h _).ok ‹_›
  extract_lets
  split
  · exact accKill_kept h1 _ _ _
  have h2 := writeDva_kept h1 ‹_›
  split
  · exact accKill_kept h2 _ _ _
  · exact setTile_kept (writeDva_kept h2 ‹_›) (by exact id)
theorem execSvuPhase1Element_kept (hs : Kept σ s) (p : Fin 8) (t : Fin 16) : GoesKept σ (execSvuPhase1Element p t s) := by
  grind [execSvuPhase1Element, goesKept_next, gate_kept, phase1_kept, kept_iff]
theorem execGsendRetire_kept (hs : Kept σ s) (p : Fin 8) (t : Fin 16) : GoesKept σ (execGsendRetire p t s) := by
  unfold execGsendRetire
  extract_lets x
  refine goesKept_next.2 (gate_kept hs ?_)
  split
  · exact hs
  split
  · split
    · split
      · exact hs
      extract_lets w m
      have hm : Kept σ m.s := by
        refine List.foldlRecOn (motive := fun m : Mv => Kept σ m.s) _ _ hs fun m hm sv _ => Mv.bind_kept hm fun s hs => ?_
        extract_lets a f
        split
        exacts [hs, writeHbm_kept (s := { s with free := s.free + 1 }) hs ‹_›]
      split
      · exact dmaStop_kept hm _ _ _
      · exact setTile_kept hm ((Tile.touch_memOk _ _).trans ·)
    · exact hs
  · exact hs
theorem svuElems_kept (hs : Kept σ s) (p : Nat) (i : Inst) (a wid n : Nat) : EndsKept σ (svuElems s p i a wid n) := by
  have h := readDva_kept hs p i.ctx i.mapVer a (wid * n) 16
  unfold svuElems
  split
  exacts [.of_error (h.stop ‹_›), .of_ok (h.ok ‹_›)]
theorem svuStreams_kept (hs : Kept σ s) (p : Nat) (i : Inst) (wid n : Nat) (l : List Nat) : EndsKept σ (svuStreams s p i wid n l) := by
  induction l generalizing s with
  | nil => exact .of_ok hs
  | cons a l ih =>
    have h := svuElems_kept hs p i a wid n
    unfold svuStreams
    split
    · exact .of_error (h.stop ‹_›)
    · exact .of_ok (h.ok ‹_›)
    have h1 := ih (h.ok ‹_›)
    split
    exacts [.of_error (h1.stop ‹_›), .of_ok (h1.ok ‹_›), .of_ok (h1.ok ‹_›)]
theorem lyTrained_kept (hs : Kept σ s) (p : Nat) (i : Inst) (row : Nat) : EndsKept σ (lyTrained s p i row) := by
  unfold lyTrained
  extract_lets l b
  split
  · exact .of_ok hs
  have h := readHbm_kept hs p i.ctx i.mapVer (lyMaskPtr l + b / 8) 1 16
  split
  exacts [.of_error (h.stop ‹_›), .of_ok (h.ok ‹_›)]
theorem svuGroup_kept (hs : Kept σ s) (p : Nat) (i : Inst) (o : Nat) : EndsKept σ (svuGroup s p i o) := by
  unfold svuGroup
  extract_lets d l P prog wid prog'
  split
  · have h := lyTrained_kept hs p i (o / lyRowBytes l)
    split
    · exact .of_error (h.stop ‹_›)
    · exact .of_ok (h.ok ‹_›)
    all_goals
      have h1 := fun l => svuStreams_kept (h.ok ‹_›) p i 4 32 l
      split
      exacts [.of_error ((h1 _).stop ‹_›), .of_ok ((h1 _).ok ‹_›), .of_ok ((h1 _).ok ‹_›)]
  · have h := svuStreams_kept hs p i wid 32 (svuInputs i o)
    split
    exacts [.of_error (h.stop ‹_›), .of_ok (h.ok ‹_›), .of_ok (h.ok ‹_›)]
theorem execSvuStreamGroup_kept (hs : Kept σ s) (p : Fin 8) (inst : Nat) (svu : Fin 768) :
    GoesKept σ (execSvuStreamGroup p inst svu s) := by
  unfold execSvuStreamGroup
  refine goesKept_next.2 (gate_kept hs ?_)
  split
  · exact hs
  split
  · exact hs
  split
  · exact hs
  extract_lets k per
  split
  · exact hs
  extract_lets o
  have h := fun i => svuGroup_kept hs p i o
  split
  · exact accKill_kept ((h _).error ‹_›) _ _ _
  · have h1 := (h _).ok ‹_›
    split
    exacts [failNode_kept h1 _ _ _ _, failNode_kept h1 _ _ _ _]
  have h1 := (h _).ok ‹_›
  split
  · exact accKill_kept h1 _ _ _
  · exact setInst_kept h1

/-! The functions of Commit. -/

theorem commitWrite_kept (hs : Kept σ s) (p : Nat) (i : Inst) (counted : Bool) (dva : Nat) (bs : List Byte) :
    Kept σ (commitWrite s p i counted dva bs) := by
  grind [commitWrite, writeDva_kept, chargeHbm_kept, kept_iff]
theorem publish_kept (hs : Kept σ s) (p n : Nat) (i : Inst) : Kept σ (publish s p n i) := by
  grind [publish, commitWrite_kept, nodeEvent_kept, foldl_kept]
theorem svuCommit_kept (hs : Kept σ s) (p : Nat) (i : Inst) : Kept σ (svuCommit s p i) := by
  grind [svuCommit, commitWrite_kept, foldl_kept]
theorem commitStep1_kept (hs : Kept σ s) (p n : Nat) (i : Inst) : Kept σ (commitStep1 s p n i) := by
  grind [commitStep1, commitWrite_kept, svuCommit_kept, publish_kept, foldl_kept]
theorem sendNacks_kept (hs : Kept σ s) (p n : Nat) (i : Inst) (sts : List Nat) : Kept σ (sendNacks s p n i sts) := by
  grind [sendNacks, nodeEvent_kept, foldl_kept]
theorem commitStep2_kept (hs : Kept σ s) (p n : Nat) (i : Inst) : Kept σ (commitStep2 s p n i) := by
  grind [commitStep2, setPart_kept, activateArms_kept, modInst_kept, sendAll_kept, sendNacks_kept, kept_iff]
theorem raiseVector_kept (hs : Kept σ s) (k v : Nat) : Kept σ (raiseVector s k v) := by
  grind [raiseVector, setFn_kept, post_kept, Fn.memOk, kept_iff]
theorem bumpMaps_kept (hs : Kept σ s) (c : Nat) : Kept σ (bumpMaps s c) := by
  grind [bumpMaps, setPart_kept, foldl_kept, kept_iff]
theorem bindWindows_kept (hs : Kept σ s) (c b g : Nat) (ps : List Nat) : Kept σ (bindWindows s c b g ps) := by
  grind [bindWindows, bumpMaps_kept, setCtx_kept, foldl_kept]
theorem bindWindow_kept (hs : Kept σ s) (c b g p : Nat) : Kept σ (bindWindow s c b g p) := by
  grind [bindWindow, bindWindows_kept]
theorem boundaryTables_kept (hs : Kept σ s) (p : Nat) : Kept σ (boundaryTables s p) := by
  grind [boundaryTables, setCp_kept, foldl_kept, kept_iff]
theorem boundaryGrants_kept (hs : Kept σ s) (p : Nat) : Kept σ (boundaryGrants s p) := by
  grind [boundaryGrants, kept_iff]
theorem boundaryUnbind_kept (hs : Kept σ s) (p : Nat) : Kept σ (boundaryUnbind s p) := by
  grind [boundaryUnbind, bindWindow_kept, foldl_kept]
theorem boundary_kept (hs : Kept σ s) (p : Nat) : Kept σ (boundary s p) :=
  setPart_kept (boundaryUnbind_kept (boundaryGrants_kept (boundaryTables_kept hs p) p) p) id
theorem boundaryIfIdle_kept (hs : Kept σ s) (p : Nat) : Kept σ (boundaryIfIdle s p) := by
  grind [boundaryIfIdle, boundary_kept]
theorem epochRemap_kept (hs : Kept σ s) (p : Nat) (i : Inst) : Kept σ (epochRemap s p i) := by
  grind [epochRemap, bindWindow_kept]
theorem localSignal_kept (hs : Kept σ s) (i : Inst) : Kept σ (localSignal s i) := by
  grind [localSignal, setFence_kept]
theorem settleAborts_kept (hs : Kept σ s) (p : Nat) : Kept σ (settleAborts s p) := by
  grind [settleAborts, endOp_kept, foldl_kept, kept_iff]
theorem commitTiles_kept (hs : Kept σ s) (p n : Nat) : Kept σ (commitTiles s p n) := by
  unfold commitTiles
  refine foldl_kept hs _ fun s t hs => ?_
  have h : ∀ r, Kept σ (s.setTile p t (commitTile (s.tile p t) r)) := fun r => setTile_kept hs id
  grind
theorem commitEnd_kept (hs : Kept σ s) (p n : Nat) : Kept σ (commitEnd s p n) := by
  unfold commitEnd
  split
  · exact hs
  · extract_lets s1 s2 P s3
    have h2 : Kept σ s2 := commitTiles_kept (releaseRefs_kept (.ite (raiseVector_kept hs _ _) hs) _ _) _ _
    clear_value s2
    have h3 : Kept σ s3 := setInst_kept (setPart_kept h2 (by exact id))
    exact boundary_kept (settleAborts_kept (settle_kept h3 _ _) _) _
theorem commitRest_kept (hs : Kept σ s) (p n : Nat) : Kept σ (commitRest s p n) := by
  unfold commitRest
  split
  · exact hs
  extract_lets s1 isLocal stale s2 bad f rs s3
  have h1 : Kept σ s1 := .ite (post_kept hs) (.ite (epochRemap_kept hs _ _) hs)
  have h2 : Kept σ s2 := .ite (noteEvent_kept (logEvent_kept h1) _ _ _) (.ite (localSignal_kept h1 _) h1)
  have h3 : Kept σ s3 := modInst_kept (ownFence_kept h2 _ _)
  split
  · exact h3
  · extract_lets s4
    have h4 : Kept σ s4 := putRecord_kept h3 _ _ _ _ _ _
    exact .ite (modInst_kept h4) (commitEnd_kept h4 _ _)
theorem dropRecord_kept (hs : Kept σ s) (p n : Nat) (i : Inst) : Kept σ (dropRecord s p n i) := by
  grind [dropRecord, setCp_kept]
theorem commitNode_kept (hs : Kept σ s) (p n : Nat) : Kept σ (commitNode s p n) := by
  unfold commitNode
  split
  · exact hs
  extract_lets s0 s1 s2
  have h1 : Kept σ s1 := setInst_kept (dropRecord_kept (traceRec_kept hs _ _ _ _ _ _) _ _ _)
  have h2 : Kept σ s2 := commitStep2_kept (commitStep1_kept h1 _ _ _) _ _ _
  split
  · exact h2
  · exact .ite h2 (commitRest_kept h2 _ _)
theorem copyFail_kept (hs : Kept σ s) (p n st : Nat) : Kept σ (copyFail s p n st) := by
  grind [copyFail, failNode_kept, kept_iff]
theorem commitOn_kept (hs : Kept σ s) (p n : Nat) : Kept σ (commitOn s p n) := by
  grind [commitOn, commitRest_kept, kept_iff]
theorem resumeCommits_kept (hs : Kept σ s) (p : Nat) : Kept σ (resumeCommits s p) := by
  grind [resumeCommits, commitOn_kept, foldl_kept]
theorem ackTxn_kept (hs : Kept σ s) (p id : Nat) (t : Txn) (st : Nat) : Kept σ (ackTxn s p id t st) := by
  grind [ackTxn, setPart_kept, setInst_kept, copyFail_kept, modInst_kept, sendNacks_kept, commitOn_kept, kept_iff]
theorem sendUnsent_kept (hs : Kept σ s) (p : Nat) : Kept σ (sendUnsent s p) := by
  unfold sendUnsent
  refine foldl_kept hs _ fun s n hs => ?_
  split
  · exact hs
  refine .ite hs ?_
  extract_lets copy r s1
  have h1 : Kept σ s1 := modInst_kept (sendAll_kept hs _ _ _ _ _)
  split
  · exact h1
  · exact copyFail_kept (modInst_kept h1) _ _ _
  · exact commitOn_kept (sendNacks_kept h1 _ _ _ _) _ _
theorem takeAck_kept (hs : Kept σ s) (p : Nat) (q : Packet) : Kept σ (takeAck s p q) := by
  grind [takeAck, setPart_kept, logEvent_kept, sendUnsent_kept, ackTxn_kept, kept_iff]
theorem armEnded_kept (hs : Kept σ s) (p n : Nat) : Kept σ (armEnded s p n) := by
  grind [armEnded, commitOn_kept, setInst_kept, kept_iff]

/-! The functions of Sfu. -/

theorem execSfn_kept (hs : Kept σ s) (p : Fin 8) (t : Fin 16) : GoesKept σ (execSfn p t s) := by
  grind [execSfn, goesKept_next, issue_kept, illegal_kept, withRegs_kept, killTile_kept, finish_kept, Tile.setV_memOk, Tile.memOk,
    kept_iff]
theorem execSglu_kept (hs : Kept σ s) (p : Fin 8) (t : Fin 16) : GoesKept σ (execSglu p t s) := by
  grind [execSglu, goesKept_next, issue_kept, illegal_kept, withRegs_kept, killTile_kept, finish_kept, Tile.setV_memOk, Tile.memOk,
    kept_iff]
theorem execSmpr_kept (hs : Kept σ s) (p : Fin 8) (t : Fin 16) : GoesKept σ (execSmpr p t s) := by
  grind [execSmpr, goesKept_next, issue_kept, illegal_kept, failTile_kept, withRegs_kept, killTile_kept, finish_kept, Tile.setV_memOk,
    Tile.memOk, kept_iff]

/-! The functions of Cp. -/

theorem refuse_kept (hs : Kept σ s) (p n code : Nat) (more : List Nat) : Kept σ (refuse s p n code more) := by
  grind [refuse, failNode_kept, kept_iff]
theorem startRun_kept (hs : Kept σ s) (p n : Nat) (i : Inst) : Kept σ (startRun s p n i) := by
  grind [startRun, setInst_kept, kept_iff]
theorem dispatchNode_kept (hs : Kept σ s) (p n : Nat) {fits : Inst → Bool} {go : State → Inst → State}
    (hgo : ∀ s i, Kept σ s → Kept σ (go s i)) : Kept σ (dispatchNode s p n fits go) := by
  grind [dispatchNode, abandon_kept, boundary_kept, refuse_kept, startRun_kept, traceRec_kept]
theorem withRanges_kept (hs : Kept σ s) (p n : Nat) (rs : List Named) {k : State → State} (hk : Kept σ (k s)) :
    Kept σ (withRanges s p n rs k) := by
  unfold withRanges
  split
  · exact hk
  · exact accKill_kept hs _ _ _
  · exact refuse_kept hs _ _ _ _
theorem plainRead_kept (hs : Kept σ s) (p n : Nat) (i : Inst) (a len : Nat) {k : State → List Byte → State}
    (hk : ∀ s bs, Kept σ s → Kept σ (k s bs)) : Kept σ (plainRead s p n i a len k) := by
  have h := readDva_kept hs p i.ctx i.mapVer a len 18
  unfold plainRead
  split
  · exact accKill_kept (h.error ‹_›) _ _ _
  split
  exacts [failNode_kept (h.ok ‹_›) _ _ _ _, hk _ _ (h.ok ‹_›)]
theorem nodeRead_kept (hs : Kept σ s) (p n : Nat) (i : Inst) (a len : Nat) {k : State → List Byte → State}
    (hk : ∀ s bs, Kept σ s → Kept σ (k s bs)) : Kept σ (nodeRead s p n i a len k) := by
  have h := readHbm_kept hs p i.ctx i.mapVer a len 18
  unfold nodeRead
  split
  · exact regDisabled_kept hs _ _
  split
  · exact accKill_kept (h.error ‹_›) _ _ _
  split
  exacts [failNode_kept (h.ok ‹_›) _ _ _ _, hk _ _ (h.ok ‹_›)]
theorem takeRefs_kept (hs : Kept σ s) (p n : Nat) (i : Inst) : Kept σ (takeRefs s p n i) := by
  grind [takeRefs, setCp_kept, modInst_kept, kept_iff]
/-- A tile that takes an image keeps its memories canonical: another context's bytes are zeroed. -/
theorem loadTile_memOk {x : Tile} (h : x.memOk = true) (n t now : Nat) (i : Inst) (cb mp : Nat) :
    (loadTile x n t now i cb mp).memOk = true := by
  obtain ⟨_, _, _, _, e⟩ := x.takeImage_frame (patch i.image i.args t) (i.reruns != 0 || i.preempts != 0)
  unfold loadTile
  rw [e]
  dsimp only
  split
  · exact h
  · rfl

theorem startTiles_kept (hs : Kept σ s) (p n : Nat) : Kept σ (startTiles s p n) := by
  unfold startTiles
  split
  · exact hs
  · exact foldl_kept hs _ fun s t hs => setTile_kept hs (loadTile_memOk · _ _ _ _ _ _)
theorem refuseSlot_kept (hs : Kept σ s) (p n : Nat) (i : Inst) (code : Nat) (slot : List Nat) :
    Kept σ (refuseSlot s p n i code slot) := by
  grind [refuseSlot, failNode_kept]
theorem withImage_kept (hs : Kept σ s) (p n : Nat) (i : Inst) {k : State → List Nat → State}
    (hk : ∀ s image, Kept σ s → Kept σ (k s image)) : Kept σ (withImage s p n i k) := by
  unfold withImage
  split
  · exact hk _ _ hs
  · exact nodeRead_kept hs _ _ _ _ _ fun s bs hs => hk _ _ hs
theorem kernelGo_kept (hs : Kept σ s) (p n : Nat) (i : Inst) (args : List Nat) : Kept σ (kernelGo s p n i args) := by
  grind [kernelGo, withImage_kept, refuse_kept, refuseSlot_kept, modInst_kept, startTiles_kept, takeRefs_kept, kept_iff]
theorem execKernelDispatch_kept (hs : Kept σ s) (p : Fin 8) (inst : Nat) : GoesKept σ (execKernelDispatch p inst s) := by
  grind [execKernelDispatch, goesKept_next, gate_kept, dispatchNode_kept, startTiles_kept, refuse_kept, withRanges_kept, nodeRead_kept,
    kernelGo_kept, kept_iff]
theorem Tile.setWords_memOk (x : Tile) (h : Nat) (image : List Nat) : (x.setWords h image).memOk = x.memOk := by
  unfold Tile.setWords
  dsimp only
  split <;> rfl

theorem execKernelImageLoadDone_kept (hs : Kept σ s) (p : Fin 8) (inst : Nat) : GoesKept σ (execKernelImageLoadDone p inst s) := by
  unfold execKernelImageLoadDone
  refine goesKept_next.2 ?_
  split
  · exact hs
  extract_lets v
  split
  · exact hs
  have h := fun i => readHbm_kept hs p i v
  split
  · exact (h _ _ _ _).error ‹_›
  have h1 := (h _ _ _ _).ok ‹_›
  split
  · exact h1
  · exact gate_kept hs (foldl_kept h1 _ fun s t hs => setTile_kept hs ((Tile.setWords_memOk _ _ _).trans))
theorem layerTotals_kept (hs : Kept σ s) (p : Nat) (i : Inst) (l : List Nat) : EndsKept σ (layerTotals s p i l) := by
  unfold layerTotals
  refine List.foldlRecOn (motive := EndsKept σ) _ _ (EndsKept.of_ok hs) fun acc hacc k _ => ?_
  rcases acc with e | ⟨⟨⟩ | tot, t⟩
  · exact hacc
  · exact hacc
  have h := readHbm_kept (hacc.ok rfl) p i.ctx i.mapVer (lyStat l + 64 * k) 64 16
  dsimp only
  split
  · exact .of_error (h.stop ‹_›)
  split
  exacts [.of_ok (h.ok ‹_›), .of_ok (h.ok ‹_›)]
theorem svuStart_kept (hs : Kept σ s) (p n : Nat) (d l hp tot : List Nat) : Kept σ (svuStart s p n d l hp tot) := by
  grind [svuStart, modInst_kept, kept_iff]
theorem layerStart_kept (hs : Kept σ s) (p n : Nat) (i : Inst) (d : List Nat) : Kept σ (layerStart s p n i d) := by
  unfold layerStart
  extract_lets la data closed
  split
  · exact regDisabled_kept hs _ _
  have h := readHbm_kept hs p i.ctx i.mapVer la 64 16
  split
  · exact accKill_kept (h.error ‹_›) _ _ _
  · exact failNode_kept (h.error ‹_›) _ _ _ _
  have h1 := h.ok ‹_›
  split
  · exact failNode_kept h1 _ _ _ _
  extract_lets l
  split
  · exact failNode_kept h1 _ _ _ _
  split
  · exact regDisabled_kept h1 _ _
  have ht := layerTotals_kept h1 p i l
  split
  · exact accKill_kept (ht.error ‹_›) _ _ _
  · exact failNode_kept (ht.ok ‹_›) _ _ _ _
  have hh := readHbm_kept (ht.ok ‹_›) p i.ctx i.mapVer (lyHp l) 64 16
  split
  · exact accKill_kept (hh.error ‹_›) _ _ _
  split
  · exact failNode_kept (hh.ok ‹_›) _ _ _ _
  · exact svuStart_kept (hh.ok ‹_›) _ _ _ _ _ _
theorem streamStart_kept (hs : Kept σ s) (p n : Nat) (i : Inst) (d : List Nat) : Kept σ (streamStart s p n i d) := by
  unfold streamStart
  split
  · exact accKill_kept hs _ _ _
  · exact failNode_kept hs _ _ _ _
  split
  · exact failNode_kept hs _ _ _ _
  split
  · exact regDisabled_kept hs _ _
  have h := readHbm_kept hs p i.ctx i.mapVer (addr48 d 2) 64 16
  split
  · exact accKill_kept (h.error ‹_›) _ _ _
  split
  · exact failNode_kept (h.ok ‹_›) _ _ _ _
  · exact svuStart_kept (h.ok ‹_›) _ _ _ _ _ _
theorem execSvuKernelDispatch_kept (hs : Kept σ s) (p : Fin 8) (inst : Nat) : GoesKept σ (execSvuKernelDispatch p inst s) := by
  grind [execSvuKernelDispatch, goesKept_next, gate_kept, dispatchNode_kept, svuStart_kept, refuse_kept, withRanges_kept, nodeRead_kept,
    failNode_kept, layerStart_kept, streamStart_kept, kept_iff]

/-! The functions of NodeTypes. -/

theorem askPages_kept (hs : Kept σ s) (k : Nat) (ps : List Nat) : Kept σ (askPages s k ps) := by
  grind [askPages, setFn_kept, Fn.memOk, kept_iff]
theorem condIo_kept (hs : Kept σ s) (p n : Nat) (i : Inst) : Kept σ (condIo s p n i) := by
  grind [condIo, nodeEvent_kept, abandon_kept, raise_kept, modInst_kept, kept_iff]
theorem condRead_kept (hs : Kept σ s) (p n : Nat) (i : Inst) (rd : HostRd) {k : State → Nat → State}
    (hk : ∀ s v, Kept σ s → Kept σ (k s v)) : Kept σ (condRead s p n i rd k) := by
  unfold condRead
  extract_lets good
  have hgood : ∀ s bs, Kept σ s → Kept σ (good s bs) := fun s bs hs => hk _ _ (modInst_kept hs)
  split
  · split
    exacts [hgood _ _ hs, condIo_kept hs _ _ _, askPages_kept hs _ _, askPages_kept hs _ _, failNode_kept hs _ _ _ _]
  · exact plainRead_kept hs _ _ _ _ _ hgood
theorem pollAgain_kept (hs : Kept σ s) (p n uss : Nat) : Kept σ (pollAgain s p n uss) := by
  grind [pollAgain, modInst_kept, kept_iff]
theorem endExec_kept (hs : Kept σ s) (p n : Nat) : Kept σ (endExec s p n) := by
  grind [endExec, modInst_kept, kept_iff]
theorem execWaitFence_kept (hs : Kept σ s) (p : Fin 8) (inst : Nat) : GoesKept σ (execWaitFence p inst s) := by
  grind [execWaitFence, goesKept_next, dispatchNode_kept, refuse_kept, modInst_kept, kept_iff]
theorem waitPoll_kept (hs : Kept σ s) (p n : Nat) (i : Inst) (rd : HostRd) : Kept σ (waitPoll s p n i rd) := by
  grind [waitPoll, condRead_kept, endExec_kept, pollAgain_kept]
theorem execWaitMemoryPoll_kept (hs : Kept σ s) (p : Fin 8) (inst : Nat) (rd : HostRd) : GoesKept σ (execWaitMemoryPoll p inst rd s) := by
  grind [execWaitMemoryPoll, goesKept_next, waitPoll_kept, dispatchNode_kept, refuse_kept, withRanges_kept, kept_iff]
theorem condPoll_kept (hs : Kept σ s) (p n : Nat) (i : Inst) (rd : HostRd) : Kept σ (condPoll s p n i rd) := by
  grind [condPoll, condRead_kept, pollAgain_kept, modInst_kept, kept_iff]
theorem execCondPoll_kept (hs : Kept σ s) (p : Fin 8) (inst : Nat) (rd : HostRd) : GoesKept σ (execCondPoll p inst rd s) := by
  grind [execCondPoll, goesKept_next, condPoll_kept, dispatchNode_kept, refuse_kept, withRanges_kept, kept_iff]
theorem execWaitTimeout_kept (hs : Kept σ s) (p : Fin 8) (inst : Nat) : GoesKept σ (execWaitTimeout p inst s) := by
  grind [execWaitTimeout, goesKept_next, failNode_kept, kept_iff]
theorem instantiate_kept (hs : Kept σ s) (p c seg : Nat) (nodes : List (List Nat)) (parent : Option Nat) (iter : Nat) :
    Kept σ (instantiate s p c seg nodes parent iter) := by
  grind [instantiate, setPart_kept, setCp_kept, settle_kept, foldl_kept, kept_iff]
theorem execCall_kept (hs : Kept σ s) (p : Fin 8) (inst : Nat) : GoesKept σ (execCall p inst s) := by
  grind [execCall, goesKept_next, dispatchNode_kept, endExec_kept, refuse_kept, instantiate_kept, kept_iff]
theorem loopStep_kept (hs : Kept σ s) (p n : Nat) (i : Inst) (rd : HostRd) : Kept σ (loopStep s p n i rd) := by
  grind [loopStep, modInst_kept, refuse_kept, instantiate_kept, condRead_kept, kept_iff]
theorem execLoopIterationStart_kept (hs : Kept σ s) (p : Fin 8) (inst : Nat) (rd : HostRd) :
    GoesKept σ (execLoopIterationStart p inst rd s) := by
  grind [execLoopIterationStart, goesKept_next, loopStep_kept, dispatchNode_kept, endExec_kept, refuse_kept, withRanges_kept, kept_iff]
theorem routeDisabled_kept (hs : Kept σ s) (p n m : Nat) : Kept σ (routeDisabled s p n m) := by
  grind [routeDisabled, failNode_kept, kept_iff]
theorem execSignal_kept (hs : Kept σ s) (p : Fin 8) (inst : Nat) : GoesKept σ (execSignal p inst s) := by
  grind [execSignal, goesKept_next, dispatchNode_kept, refuse_kept, routeDisabled_kept, withRanges_kept, askPages_kept, modInst_kept,
    kept_iff]
theorem stage_kept (hs : Kept σ s) (p n : Nat) (bs : List Byte) : Kept σ (stage s p n bs) := by
  grind [stage, setPart_kept, modInst_kept, kept_iff]
theorem sendStage_kept (hs : Kept σ s) (p n : Nat) (i : Inst) : Kept σ (sendStage s p n i) := by
  grind [sendStage, nodeRead_kept, stage_kept, failNode_kept]
theorem sendGo_kept (hs : Kept σ s) (p n : Nat) (i : Inst) : Kept σ (sendGo s p n i) := by
  grind [sendGo, endExec_kept, refuse_kept, routeDisabled_kept, regDisabled_kept, withRanges_kept, sendStage_kept, kept_iff]
theorem execSend_kept (hs : Kept σ s) (p : Fin 8) (inst : Nat) : GoesKept σ (execSend p inst s) := by
  grind [execSend, goesKept_next, gate_kept, dispatchNode_kept, sendGo_kept]
theorem execSendArm_kept (hs : Kept σ s) (p : Fin 8) (inst : Nat) : GoesKept σ (execSendArm p inst s) := by
  grind [execSendArm, goesKept_next, gate_kept, dispatchNode_kept, sendGo_kept]
theorem execEpoch_kept (hs : Kept σ s) (p : Fin 8) (inst : Nat) : GoesKept σ (execEpoch p inst s) := by
  grind [execEpoch, goesKept_next, dispatchNode_kept, refuse_kept, endExec_kept, failNode_kept, kept_iff]
theorem execEvent_kept (hs : Kept σ s) (p : Fin 8) (inst : Nat) : GoesKept σ (execEvent p inst s) := by
  grind [execEvent, goesKept_next, dispatchNode_kept, refuse_kept, endExec_kept]
theorem execJoin_kept (hs : Kept σ s) (p : Fin 8) (inst : Nat) : GoesKept σ (execJoin p inst s) := by
  grind [execJoin, goesKept_next, dispatchNode_kept, refuse_kept, endExec_kept]

/-! The functions of CommitCmds. -/

theorem breakPath_kept (hs : Kept σ s) (c p : Nat) (node : List Nat) : Kept σ (breakPath s c p node) := by
  grind [breakPath, setCp_kept, logEvent_kept, commitEnd_kept, foldl_kept, kept_iff]
theorem ringRoom_kept (hs : Kept σ s) (p n : Nat) (i : Inst) (cons : HostRd) : Kept σ (ringRoom s p n i cons).2 := by
  unfold ringRoom
  split
  · exact hs
  extract_lets x
  split
  · exact hs
  split
  · exact hs
  split
  · exact hs
  split
  exacts [breakPath_kept hs _ _ _, askPages_kept hs _ _]
theorem execNodeCommit_kept (hs : Kept σ s) (p : Fin 8) (inst : Nat) (cons : HostRd) : GoesKept σ (execNodeCommit p inst cons s) := by
  grind [execNodeCommit, goesKept_next, gate_kept, resolveNode_kept, failNode_kept, ringRoom_kept, commitNode_kept, kept_iff]
theorem execCompletionRecordWrite_kept (hs : Kept σ s) (p : Fin 8) (ctx : Fin 64) (cons : HostRd) :
    GoesKept σ (execCompletionRecordWrite p ctx cons s) := by
  unfold execCompletionRecordWrite
  extract_lets x fn
  refine goesKept_next.2 ?_
  split
  · refine .ite hs ?_
    extract_lets at_ size ph s1 s2
    split
    · extract_lets used
      have h2 : Kept σ s2 := post_kept (setCp_kept hs)
      refine .ite hs ?_
      split
      · exact .ite (commitEnd_kept h2 _ _) h2
      · exact h2
    · exact .ite (breakPath_kept hs _ _ _) (askPages_kept hs _ _)
  · exact hs
theorem execNodeBudget_kept (hs : Kept σ s) (p : Fin 8) (inst : Nat) : GoesKept σ (execNodeBudget p inst s) := by
  grind [execNodeBudget, goesKept_next, killNode_kept, kept_iff]
theorem execNodeIo_kept (hs : Kept σ s) (p : Fin 8) (inst : Nat) : GoesKept σ (execNodeIo p inst s) := by
  grind [execNodeIo, goesKept_next, killNode_kept, condIo_kept, kept_iff]
theorem dropTxns_kept (hs : Kept σ s) (p n : Nat) : Kept σ (dropTxns s p n) := by
  grind [dropTxns, modInst_kept, sendUnsent_kept, setPart_kept, kept_iff]
theorem execSendAckTimeout_kept (hs : Kept σ s) (p : Fin 8) (inst : Nat) : GoesKept σ (execSendAckTimeout p inst s) := by
  grind [execSendAckTimeout, goesKept_next, nodeEvent_kept, dropTxns_kept, dropArm_kept, commitRest_kept, modInst_kept, kept_iff]
theorem execFabricCopyAckTimeout_kept (hs : Kept σ s) (p : Fin 8) (inst : Nat) : GoesKept σ (execFabricCopyAckTimeout p inst s) := by
  grind [execFabricCopyAckTimeout, goesKept_next, copyFail_kept, dropTxns_kept, modInst_kept, kept_iff]
theorem execDeadlockCheck_kept (hs : Kept σ s) : GoesKept σ (execDeadlockCheck s) := by
  unfold execDeadlockCheck
  extract_lets cs victims s1
  have h1 : Kept σ s1 := foldl_kept hs _ fun s x hs => by
    split
    exacts [failNode_kept hs _ _ _ _, hs]
  exact goesKept_next.2 h1

/-! The functions of Copy. -/

theorem weightEvent_kept (hs : Kept σ s) (p c code : Nat) (data : List Nat) : Kept σ (weightEvent s p c code data) := by
  grind [weightEvent, logEvent_kept]
theorem chunkBad_kept (hs : Kept σ s) (p n : Nat) (i : Inst) (img c : Nat) : Kept σ (chunkBad s p n i img c) := by
  unfold chunkBad
  extract_lets d s1 im nv s2
  have h1 : Kept σ s1 := weightEvent_kept (weightEvent_kept hs _ _ _ _) _ _ _ _
  have h2 : Kept σ s2 := by
    clear_value im
    cases im <;> exact h1
  exact failNode_kept h2 _ _ _ _
theorem streamRead_kept (hs : Kept σ s) (p : Nat) (chunks : List Nat) (media : Bool) (read : Except Nat (List Byte)) :
    Kept σ (streamRead s p chunks media read).2 := by
  grind [streamRead, takeFree_kept, charge_kept, kept_iff]
theorem copySource_kept (hs : Kept σ s) (p n : Nat) (i : Inst) (src : HostRd) {k : State → List Byte → State}
    (hk : ∀ s bs, Kept σ s → Kept σ (k s bs)) : Kept σ (copySource s p n i src k) := by
  unfold copySource
  extract_lets ps s0
  refine .ite (nodeRead_kept hs _ _ _ _ _ hk) (.ite ?_ ?_)
  · have h0 : Kept σ s0 := .ite (modInst_kept hs) hs
    clear_value ps s0
    split
    · exact hk _ _ (charge_kept h0 _ _ _)
    · exact killNode_kept h0 _ _ _ _
    · exact modInst_kept (askPages_kept hs _ _)
    · exact modInst_kept (askPages_kept hs _ _)
    · exact failNode_kept h0 _ _ _ _
  · split
    · exact refuse_kept hs _ _ _ _
    extract_lets im a r
    have hr : Kept σ r.2 := streamRead_kept hs _ _ _ _
    split
    exacts [chunkBad_kept hr _ _ _ _ _, hk _ _ hr]
theorem copyRdma_kept (hs : Kept σ s) (p n : Nat) (i : Inst) (bs : List Byte) : Kept σ (copyRdma s p n i bs) := by
  grind [copyRdma, refuse_kept, failNode_kept, charge_kept, kept_iff]
theorem copyFabric_kept (hs : Kept σ s) (p n : Nat) (i : Inst) (bs : List Byte) : Kept σ (copyFabric s p n i bs) := by
  grind [copyFabric, sendAll_kept, copyFail_kept, modInst_kept, kept_iff]
theorem copyPost_kept (hs : Kept σ s) (p n : Nat) (i : Inst) (bs : List Byte) : Kept σ (copyPost s p n i bs) := by
  grind [copyPost, post_kept, endExec_kept, charge_kept]
theorem copyDest_kept (hs : Kept σ s) (p n : Nat) (i : Inst) (bs : List Byte) : Kept σ (copyDest s p n i bs) := by
  grind [copyDest, writeHbm_kept, accKill_kept, endExec_kept, copyPost_kept, askPages_kept, modInst_kept, copyFabric_kept, copyRdma_kept,
    kept_iff]
theorem copyGo_kept (hs : Kept σ s) (p n : Nat) (i : Inst) {k : State → State} (hk : Kept σ (k s)) :
    Kept σ (copyGo s p n i k) :=
  .ite (refuse_kept hs _ _ _ _) (.ite (refuse_kept hs _ _ _ _) (.ite (routeDisabled_kept hs _ _ _)
    (.ite (regDisabled_kept hs _ _) (withRanges_kept hs _ _ _ hk))))
theorem copyNode_kept (hs : Kept σ s) (p n mode : Nat) (fits : Inst → Bool) {k : State → Inst → State}
    (hk : ∀ s i, Kept σ s → Kept σ (k s i)) : Kept σ (copyNode s p n mode fits k) := by
  unfold copyNode
  extract_lets mine
  refine gate_kept hs ?_
  split
  · exact hs
  · exact .ite (.ite (hk _ _ hs) hs) (dispatchNode_kept hs _ _ fun s i hs => copyGo_kept hs _ _ _ (hk _ _ hs))
theorem execCopyLinear_kept (hs : Kept σ s) (p : Fin 8) (inst : Nat) (src : HostRd) : GoesKept σ (execCopyLinear p inst src s) := by
  grind [execCopyLinear, goesKept_next, copyNode_kept, copySource_kept, copyDest_kept]
theorem execCopyNvwsStream_kept (hs : Kept σ s) (p : Fin 8) (inst : Nat) (src : HostRd) :
    GoesKept σ (execCopyNvwsStream p inst src s) := by
  grind [execCopyNvwsStream, goesKept_next, copyNode_kept, copySource_kept, copyDest_kept]
theorem execCopyFabric_kept (hs : Kept σ s) (p : Fin 8) (inst : Nat) (src : HostRd) : GoesKept σ (execCopyFabric p inst src s) := by
  grind [execCopyFabric, goesKept_next, copyNode_kept, copySource_kept, copyFabric_kept]
theorem execCopyRdma_kept (hs : Kept σ s) (p : Fin 8) (inst : Nat) (src : HostRd) : GoesKept σ (execCopyRdma p inst src s) := by
  grind [execCopyRdma, goesKept_next, copyNode_kept, copySource_kept, copyRdma_kept]
theorem takeAnswer_kept (hs : Kept σ s) (p n : Nat) (a : NodeAnswer) : Kept σ (takeAnswer s p n a) := by
  grind [takeAnswer, setInst_kept, killNode_kept, failNode_kept, kept_iff]
theorem answered_kept (hs : Kept σ s) (p n : Nat) (a : NodeAnswer) : Kept σ (answered s p n a) := by
  grind [answered, setPart_kept, takeAnswer_kept, kept_iff]
theorem translated_kept (hs : Kept σ s) (p n : Nat) : Kept σ (translated s p n) := by
  grind [translated, copyPost_kept, modInst_kept, endExec_kept, kept_iff]
theorem thaw_kept (hs : Kept σ s) (p : Nat) : Kept σ (thaw s p) := by
  grind [thaw, setPart_kept, takeAck_kept, takeAnswer_kept, resumeCommits_kept, translated_kept, foldl_kept, kept_iff]
theorem kvNodeStop_kept (hs : Kept σ s) (p n : Nat) (i : Inst) (e : KvErr) (seq g tok : Nat) :
    Kept σ (kvNodeStop s p n i e seq g tok) := by
  cases e
  · exact failNode_kept hs _ _ _ _
  · exact failNode_kept hs _ _ _ _
  · exact failNode_kept hs _ _ _ _
  · exact regDisabled_kept hs _ _
  · exact accKill_kept hs _ _ _
theorem exportPage_kept (hs : Kept σ s) (p n : Nat) (i : Inst) (q : List Nat) (g l : Nat) : Kept σ (exportPage s p n i q g l).state := by
  have h := kvPage_kept hs p n i.ctx i.mapVer 0 i.pt (s.cp i.ctx p).cbW 255 false q l g
  unfold exportPage
  extract_lets seq rows
  split
  · exact kvNodeStop_kept (h.error ‹_›) _ _ _ _ _ _ _
  have h1 := h.ok ‹_›
  have h2 := fun a m => kvRead_kept h1 p n i.ctx i.mapVer a m 18
  split
  · exact kvNodeStop_kept ((h2 _ _).error ‹_›) _ _ _ _ _ _ _
  · exact (h2 _ _).ok ‹_›
theorem exportAll_kept (hs : Kept σ s) (p n : Nat) (i : Inst) (q : List Nat) : Kept σ (exportAll s p n i q).state := by
  unfold exportAll
  extract_lets first last gs
  refine List.foldlRecOn (motive := fun o : KvOut => Kept σ o.state) _ _ hs fun o ho x _ => ?_
  split
  · exact ho
  · rename_i s1 bs
    have h1 : Kept σ s1 := ho
    have h := exportPage_kept h1 p n i q x.1 x.2
    split <;> rename_i he <;> rw [he] at h <;> exact h
theorem execKvExport_kept (hs : Kept σ s) (p : Fin 8) (inst : Nat) : GoesKept σ (execKvExport p inst s) := by
  unfold execKvExport
  refine goesKept_next.2 (copyNode_kept hs _ _ _ _ fun s i hs => ?_)
  have h := kvRead_kept hs p inst i.ctx i.mapVer i.src 64 0
  extract_lets g
  split
  · exact kvNodeStop_kept (h.error ‹_›) _ _ _ _ _ _ _
  have h1 := h.ok ‹_›
  extract_lets q
  refine .ite (refuse_kept h1 _ _ _ _) ?_
  have h2 := exportAll_kept h1 p inst i q
  split <;> rename_i he <;> rw [he] at h2
  · exact h2
  · exact .ite (refuse_kept h2 _ _ _ _) (copyDest_kept h2 _ _ _ _)
theorem importPage_kept (hs : Kept σ s) (p n : Nat) (i : Inst) (q : List Nat) (bs : List Byte) :
    Kept σ (importPage s p n i q bs).1.state := by
  unfold importPage
  extract_lets w g tok size page bad
  have hbad : ∀ s, Kept σ s → Kept σ (bad s) := fun s hs => failNode_kept hs _ _ _ _
  clear_value bad
  split
  · exact hbad _ hs
  have h := kvPage_kept hs p n i.ctx i.mapVer 0 i.pt (s.cp i.ctx p).cbW 255 false q (tok / 64) g
  split
  · exact hbad _ (h.error ‹_›)
  · exact kvNodeStop_kept (h.error ‹_›) _ _ _ _ _ _ _
  have h1 := h.ok ‹_›
  split
  · exact hbad _ h1
  split
  · exact regDisabled_kept h1 _ _
  split
  · simp only [KvOut.state]
    exact accKill_kept h1 _ _ _
  · simp only [KvOut.state]
    exact kvNodeStop_kept h1 _ _ _ _ _ _ _
  · exact writeHbm_kept h1 ‹_›
theorem importAll_kept {k : Nat} (hs : Kept σ s) (p n : Nat) (i : Inst) (q : List Nat) (bs : List Byte) (top : Nat) :
    Kept σ (importAll s p n i q k bs top).1.state := by
  induction k generalizing s bs top with
  | zero => exact hs
  | succ k ih =>
    unfold importAll
    split
    · exact hs
    have h := importPage_kept hs p n i q bs
    split <;> rename_i he <;> rw [he] at h
    · exact h
    · exact ih h _ _
theorem execKvImport_kept (hs : Kept σ s) (p : Fin 8) (inst : Nat) (src : HostRd) : GoesKept σ (execKvImport p inst src s) := by
  unfold execKvImport
  refine goesKept_next.2 (copyNode_kept hs _ _ _ _ fun s i hs => copySource_kept hs _ _ _ _ fun s bs hs => ?_)
  have h := kvRead_kept hs p inst i.ctx i.mapVer i.dst 64 0
  split
  · exact kvNodeStop_kept (h.error ‹_›) _ _ _ _ _ _ _
  have h1 := h.ok ‹_›
  extract_lets q
  refine .ite (refuse_kept h1 _ _ _ _) ?_
  have h2 := importAll_kept (k := bs.length / 64 + 1) h1 p inst i q bs 0
  split <;> rename_i he <;> rw [he] at h2
  · exact h2
  · exact modInst_kept h2

/-! The functions of Measure. -/

theorem extendMr_kept (hs : Kept σ s) (i : Nat) (d : List Byte) : Kept σ (extendMr s i d) := by
  grind [extendMr, kept_iff]
theorem extendCmr_kept (hs : Kept σ s) (c opcode : Nat) (bs : List Byte) : Kept σ (extendCmr s c opcode bs) := by
  grind [extendCmr, setCtx_kept, kept_iff]

/-! The functions of Mailbox. -/

theorem okReply_kept (hs : Kept σ s) (k : Nat) (r : Req) (payload : List Nat) : Kept σ (okReply s k r payload) := by
  grind [okReply, reply_kept]
theorem refuseMsg_kept (hs : Kept σ s) (k : Nat) (r : Req) (status detail : Nat) : Kept σ (refuseMsg s k r status detail) := by
  grind [refuseMsg, reply_kept]
theorem checked_kept (hs : Kept σ s) (ht : Kept σ t) (k : Nat) (r : Req) (l : List (Bool × Nat × Nat)) :
    Kept σ (checked s k r l t) := by
  grind [checked, refuseMsg_kept]
theorem refuseTaken_kept (hs : Kept σ s) (k : Nat) (r : Req) (status detail : Nat) : Kept σ (refuseTaken s k r status detail) := by
  grind [refuseTaken, setFn_kept, Fn.memOk, kept_iff]
theorem copiedBuf_kept (hs : Kept σ s) (k : Nat) : Kept σ (copiedBuf s k).2 := by
  unfold copiedBuf
  exact foldl_snd_kept hs _ fun a e ha => takeFree_kept ha
theorem takeRequest_kept (hs : Kept σ s) (k : Nat) : Kept σ (takeRequest s k) := by
  unfold takeRequest
  extract_lets f b hr r' r s' s1 f' s2
  have hb : (copiedBuf s k).2.fn k = s.fn k :=
    List.foldlRecOn (motive := fun a : Mem × State => a.2.fn k = s.fn k) _ _ rfl fun a ha e _ => ha
  have h1 : Kept σ s1 := setFn_kept (copiedBuf_kept hs k) fun h => by
    rw [hb] at h
    exact h
  have h2 : Kept σ s2 := setFn_kept h1 id
  refine .ite (refuseTaken_kept h1 _ _ _ _) (.ite (refuseTaken_kept h2 _ _ _ _) ?_)
  split
  exacts [refuseTaken_kept h2 _ _ _ _, h2]
theorem setGo_kept (hs : Kept σ s) (k : Nat) : Kept σ (setGo s k) := by
  grind [setGo, setFn_kept, Fn.memOk, kept_iff]
theorem execMcpTakeRequest_kept (hs : Kept σ s) (fn : Fin 9) : GoesKept σ (execMcpTakeRequest fn s) := by
  grind [execMcpTakeRequest, goesKept_next, takeRequest_kept]
theorem clearRsp_kept (hs : Kept σ s) (k : Nat) : Kept σ (clearRsp s k) := by
  grind [clearRsp, setFn_kept, Fn.memOk, kept_iff]
theorem putMessage_kept (hs : Kept σ s) (k : Nat) (ws : List Nat) (seq : Nat) : Kept σ (putMessage s k ws seq) := by
  unfold putMessage
  extract_lets f s1
  have h1 : Kept σ s1 := setFn_kept hs fun h => by
    simp only [Fn.memOk, Bool.and_eq_true] at h ⊢
    exact ⟨h.1, memWrite_wf h.2 _ _⟩
  exact .ite (raiseVector_kept h1 _ _) h1
theorem execCmiResponseDelivery_kept (hs : Kept σ s) (fn : Fin 9) : GoesKept σ (execCmiResponseDelivery fn s) := by
  grind [execCmiResponseDelivery, goesKept_next, putMessage_kept, setFn_kept, Fn.memOk, kept_iff]
theorem runMsg_kept (hs : Kept σ s) (k op : Nat) (fits : Req → Bool) {body : State → Req → State}
    (hb : ∀ s r, Kept σ s → Kept σ (body s r)) : Kept σ (runMsg s k op fits body) := by
  unfold runMsg
  split
  · exact hs
  extract_lets s1 pw s2
  have h1 : Kept σ s1 := hs
  have h2 : Kept σ s2 := hs
  have h3 : ∀ ts, Kept σ { s2 with taken := ts } := fun _ => hs
  clear_value s2
  exact .ite hs (.ite (.ite h2 (refuseMsg_kept (h3 _) _ _ _ _)) (.ite (refuseMsg_kept h1 _ _ _ _)
    (.ite (refuseMsg_kept h1 _ _ _ _) (hb _ _ h1))))
theorem runOp_kept (hs : Kept σ s) (k op : Nat) {body : State → Req → State}
    (hb : ∀ s r, Kept σ s → Kept σ (body s r)) : Kept σ (runOp s k op body) := runMsg_kept hs _ _ _ hb
theorem beginOp_kept (hs : Kept σ s) (k : Nat) (r : Req) (todo : List Nat) (a b : Nat) : Kept σ (beginOp s k r todo a b).1 := by
  grind [beginOp, kept_iff]
theorem freshId_kept (hs : Kept σ s) {used : Nat → Bool} {lo n cnt : Nat} {x : Nat × State}
    (h : freshId s used lo n cnt = some x) : Kept σ x.2 := by
  unfold freshId at h
  obtain ⟨i, -, rfl⟩ := Option.map_eq_some_iff.mp h
  exact takeFree_kept hs

/-- A free number is found without touching a partition. -/
theorem freshId_part {used : Nat → Bool} {lo n cnt : Nat} {x : Nat × State} (h : freshId s used lo n cnt = some x) (p : Nat) :
    x.2.part p = s.part p := by
  unfold freshId at h
  obtain ⟨i, -, rfl⟩ := Option.map_eq_some_iff.mp h
  rfl

/-! The functions of CtxMsgs. -/

theorem execIdentityQuery_kept (hs : Kept σ s) (fn : Fin 9) : GoesKept σ (execIdentityQuery fn s) := by
  grind [execIdentityQuery, goesKept_next, runOp_kept, okReply_kept]
theorem newCtx_kept (hs : Kept σ s) (c k : Nat) (parts : List Nat) : Kept σ (newCtx s c k parts) := by
  grind [newCtx, setCtx_kept]
theorem execCtxCreate_kept (hs : Kept σ s) (fn : Fin 9) : GoesKept σ (execCtxCreate fn s) := by
  unfold execCtxCreate
  refine goesKept_next.2 (runOp_kept hs _ _ fun s r hs => checked_kept hs ?_ _ _ _)
  split
  · exact refuseMsg_kept hs _ _ _ _
  · exact reply_kept (newCtx_kept (freshId_kept hs ‹_›) _ _ _) _ _ _ _ _ _ _ _
theorem execCtxQuery_kept (hs : Kept σ s) (fn : Fin 9) : GoesKept σ (execCtxQuery fn s) := by
  grind [execCtxQuery, goesKept_next, runOp_kept, okReply_kept, foldl_kept, kept_iff]
theorem execCtxDestroy_kept (hs : Kept σ s) (fn : Fin 9) : GoesKept σ (execCtxDestroy fn s) := by
  grind [execCtxDestroy, goesKept_next, runOp_kept, checked_kept, beginOp_kept, beginTeardown_kept]
theorem clearPart_kept (hs : Kept σ s) (c p : Nat) : Kept σ (clearPart s c p) := by
  grind [clearPart, sendUnsent_kept, setPart_kept, setTile_kept, foldl_kept, Tile.memOk, kept_iff]
theorem teardownClear_kept (hs : Kept σ s) (c : Nat) (fenced : Bool) : Kept σ (teardownClear s c fenced) := by
  unfold teardownClear
  extract_lets x s1 ctxs fns s2 y
  have h1 : Kept σ s1 := foldl_kept hs _ fun s p hs => clearPart_kept hs _ _
  clear_value s1
  have h2 : Kept σ s2 := KeptParts.fns_tabMap (f := fun _ f => { f with bar2 := f.bar2.filter fun e => e.2.ctx != c }) h1
    fun _ _ h => by exact h
  exact bumpMaps_kept (setCtx_kept h2) _
theorem execCtxDrainEnd_kept (hs : Kept σ s) (ctx : Fin 64) (clean : Bool) : GoesKept σ (execCtxDrainEnd ctx clean s) := by
  grind [execCtxDrainEnd, goesKept_next, teardownClear_kept]
theorem Spad.zero_memOk (d : Spad) : d.zero.memOk = true := rfl

theorem zeroTiles_kept (hs : Kept σ s) (c p : Nat) : Kept σ (zeroTiles s c p) := by
  unfold zeroTiles
  exact foldl_kept hs _ fun s t hs => setTile_kept hs fun _ => rfl
theorem teardownEnd_kept (hs : Kept σ s) (c : Nat) : Kept σ (teardownEnd s c) := by
  unfold teardownEnd
  extract_lets x s1 s2
  have h1 : Kept σ s1 := foldl_kept hs _ fun s p hs => setPart_kept (zeroTiles_kept (zeroUnits_kept hs _ _) _ _) (by exact id)
  have h2 : Kept σ s2 := setCtx_kept h1
  split
  exacts [endOp_kept h2 _ _ _, h2]
theorem execCtxZeroingEnd_kept (hs : Kept σ s) (ctx : Fin 64) : GoesKept σ (execCtxZeroingEnd ctx s) := by
  grind [execCtxZeroingEnd, goesKept_next, teardownEnd_kept]
theorem execFenceGrant_kept (hs : Kept σ s) (fn : Fin 9) : GoesKept σ (execFenceGrant fn s) := by
  grind [execFenceGrant, goesKept_next, runOp_kept, checked_kept, okReply_kept, setCtx_kept, kept_iff]
theorem execFenceRevoke_kept (hs : Kept σ s) (fn : Fin 9) : GoesKept σ (execFenceRevoke fn s) := by
  grind [execFenceRevoke, goesKept_next, runOp_kept, checked_kept, setCtx_kept, boundaryIfIdle_kept, okReply_kept, foldl_kept, kept_iff]
theorem execKvTableSet_kept (hs : Kept σ s) (fn : Fin 9) : GoesKept σ (execKvTableSet fn s) := by
  grind [execKvTableSet, goesKept_next, runOp_kept, checked_kept, okReply_kept, boundaryIfIdle_kept, setCp_kept, kept_iff]

/-! The functions of MemMsgs. -/

theorem execMemAlloc_kept (hs : Kept σ s) (fn : Fin 9) : GoesKept σ (execMemAlloc fn s) := by
  unfold execMemAlloc
  refine goesKept_next.2 (runOp_kept hs _ _ fun s r hs => ?_)
  extract_lets w0 p n big f P pages x hb
  refine checked_kept hs (.ite (refuseMsg_kept hs _ _ _ _) ?_) _ _ _
  split
  · exact refuseMsg_kept hs _ _ _ _
  rename_i hx
  extract_lets s2
  have h2 : Kept σ s2 := setPart_kept (freshId_kept (takeFree_kept hs) hx) fun h => by
    rw [freshId_part hx] at h
    exact h
  exact okReply_kept (setCtx_kept h2) _ _ _
theorem remap_kept (hs : Kept σ s) (c : Nat) (f : Nat → List Mapping → List Mapping) : Kept σ (remap s c f) := by
  grind [remap, bumpMaps_kept, setCtx_kept, kept_iff]
theorem execMemMap_kept (hs : Kept σ s) (fn : Fin 9) : GoesKept σ (execMemMap fn s) := by
  grind [execMemMap, goesKept_next, runOp_kept, checked_kept, okReply_kept, remap_kept, kept_iff]
theorem execMemUnmap_kept (hs : Kept σ s) (fn : Fin 9) : GoesKept σ (execMemUnmap fn s) := by
  grind [execMemUnmap, goesKept_next, runOp_kept, checked_kept, okReply_kept, remap_kept]
theorem execMemFree_kept (hs : Kept σ s) (fn : Fin 9) : GoesKept σ (execMemFree fn s) := by
  grind [execMemFree, goesKept_next, runOp_kept, checked_kept, beginOp_kept, setCtx_kept, kept_iff]
theorem execMemFreeZeroDone_kept (hs : Kept σ s) (ctx : Fin 64) (handle : Nat) : GoesKept σ (execMemFreeZeroDone ctx handle s) := by
  grind [execMemFreeZeroDone, goesKept_next, zeroUnits_kept, endOp_kept, setCtx_kept, kept_iff]
theorem execBar2WindowSet_kept (hs : Kept σ s) (fn : Fin 9) : GoesKept σ (execBar2WindowSet fn s) := by
  grind [execBar2WindowSet, goesKept_next, runOp_kept, checked_kept, okReply_kept, setFn_kept, Fn.memOk, kept_iff]
theorem execSvuProgLoad_kept (hs : Kept σ s) (fn : Fin 9) : GoesKept σ (execSvuProgLoad fn s) := by
  unfold execSvuProgLoad
  refine goesKept_next.2 (runOp_kept hs _ _ fun s r hs => checked_kept hs ?_ _ _ _)
  split
  · exact refuseMsg_kept hs _ _ _ _
  extract_lets y s2 s3
  have h2 : Kept σ s2 := setCtx_kept (freshId_kept hs ‹_›)
  have h3 : Kept σ s3 := foldl_kept h2 _ fun s p hs => setPart_kept hs (by exact id)
  exact okReply_kept (extendCmr_kept h3 _ _ _) _ _ _
theorem beginRepair_kept (hs : Kept σ s) (k : Nat) (r : Req) (kind : Nat) : Kept σ (beginRepair s k r kind) := by
  have h : Kept σ (beginOp s k r [repStack r.payload / 3] 0 0).1 := beginOp_kept hs _ _ _ _ _
  exact checked_kept (t := { (beginOp s k r [repStack r.payload / 3] 0 0).1 with hbmOp := some ⟨_, kind, r.payload⟩ }) hs h _ _ _
theorem repairMsg_kept (hs : Kept σ s) (k : Nat) (fits : Nat → Bool) {body : State → Req → State}
    (hb : ∀ s r, Kept σ s → Kept σ (body s r)) : Kept σ (repairMsg s k fits body) := runMsg_kept hs _ _ _ hb
theorem execHbmRepairQuery_kept (hs : Kept σ s) (fn : Fin 9) : GoesKept σ (execHbmRepairQuery fn s) := by
  grind [execHbmRepairQuery, goesKept_next, repairMsg_kept, checked_kept, okReply_kept]
theorem execSoftPpr_kept (hs : Kept σ s) (fn : Fin 9) : GoesKept σ (execSoftPpr fn s) := by
  grind [execSoftPpr, goesKept_next, repairMsg_kept, beginRepair_kept]
theorem execHardPpr_kept (hs : Kept σ s) (fn : Fin 9) : GoesKept σ (execHardPpr fn s) := by
  grind [execHardPpr, goesKept_next, repairMsg_kept, beginRepair_kept]
theorem execSpareRow_kept (hs : Kept σ s) (fn : Fin 9) : GoesKept σ (execSpareRow fn s) := by
  grind [execSpareRow, goesKept_next, repairMsg_kept, beginRepair_kept]
theorem zeroRow_wf {h : Hbm} (hm : h.mem.wf = true) (p : Nat) (w : List Nat) : (zeroRow h p w).mem.wf = true := wfFrom_filter hm _

theorem useRepair_mem (h : Hbm) (kind : Nat) (w : List Nat) (took : Bool) : (useRepair h kind w took).mem = h.mem := by
  unfold useRepair
  split
  · rfl
  split <;> rfl

theorem execHbmRepairDone_kept (hs : Kept σ s) (took : Bool) : GoesKept σ (execHbmRepairDone took s) := by
  unfold execHbmRepairDone
  refine goesKept_next.2 ?_
  split
  · exact hs
  extract_lets p P used h saved
  have hh : (s.part p).hbm.mem.wf = true → h.mem.wf = true := fun hp => by
    have hu : used.mem.wf = true := by
      rw [useRepair_mem]
      exact hp
    simp only [h]
    split
    exacts [zeroRow_wf hu _ _, hu]
  have h1 : Kept σ (s.setPart p { P with hbm := h }) := setPart_kept hs hh
  exact endOp_kept (s := { s.setPart p { P with hbm := h } with hbmOp := none, saved }) h1 _ _ _

/-! The functions of SchedMsgs. -/

theorem execSchedTableSet_kept (hs : Kept σ s) (fn : Fin 9) : GoesKept σ (execSchedTableSet fn s) := by
  grind [execSchedTableSet, goesKept_next, runOp_kept, checked_kept, okReply_kept, setPart_kept, kept_iff]
theorem execRegulatorSet_kept (hs : Kept σ s) (fn : Fin 9) : GoesKept σ (execRegulatorSet fn s) := by
  grind [execRegulatorSet, goesKept_next, runOp_kept, checked_kept, setReg_kept, okReply_kept, boundaryIfIdle_kept, foldl_kept, kept_iff]
theorem execPreemptGraceSet_kept (hs : Kept σ s) (fn : Fin 9) : GoesKept σ (execPreemptGraceSet fn s) := by
  grind [execPreemptGraceSet, goesKept_next, runOp_kept, checked_kept, okReply_kept, setPart_kept, kept_iff]
theorem execSchedQuery_kept (hs : Kept σ s) (fn : Fin 9) : GoesKept σ (execSchedQuery fn s) := by
  grind [execSchedQuery, goesKept_next, runOp_kept, checked_kept, okReply_kept]
theorem execPowerLatencySet_kept (hs : Kept σ s) (fn : Fin 9) : GoesKept σ (execPowerLatencySet fn s) := by
  unfold execPowerLatencySet
  refine goesKept_next.2 (runOp_kept hs _ _ fun s r hs => ?_)
  extract_lets w f l s1 pw s2
  have h1 : Kept σ s1 := setFn_kept hs (by exact id)
  have h2 : Kept σ s2 := .ite (.of_parts h1.parts) h1
  exact checked_kept hs (okReply_kept h2 _ _ _) _ _ _
theorem execPowerCapSet_kept (hs : Kept σ s) (fn : Fin 9) : GoesKept σ (execPowerCapSet fn s) := by
  grind [execPowerCapSet, goesKept_next, runOp_kept, checked_kept, okReply_kept, kept_iff]
theorem execSlewFloorSet_kept (hs : Kept σ s) (fn : Fin 9) : GoesKept σ (execSlewFloorSet fn s) := by
  grind [execSlewFloorSet, goesKept_next, runOp_kept, checked_kept, okReply_kept, kept_iff]
theorem execPowerQuery_kept (hs : Kept σ s) (fn : Fin 9) : GoesKept σ (execPowerQuery fn s) := by
  grind [execPowerQuery, goesKept_next, runOp_kept, okReply_kept]
theorem execJobPatienceSet_kept (hs : Kept σ s) (fn : Fin 9) : GoesKept σ (execJobPatienceSet fn s) := by
  grind [execJobPatienceSet, goesKept_next, runOp_kept, checked_kept, okReply_kept, setCtx_kept, kept_iff]

/-! The functions of Weights. -/

theorem writeRegion_kept (hs : Kept σ s) (p : Nat) (units : List Nat) (r : List Nat) (c : Nat) (plain : List Byte) :
    Kept σ (writeRegion s p units r c plain) := by
  grind [writeRegion, writeLine_kept, foldl_kept]
theorem writeChunk_kept (hs : Kept σ s) (m : NvImage) (units : Tab (List Nat)) (c : Nat) (plain : List Byte) :
    Kept σ (writeChunk s m units c plain) := by
  grind [writeChunk, writeRegion_kept, foldl_kept]
theorem execWeightKeyImport_kept (hs : Kept σ s) (fn : Fin 9) : GoesKept σ (execWeightKeyImport fn s) := by
  grind [execWeightKeyImport, goesKept_next, runOp_kept, checked_kept, okReply_kept, settleKeys_kept, setCtx_kept, kept_iff]
theorem askHead_kept (hs : Kept σ s) (c : Nat) (w : List Nat) (before : List (Bool × Nat × Nat)) (image : HostRd) :
    Kept σ (askHead s c w before image) := by
  grind [askHead, askPeer_kept, kept_iff]
theorem takeFrames_kept (hs : Kept σ s) (m : NvImage) (ps : List Nat) : Kept σ (takeFrames s m ps).2 := by
  unfold takeFrames
  refine foldl_snd_kept hs _ fun a p ha => ?_
  extract_lets n f P units
  split
  · exact ha
  · exact setPart_kept (takeFree_kept ha) (by exact id)
theorem enterLoad_kept (hs : Kept σ s) (k : Nat) (r : Req) (m : NvImage) (key : List Byte) (handle : Nat) (todo parts : List Nat) :
    Kept σ (enterLoad s k r m key handle todo parts) := by
  unfold enterLoad
  extract_lets b l b' s1
  have h1 : Kept σ s1 := beginOp_kept hs k r parts 0 0
  split
  · exact h1
  · exact foldl_kept h1 _ fun s c hs => askShard_kept hs _ _ _ _ _
theorem beginLoad_kept (hs : Kept σ s) (k : Nat) (r : Req) (m : NvImage) (key : List Byte) : Kept σ (beginLoad s k r m key) := by
  grind [beginLoad, takeFrames_kept, setCtx_kept, enterLoad_kept, kept_iff]
theorem execWeightLoad_kept (hs : Kept σ s) (fn : Fin 9) (image : HostRd) : GoesKept σ (execWeightLoad fn image s) := by
  grind [execWeightLoad, goesKept_next, runMsg_kept, askHead_kept, checked_kept, refuseMsg_kept, beginLoad_kept, kept_iff]
theorem execInstall_kept (hs : Kept σ s) (fn : Fin 9) (image : HostRd) : GoesKept σ (execInstall fn image s) := by
  unfold execInstall
  refine goesKept_next.2 (runMsg_kept hs _ _ _ fun s r hs => ?_)
  extract_lets w key perm first s0
  have h0 : Kept σ s0 := askHead_kept hs _ _ _ _
  clear_value s0
  split
  · exact checked_kept h0 (refuseMsg_kept h0 _ _ _ _) _ _ _
  extract_lets f
  refine checked_kept h0 ?_ _ _ _
  split
  · exact refuseMsg_kept h0 _ _ _ _
  · have h1 := freshId_kept (takeFree_kept h0) ‹_›
    refine enterLoad_kept ?_ _ _ _ _ _ _ _
    exact .of_parts h1.parts
theorem failPayload_kept (hs : Kept σ s) (l : Load) (chunk : Nat) : Kept σ (failPayload s l chunk).2 := by
  grind [failPayload, takeFree_kept]
theorem failLoad_kept (hs : Kept σ s) (n : Nat) (l : Load) (status chunk : Nat) : Kept σ (failLoad s n l status chunk) := by
  grind [failLoad, failPayload_kept, settleKeys_kept, endOp_kept, cancelLoad_kept]
theorem chargeLoad_kept (hs : Kept σ s) (l : Load) (c : Nat) : Kept σ (chargeLoad s l c) := by
  grind [chargeLoad, charge_kept, foldl_kept]
theorem installChunk_kept (hs : Kept σ s) (n : Nat) (l : Load) (c : Nat) (plain : List Byte) : Kept σ (installChunk s n l c plain) := by
  unfold installChunk
  extract_lets k nv v worn im m s1
  have h1 : Kept σ s1 := .of_parts hs.parts
  exact .ite (logEvent_kept h1) h1
theorem shardAnswered_kept (hs : Kept σ s) (l : Load) : Kept σ (shardAnswered s l) := by
  grind [shardAnswered, kept_iff]
theorem rereadShard_kept (hs : Kept σ s) (n : Nat) (l : Load) (c : Nat) : Kept σ (rereadShard s n l c) := by
  grind [rereadShard, failLoad_kept, askShard_kept, logEvent_kept, kept_iff]
theorem execWeightShardArrival_kept (hs : Kept σ s) (load chunk : Nat) (shard : Option (List Byte)) :
    GoesKept σ (execWeightShardArrival load chunk shard s) := by
  unfold execWeightShardArrival
  refine goesKept_next.2 ?_
  split
  · exact hs
  extract_lets s0
  have h0 : Kept σ s0 := chargeLoad_kept (shardAnswered_kept hs _) _ _
  refine .ite hs (gate_kept hs ?_)
  split
  · exact rereadShard_kept h0 _ _ _
  extract_lets s1
  have h1 : Kept σ s1 := writeChunk_kept h0 _ _ _ _
  exact .ite (installChunk_kept h0 _ _ _ _) h1
theorem execWeightShardTimeout_kept (hs : Kept σ s) (load chunk : Nat) : GoesKept σ (execWeightShardTimeout load chunk s) := by
  grind [execWeightShardTimeout, goesKept_next, failLoad_kept, kept_iff]
theorem finishGen_kept (hs : Kept σ s) (l : Load) : Kept σ (finishGen s l) := by
  grind [finishGen, setCtx_kept, bindWindows_kept, kept_iff]
theorem execWeightLoadComplete_kept (hs : Kept σ s) (load : Nat) : GoesKept σ (execWeightLoadComplete load s) := by
  unfold execWeightLoadComplete
  refine goesKept_next.2 ?_
  split
  · exact hs
  extract_lets inst s1 nv' nv s2 s3 f other pay
  have h1 : Kept σ s1 := hs
  have h2 : Kept σ s2 := .ite h1 (finishGen_kept h1 _)
  have h3 : Kept σ s3 := extendCmr_kept h2 _ _ _
  exact .ite hs (settleKeys_kept (endOp_kept (takeFree_kept h3) _ _ _) _)
theorem modGen_kept (hs : Kept σ s) (c b g : Nat) (f : WGen → WGen) : Kept σ (modGen s c b g f) := by
  grind [modGen, setCtx_kept, kept_iff]
theorem execWeightDrop_kept (hs : Kept σ s) (fn : Fin 9) : GoesKept σ (execWeightDrop fn s) := by
  unfold execWeightDrop
  refine goesKept_next.2 (runMsg_kept hs _ _ _ fun s r hs => ?_)
  extract_lets b g w bound on s1 s2
  refine checked_kept hs ?_ _ _ _
  split
  · exact okReply_kept (settleKeys_kept (endOp_kept (cancelLoad_kept hs _) _ _ _) _) _ _ _
  · have h2 : Kept σ s2 := modGen_kept (beginOp_kept hs _ _ _ _ _) _ _ _ _
    exact foldl_kept h2 _ fun s p hs => boundaryIfIdle_kept hs _
theorem execWeightDropComplete_kept (hs : Kept σ s) (ctx : Fin 64) (binding : Fin 16) (generation : Nat) :
    GoesKept σ (execWeightDropComplete ctx binding generation s) := by
  unfold execWeightDropComplete
  extract_lets mine
  refine goesKept_next.2 ?_
  split
  · exact hs
  split
  · exact hs
  extract_lets s1 x B s2 s3
  have h1 : Kept σ s1 := foldl_kept hs _ fun s e hs => zeroUnits_kept hs _ _
  have h2 : Kept σ s2 := setCtx_kept h1
  have h3 : Kept σ s3 := h2
  exact .ite hs (endOp_kept h3 _ _ _)
theorem execNvwsImageErase_kept (hs : Kept σ s) (fn : Fin 9) : GoesKept σ (execNvwsImageErase fn s) := by
  grind [execNvwsImageErase, goesKept_next, runMsg_kept, checked_kept, okReply_kept, foldl_kept, kept_iff]
theorem execWeightQuery_kept (hs : Kept σ s) (fn : Fin 9) : GoesKept σ (execWeightQuery fn s) := by
  grind [execWeightQuery, goesKept_next, runOp_kept, okReply_kept]
theorem abandonDamaged_kept (hs : Kept σ s) : Kept σ (abandonDamaged s) := by
  grind [abandonDamaged, abandon_kept, foldl_kept]
theorem execWeightRepairComplete_kept (hs : Kept σ s) (ctx : Fin 64) (binding : Fin 16) (generation : Nat) (src : HostRd) :
    GoesKept σ (execWeightRepairComplete ctx binding generation src s) := by
  unfold execWeightRepairComplete
  refine goesKept_next.2 ?_
  split
  · exact hs
  split
  · exact hs
  extract_lets lo hi c chunk units
  split
  · exact abandonDamaged_kept (damageGen_kept hs _ _ _ _)
  extract_lets s1
  have h1 : Kept σ s1 := foldl_kept hs _ fun s x hs => writeLine_kept hs _ _ _
  have h2 : ∀ rs, Kept σ { s1 with repairs := rs } := fun _ => .of_parts h1.parts
  exact logEvent_kept (h2 _)
theorem reloadGen_kept (hs : Kept σ s) {w : WGen} {p : Nat} (h : reloadGen s w p = .ok t) : Kept σ t := by
  unfold reloadGen at h
  refine List.foldlRecOn (motive := fun r : Except Nat State => ∀ t, r = .ok t → Kept σ t) _ _ (fun t h => by cases h; exact hs)
    (fun r hr c _ t h => ?_) t h
  split at h
  · cases h
  split at h
  · cases h
  · cases h
    exact writeChunk_kept (hr _ rfl) _ _ _ _
theorem reloadOn_kept (hs : Kept σ s) (c b g p : Nat) (w : WGen) : Kept σ (reloadOn s c b g p w) := by
  unfold reloadOn
  split
  · exact reloadGen_kept hs ‹_›
  · exact logEvent_kept (modGen_kept hs _ _ _ _)

/-! The functions of TableMsgs. -/

theorem modTargets_kept (hs : Kept σ s) (c p w : Nat) (f : CbSlot → CbSlot) : Kept σ (modTargets s c p w f) := by
  grind [modTargets, setCp_kept, kept_iff]
theorem execCodebookLoad_kept (hs : Kept σ s) (fn : Fin 9) : GoesKept σ (execCodebookLoad fn s) := by
  unfold execCodebookLoad
  refine goesKept_next.2 (runOp_kept hs _ _ fun s r hs => ?_)
  extract_lets w w0 gen es ts b limit b' s1 nx
  have hb : Kept σ b.1 := beginOp_kept hs _ _ _ _ _
  have h1 : Kept σ s1 := .of_parts hb.parts
  exact checked_kept hs (foldl_kept h1 _ fun s p hs => modTargets_kept hs _ _ _ _) _ _ _
theorem settleLoad_kept (hs : Kept σ s) (c n : Nat) : Kept σ (settleLoad s c n) := by
  grind [settleLoad, endOp_kept, extendCmr_kept, kept_iff]
theorem execCodebookSlotWriteDone_kept (hs : Kept σ s) (p : Fin 8) (ctx : Fin 64) (kindA : Bool) (slot : Fin 8) :
    GoesKept σ (execCodebookSlotWriteDone p ctx kindA slot s) := by
  grind [execCodebookSlotWriteDone, goesKept_next', goesKept_next, settleLoad_kept, setCp_kept, kept_iff]
theorem execCodebookWaitLimit_kept (hs : Kept σ s) (ctx : Fin 64) (slot : Fin 8) : GoesKept σ (execCodebookWaitLimit ctx slot s) := by
  grind [execCodebookWaitLimit, goesKept_next, endOp_kept, stopCodebook_kept, kept_iff]
theorem execCodebookRelease_kept (hs : Kept σ s) (fn : Fin 9) : GoesKept σ (execCodebookRelease fn s) := by
  grind [execCodebookRelease, goesKept_next, runOp_kept, checked_kept, beginOp_kept, modTargets_kept, settleReleases_kept, foldl_kept,
    kept_iff]
theorem execCodebookQuery_kept (hs : Kept σ s) (fn : Fin 9) : GoesKept σ (execCodebookQuery fn s) := by
  grind [execCodebookQuery, goesKept_next, runOp_kept, okReply_kept, foldl_kept]
theorem rewritten_kept (hs : Kept σ s) (c p : Nat) (ks : Nat → Bool) : Kept σ (State.rewritten s c p ks) := by
  grind [State.rewritten, setTile_kept, foldl_kept, Tile.memOk, kept_iff]
theorem execSfuSlotWrite_kept (hs : Kept σ s) (fn : Fin 9) : GoesKept σ (execSfuSlotWrite fn s) := by
  unfold execSfuSlotWrite
  refine goesKept_next.2 (runOp_kept hs _ _ fun s r hs => ?_)
  extract_lets w n steps q s1
  have h1 : Kept σ s1 := foldl_kept hs _ fun s p hs => rewritten_kept (setCp_kept hs) _ _ _
  exact checked_kept hs (okReply_kept (extendCmr_kept h1 _ _ _) _ _ _) _ _ _
theorem execSfuTableWrite_kept (hs : Kept σ s) (fn : Fin 9) : GoesKept σ (execSfuTableWrite fn s) := by
  unfold execSfuTableWrite
  refine goesKept_next.2 (runOp_kept hs _ _ fun s r hs => ?_)
  extract_lets w first n cs bad put q s1
  have h1 : Kept σ s1 := foldl_kept hs _ fun s p hs => rewritten_kept (setCp_kept hs) _ _ _
  exact checked_kept hs (okReply_kept (extendCmr_kept h1 _ _ _) _ _ _) _ _ _
theorem execSfuBankPrepare_kept (hs : Kept σ s) (fn : Fin 9) : GoesKept σ (execSfuBankPrepare fn s) := by
  unfold execSfuBankPrepare
  refine goesKept_next.2 (runOp_kept hs _ _ fun s r hs => ?_)
  extract_lets w0 b limit b' s1
  have hb : Kept σ b.1 := beginOp_kept hs _ _ _ _ _
  have h1 : Kept σ s1 := .of_parts hb.parts
  exact checked_kept hs (foldl_kept h1 _ fun s p hs => setCp_kept hs) _ _ _
theorem execSfuBankCopyDone_kept (hs : Kept σ s) (p : Fin 8) (ctx : Fin 64) : GoesKept σ (execSfuBankCopyDone p ctx s) := by
  unfold execSfuBankCopyDone
  extract_lets x x1 s1
  have h1 : Kept σ s1 := rewritten_kept (setCp_kept hs) _ _ _
  refine goesKept_next.2 ?_
  split
  · exact hs
  refine .ite hs ?_
  split
  · exact h1
  clear_value s1
  extract_lets left
  exact .ite (endOp_kept h1 _ _ _) (.of_parts h1.parts)
theorem execSfuPrepareWaitLimit_kept (hs : Kept σ s) (ctx : Fin 64) : GoesKept σ (execSfuPrepareWaitLimit ctx s) := by
  grind [execSfuPrepareWaitLimit, goesKept_next, endOp_kept, stopPrepare_kept, kept_iff]
theorem execSfuBankSwitch_kept (hs : Kept σ s) (fn : Fin 9) : GoesKept σ (execSfuBankSwitch fn s) := by
  grind [execSfuBankSwitch, goesKept_next, runOp_kept, checked_kept, okReply_kept, setCp_kept, foldl_kept, kept_iff]
theorem execSfuBankQuery_kept (hs : Kept σ s) (fn : Fin 9) : GoesKept σ (execSfuBankQuery fn s) := by
  grind [execSfuBankQuery, goesKept_next, runOp_kept, okReply_kept]

/-! The functions of Train. -/

theorem setItem_kept (hs : Kept σ s) (i : Nat) (t : TrainSt) : Kept σ (State.setItem s i t) := by
  grind [State.setItem, kept_iff]
theorem startCold_kept (hs : Kept σ s) (i : Nat) : Kept σ (startCold s i) := hs
theorem startItem_kept (hs : Kept σ s) (i : Nat) : Kept σ (startItem s i) := by
  grind [startItem, startCold_kept, setItem_kept, logEvent_kept]
theorem startPort_kept (hs : Kept σ s) (k : Nat) : Kept σ (startPort s k) := by
  grind [startPort, setPort_kept, startItem_kept, foldl_kept, kept_iff]

/-! The functions of FabricIo. -/

theorem execFlitReceive_kept (hs : Kept σ s) (port : Fin 6) (lp : Fin 8) (flit : List Byte) (corrected : Nat) (fecOk : Bool) :
    GoesKept σ (execFlitReceive port lp flit corrected fecOk s) := by
  grind [execFlitReceive, goesKept_fault, goesKept_next, receive_kept]
theorem execAckProgressTimeout_kept (hs : Kept σ s) (port : Fin 6) (lp : Fin 8) : GoesKept σ (execAckProgressTimeout port lp s) := by
  grind [execAckProgressTimeout, goesKept_next, startRetrain_kept]
theorem execLaneLockLoss_kept (hs : Kept σ s) (port : Fin 6) (lp : Fin 8) : GoesKept σ (execLaneLockLoss port lp s) := by
  grind [execLaneLockLoss, goesKept_next, startRetrain_kept, setLp_kept, kept_iff]
theorem retrained_kept (hs : Kept σ s) (k n : Nat) : Kept σ (retrained s k n) := by
  grind [retrained, setLp_kept, setPort_kept, logEvent_kept, portDown_kept, returnCredits_kept, pump_kept, resend_kept, kept_iff]
theorem execRetrainComplete_kept (hs : Kept σ s) (port : Fin 6) (lp : Fin 8) (ok : Bool) :
    GoesKept σ (execRetrainComplete port lp ok s) := by
  grind [execRetrainComplete, goesKept_next, portDown_kept, retrained_kept]
theorem execPortTrainingRetry_kept (hs : Kept σ s) (port : Fin 6) : GoesKept σ (execPortTrainingRetry port s) := by
  grind [execPortTrainingRetry, goesKept_next, startPort_kept]
theorem execIdentitySend_kept (hs : Kept σ s) (port : Fin 6) (lp : Fin 8) : GoesKept σ (execIdentitySend port lp s) := by
  unfold execIdentitySend
  extract_lets l s1
  have h1 : Kept σ s1 := setLp_kept hs
  refine goesKept_next.2 ?_
  split
  exacts [.of_parts h1.parts, hs]
theorem logCheck_kept (hs : Kept σ s) (k res old : Nat) (r : Option Identity) : Kept σ (logCheck s k res old r) :=
  .ite hs (logEvent_kept hs)
theorem portUp_kept (hs : Kept σ s) (k : Nat) : Kept σ (portUp s k) := by
  grind [portUp, logEvent_kept, setPort_kept, kept_iff]
theorem portCheck_kept (hs : Kept σ s) (k : Nat) : Kept σ (portCheck s k) := by
  grind [portCheck, setPort_kept, logCheck_kept, portUp_kept, kept_iff]
theorem execIdentityReceived_kept (hs : Kept σ s) (port : Fin 6) (lp : Fin 8) (block : List Byte) :
    GoesKept σ (execIdentityReceived port lp block s) := by
  grind [execIdentityReceived, goesKept_next, setLp_kept, portDown_kept, logEvent_kept, startCold_kept, portCheck_kept, kept_iff]
theorem execAbsentLimitExpiry_kept (hs : Kept σ s) (port : Fin 6) : GoesKept σ (execAbsentLimitExpiry port s) := by
  grind [execAbsentLimitExpiry, goesKept_next, logCheck_kept, setPort_kept, kept_iff]
theorem answer_kept (hs : Kept σ s) (k n : Nat) (q : Packet) (status : Nat) : Kept σ (answer s k n q status) := by
  grind [answer, sendAck_kept, arrivalRejected_kept]
theorem useArm_kept (hs : Kept σ s) (n a : Nat) (x : Arm) (q : Packet) : Kept σ (useArm s n a x q).1 := by
  grind [useArm, setPart_kept, armEnded_kept, dropArm_kept, kept_iff]
theorem holdPacket_kept (hs : Kept σ s) (k n : Nat) (q : Packet) : Kept σ (holdPacket s k n q) := by
  grind [holdPacket, setLp_kept, kept_iff]
theorem forward_kept (hs : Kept σ s) (k n i : Nat) (q : Packet) : Kept σ (forward s k n i q) := by
  grind [forward, answer_kept, takeHead_kept, noteErr_kept, holdPacket_kept, useArm_kept, txFrom_kept, kept_iff]
theorem execPacketForward_kept (hs : Kept σ s) (port : Fin 6) (lp : Fin 8) : GoesKept σ (execPacketForward port lp s) := by
  grind [execPacketForward, goesKept_next, forward_kept, kept_iff]
theorem execReduceHoldExpiry_kept (hs : Kept σ s) (port : Fin 6) (lp : Fin 8) : GoesKept σ (execReduceHoldExpiry port lp s) := by
  grind [execReduceHoldExpiry, goesKept_next, noteErr_kept, takeHead_kept, answer_kept, logEvent_kept, kept_iff]
theorem execArmCancelExpiry_kept (hs : Kept σ s) (p : Fin 8) : GoesKept σ (execArmCancelExpiry p s) := by
  grind [execArmCancelExpiry, goesKept_next, activateArms_kept, setPart_kept, kept_iff]
theorem arrival_kept (hs : Kept σ s) (k n ty : Nat) : Kept σ (arrival s k n ty) := by
  grind [arrival, deliver_kept, takeHead_kept, sendAck_kept, kept_iff]
theorem execWriteArrival_kept (hs : Kept σ s) (port : Fin 6) (lp : Fin 8) : GoesKept σ (execWriteArrival port lp s) := by
  grind [execWriteArrival, goesKept_next, arrival_kept]
theorem execAddArrival_kept (hs : Kept σ s) (port : Fin 6) (lp : Fin 8) : GoesKept σ (execAddArrival port lp s) := by
  grind [execAddArrival, goesKept_next, arrival_kept]
theorem execSignalArrival_kept (hs : Kept σ s) (port : Fin 6) (lp : Fin 8) : GoesKept σ (execSignalArrival port lp s) := by
  grind [execSignalArrival, goesKept_next, arrival_kept]
theorem execFabricAckArrival_kept (hs : Kept σ s) (port : Fin 6) (lp : Fin 8) : GoesKept σ (execFabricAckArrival port lp s) := by
  grind [execFabricAckArrival, goesKept_next, takeAck_kept, takeHead_kept, kept_iff]
theorem pumpAll_kept (hs : Kept σ s) : Kept σ (pumpAll s) := by
  grind [pumpAll, pump_kept, foldl_kept]
theorem execAbort_kept (hs : Kept σ s) (port : Fin 6) (lp : Fin 8) : GoesKept σ (execAbort port lp s) := by
  unfold execAbort
  refine goesKept_next.2 ?_
  split
  · exact hs
  extract_lets s1 seen same s2
  have h1 : Kept σ s1 := takeHead_kept hs _ _ _ _
  have h2 : ∀ l, Kept σ { s1 with abortsSeen := l } := fun _ => .of_parts h1.parts
  have h2 : Kept σ s2 := floodAbort_kept (h2 _) _ _
  clear_value s1 s2
  exact .ite (.of_parts h1.parts) (pumpAll_kept (jobAbortLocal_kept h2 _ _ _))
theorem disablePort_kept (hs : Kept σ s) (k : Nat) : Kept σ (disablePort s k) := by
  grind [disablePort, setPort_kept, kept_iff]
theorem discardQueued_kept (hs : Kept σ s) (k : Nat) : Kept σ (discardQueued s k) := by
  grind [discardQueued, setLp_kept, takeAck_kept, noteErr_kept, answer_kept, foldl_kept, kept_iff]
theorem quietPort_kept (hs : Kept σ s) (k : Nat) (st : PortSt) : Kept σ (quietPort s k st) := by
  grind [quietPort, discardQueued_kept, setPort_kept, setLp_kept, foldl_kept, kept_iff]
theorem retrainPort_kept (hs : Kept σ s) (k : Nat) : Kept σ (retrainPort s k) := by
  grind [retrainPort, startPort_kept, setPort_kept, kept_iff]
theorem execPortDisableDone_kept (hs : Kept σ s) (port : Fin 6) : GoesKept σ (execPortDisableDone port s) := by
  grind [execPortDisableDone, goesKept_next, quietPort_kept, retrainPort_kept, kept_iff]
theorem enablePort_kept (hs : Kept σ s) (k : Nat) : Kept σ (enablePort s k) := by
  grind [enablePort, setPort_kept, retrainPort_kept, kept_iff]
theorem applyPlan_kept (hs : Kept σ s) (old new : List Byte) : Kept σ (applyPlan s old new) := by
  grind [applyPlan, setPort_kept, portDown_kept, logEvent_kept, extendMr_kept, foldl_kept, kept_iff]
theorem execCablingPlanWrite_kept (hs : Kept σ s) (record : List Byte) : GoesKept σ (execCablingPlanWrite record s) := by
  grind [execCablingPlanWrite, goesKept_next, logEvent_kept, applyPlan_kept, kept_iff]

/-! The functions of HostIo. -/

theorem barReject_kept (hs : Kept σ s) (k o : Nat) : Kept σ (barReject s k o) := by
  grind [barReject, logEvent_kept]
theorem barGuard_kept (hs : Kept σ s) (k o : Nat) {f : State → State} (hf : Kept σ (f s)) : Kept σ (barGuard s k o f) :=
  .ite hs (.ite (barReject_kept hs _ _) hf)
theorem setFenceSel_kept (hs : Kept σ s) (k p v : Nat) : Kept σ (setFenceSel s k p v) := by
  grind [setFenceSel, setFn_kept, Fn.memOk, kept_iff]
theorem unmask_kept (hs : Kept σ s) (k v : Nat) : Kept σ (unmask s k v) := by
  grind [unmask, setFn_kept, raiseVector_kept, Fn.memOk, kept_iff]
theorem writeMsix_kept (hs : Kept σ s) (k o v : Nat) : Kept σ (writeMsix s k o v) := by
  grind [writeMsix, setFn_kept, unmask_kept, Fn.memOk, kept_iff]
theorem execCmiReqCtrlGo_kept (hs : Kept σ s) (fn : Fin 9) : GoesKept σ (execCmiReqCtrlGo fn s) := by
  grind [execCmiReqCtrlGo, goesKept_next, barGuard_kept, setGo_kept]
theorem execCmiRspValidClear_kept (hs : Kept σ s) (fn : Fin 9) : GoesKept σ (execCmiRspValidClear fn s) := by
  grind [execCmiRspValidClear, goesKept_next, barGuard_kept, clearRsp_kept]
theorem resumePart_kept (hs : Kept σ s) (p : Nat) : Kept σ (resumePart s p) := by
  grind [resumePart, thaw_kept, setPart_kept, kept_iff]
theorem writeWord_kept (hs : Kept σ s) (k o v : Nat) : Kept σ (writeWord s k o v) := by
  unfold writeWord
  extract_lets f b f' port P clear log' s1
  have h1 : Kept σ s1 := .of_parts hs.parts
  refine .ite hs (.ite (setFn_kept hs fun h => ?_) (.ite (.ite (setGo_kept hs _) hs) (.ite (.ite (clearRsp_kept hs _) hs)
    (.ite (setFn_kept hs (by exact id)) (.ite (writeMsix_kept hs _ _ _) (.ite (.ite (setFenceSel_kept hs _ _ _) hs)
    (.ite (.ite (.ite (disablePort_kept hs _) (enablePort_kept hs _)) (.ite (setPort_kept hs) hs)) (.ite (.of_parts hs.parts)
    (.ite (.of_parts hs.parts) (.ite (.ite (resumePart_kept h1 _) h1) hs))))))))))
  simp only [Fn.memOk, Bool.and_eq_true] at h ⊢
  exact ⟨memWrite_wf h.1 _ _, h.2⟩
theorem pagesHere_kept (hs : Kept σ s) (k : Nat) (pick : Nat → Bool) : Kept σ (pagesHere s k pick) := by
  grind [pagesHere, translated_kept, modInst_kept, foldl_kept, kept_iff]
theorem setAts_kept (hs : Kept σ s) (k : Nat) (en : Bool) : Kept σ (setAts s k en) := by
  grind [setAts, setFn_kept, gate_kept, pagesHere_kept, Fn.memOk, kept_iff]
theorem writeConfig_kept (hs : Kept σ s) (k o v : Nat) : Kept σ (writeConfig s k o v) := by
  grind [writeConfig, setFn_kept, unmask_kept, setAts_kept, foldl_kept, Fn.memOk, kept_iff]
theorem cfgRequest_kept (hs : Kept σ s) (k : Nat) {f : State → State} (hf : Kept σ (f s)) : Kept σ (cfgRequest s k f) :=
  .ite hs (.ite (.of_parts hs.parts) hf)
theorem execRegisterWrite_kept (hs : Kept σ s) (fn : Fin 9) (offset width : Nat) (value : W64) :
    GoesKept σ (execRegisterWrite fn offset width value s) := by
  grind [execRegisterWrite, goesKept_next, cfgRequest_kept, writeConfig_kept, barReject_kept, writeWord_kept]
theorem execPtFenceSelWrite_kept (hs : Kept σ s) (fn : Fin 9) (p : Fin 8) (value : W32) :
    GoesKept σ (execPtFenceSelWrite fn p value s) := by
  grind [execPtFenceSelWrite, goesKept_next, barGuard_kept, setFenceSel_kept]
theorem execFpControlDisable_kept (hs : Kept σ s) (port : Fin 6) : GoesKept σ (execFpControlDisable port s) := by
  grind [execFpControlDisable, goesKept_next, barGuard_kept, disablePort_kept]
theorem execFpControlEnable_kept (hs : Kept σ s) (port : Fin 6) : GoesKept σ (execFpControlEnable port s) := by
  grind [execFpControlEnable, goesKept_next, barGuard_kept, enablePort_kept]
theorem execDbgResumeGo_kept (hs : Kept σ s) (p : Fin 8) : GoesKept σ (execDbgResumeGo p s) := by
  grind [execDbgResumeGo, goesKept_next, barGuard_kept, resumePart_kept, kept_iff]
theorem execMsixUnmask_kept (hs : Kept σ s) (fn : Fin 9) (vector : Fin 2048) : GoesKept σ (execMsixUnmask fn vector s) := by
  grind [execMsixUnmask, goesKept_next, barGuard_kept, unmask_kept]
theorem execBar0AccessInvalid_kept (hs : Kept σ s) (fn : Fin 9) (offset width : Nat) (write : Bool) :
    GoesKept σ (execBar0AccessInvalid fn offset width write s) := by
  unfold execBar0AccessInvalid
  extract_lets s1
  have h1 : Kept σ s1 := barReject_kept hs _ _
  exact goesKept_next.2 (.ite hs (.ite h1 (.of_parts h1.parts)))
theorem barUnmapped_kept (hs : Kept σ s) (k c o : Nat) : Kept σ (barUnmapped s k c o) := by
  grind [barUnmapped, logEvent_kept]
theorem execBar2Read_kept (hs : Kept σ s) (fn : Fin 9) (offset len : Nat) : GoesKept σ (execBar2Read fn offset len s) := by
  unfold execBar2Read
  extract_lets cpl
  have hcpl : ∀ s ep bs, Kept σ s → Kept σ (cpl s ep bs) := fun s ep bs hs => .of_parts hs.parts
  clear_value cpl
  refine goesKept_next.2 (.ite hs ?_)
  split
  · exact hcpl _ _ _ (barUnmapped_kept hs _ _ _)
  extract_lets bad
  have hbad : ∀ s, Kept σ s → Kept σ (bad s) := fun s hs => hcpl _ _ _ (barUnmapped_kept hs _ _ _)
  clear_value bad
  rename_i w _
  have h := readDva_kept hs hubUnit w.ctx (s.ctx w.ctx).mapVer (w.dva + (offset - w.off)) len 17
  refine .ite (hbad _ hs) ?_
  split
  · exact hbad _ (h.error ‹_›)
  · exact .ite (hcpl _ _ _ (h.ok ‹_›)) (hcpl _ _ _ (h.ok ‹_›))
theorem execBar2Write_kept (hs : Kept σ s) (fn : Fin 9) (offset : Nat) (bytes : List Byte) :
    GoesKept σ (execBar2Write fn offset bytes s) := by
  grind [execBar2Write, goesKept_next, barUnmapped_kept, writeDva_kept, kept_iff]
theorem execBar2Resize_kept (hs : Kept σ s) (fn : Fin 9) (log2GiB : Nat) : GoesKept σ (execBar2Resize fn log2GiB s) := by
  grind [execBar2Resize, goesKept_next, cfgRequest_kept, setFn_kept, Fn.memOk, kept_iff]
theorem functionReset_kept (hs : Kept σ s) (k : Nat) : Kept σ (functionReset s k) := by
  unfold functionReset
  extract_lets s0 s1 mine cut s2 cs
  have h0 : Kept σ s0 := setFn_kept hs (by exact id)
  have h2 : Kept σ s2 := .of_parts h0.parts
  exact foldl_kept h2 _ fun s c hs => beginTeardown_kept hs _ _ _
theorem setVfs_kept (hs : Kept σ s) (en : Bool) (n : Nat) : Kept σ (setVfs s en n) := by
  grind [setVfs, functionReset_kept, foldl_kept, kept_iff]
theorem execFunctionLevelReset_kept (hs : Kept σ s) (fn : Fin 9) : GoesKept σ (execFunctionLevelReset fn s) := by
  grind [execFunctionLevelReset, goesKept_next, functionReset_kept, setVfs_kept]
theorem execPcieHotReset_kept (hs : Kept σ s) : GoesKept σ (execPcieHotReset s) := by
  grind [execPcieHotReset, goesKept_next, setVfs_kept, functionReset_kept]
theorem execVfEnableChange_kept (hs : Kept σ s) (enable : Bool) (numVfs : Fin 9) : GoesKept σ (execVfEnableChange enable numVfs s) := by
  grind [execVfEnableChange, goesKept_next, cfgRequest_kept, setVfs_kept]
theorem execPcieLinkTrained_kept (hs : Kept σ s) (gts lanes : Nat) : GoesKept σ (execPcieLinkTrained gts lanes s) := by
  grind [execPcieLinkTrained, goesKept_next, logEvent_kept, kept_iff]
theorem untranslate_kept (hs : Kept σ s) (k g : Nat) : Kept σ (untranslate s k g) := by
  grind [untranslate, askPages_kept, kept_iff, KeptParts.parts_tabMap]
theorem execAtsInvalidation_kept (hs : Kept σ s) (fn : Fin 9) (addr : Nat) : GoesKept σ (execAtsInvalidation fn addr s) := by
  grind [execAtsInvalidation, goesKept_next, setFn_kept, untranslate_kept, Fn.memOk, kept_iff]
theorem xlateRefused_kept (hs : Kept σ s) (k p n addr : Nat) : Kept σ (xlateRefused s k p n addr) := by
  unfold xlateRefused
  extract_lets f s1 named
  have h1 : Kept σ s1 := setFn_kept hs (by exact id)
  split
  · exact foldl_kept h1 _ fun s c hs => breakPath_kept hs _ _ _
  · exact foldl_kept h1 _ fun s x hs => answered_kept hs _ _ _
theorem xlateDone_kept (hs : Kept σ s) (k addr : Nat) : Kept σ (xlateDone s k addr) := by
  grind [xlateDone, gate_kept, pagesHere_kept, setFn_kept, Fn.memOk, kept_iff]
theorem execAtsTranslationCompletion_kept (hs : Kept σ s) (fn : Fin 9) (p : Fin 8) (inst addr : Nat) (ok : Bool) :
    GoesKept σ (execAtsTranslationCompletion fn p inst addr ok s) := by
  grind [execAtsTranslationCompletion, goesKept_next, xlateDone_kept, xlateRefused_kept]
theorem execConnOpen_kept (hs : Kept σ s) (fn : Fin 9) : GoesKept σ (execConnOpen fn s) := by
  unfold execConnOpen
  refine goesKept_next.2 (runOp_kept hs _ _ fun s r hs => ?_)
  extract_lets w
  refine checked_kept hs ?_ _ _ _
  split
  · exact refuseMsg_kept hs _ _ _ _
  extract_lets a b o c o'
  have ho : Kept σ o.1 := beginOp_kept (takeFree_kept (takeFree_kept (freshId_kept hs ‹_›))) _ _ _ _ _
  exact .of_parts ho.parts
theorem execConnReady_kept (hs : Kept σ s) (handle : Nat) : GoesKept σ (execConnReady handle s) := by
  grind [execConnReady, goesKept_next, endOp_kept, kept_iff]
theorem execConnClose_kept (hs : Kept σ s) (fn : Fin 9) : GoesKept σ (execConnClose fn s) := by
  grind [execConnClose, goesKept_next, runOp_kept, checked_kept, okReply_kept, kept_iff]
theorem inboundNak_kept (hs : Kept σ s) (h : Nat) (c : Conn) (a : Nat) : Kept σ (inboundNak s h c a) := by
  grind [inboundNak, logEvent_kept, kept_iff]
theorem chargeOwners_kept (hs : Kept σ s) (c a n : Nat) : Kept σ (chargeOwners s c a n) := by
  grind [chargeOwners, charge_kept, foldl_kept, kept_iff]
theorem inboundWrite_kept (hs : Kept σ s) (h key a : Nat) (bs : List Byte) {k : State → Conn → State}
    (hk : ∀ s c, Kept σ s → Kept σ (k s c)) : Kept σ (inboundWrite s h key a bs k) := by
  unfold inboundWrite
  split
  · exact hs
  refine .ite (inboundNak_kept hs _ _ _) ?_
  split
  · exact inboundNak_kept hs _ _ _
  · exact gate_kept hs (hk _ _ (chargeOwners_kept (writeDva_kept hs ‹_›) _ _ _))
theorem execRdmaWriteInbound_kept (hs : Kept σ s) (conn : Nat) (key : W32) (addr : Nat) (bytes : List Byte) :
    GoesKept σ (execRdmaWriteInbound conn key addr bytes s) := by
  grind [execRdmaWriteInbound, goesKept_next, inboundWrite_kept]
theorem execRdmaReadInbound_kept (hs : Kept σ s) (conn : Nat) (key : W32) (addr len : Nat) :
    GoesKept σ (execRdmaReadInbound conn key addr len s) := by
  unfold execRdmaReadInbound
  refine goesKept_next.2 ?_
  split
  · exact hs
  rename_i c _
  have h := readDva_kept hs hubUnit c.ctx (s.ctx c.ctx).mapVer addr len 17
  refine .ite (inboundNak_kept hs _ _ _) ?_
  split
  · exact inboundNak_kept (h.error ‹_›) _ _ _
  have h1 := h.ok ‹_›
  extract_lets o
  refine .ite (inboundNak_kept h1 _ _ _) (gate_kept hs (chargeOwners_kept ?_ _ _ _))
  exact .of_parts h1.parts
theorem execRdmaWriteImmInbound_kept (hs : Kept σ s) (conn : Nat) (key : W32) (addr : Nat) (bytes : List Byte) (imm : W32) :
    GoesKept σ (execRdmaWriteImmInbound conn key addr bytes imm s) := by
  grind [execRdmaWriteImmInbound, goesKept_next, inboundNak_kept, inboundWrite_kept, setFence_kept, kept_iff]
theorem connError_kept (hs : Kept σ s) (h : Nat) (c : Conn) : Kept σ (connError s h c) := by
  grind [connError, logEvent_kept, answered_kept, foldl_kept, kept_iff]
theorem execRdmaRetransmitTimeout_kept (hs : Kept σ s) (conn : Nat) : GoesKept σ (execRdmaRetransmitTimeout conn s) := by
  grind [execRdmaRetransmitTimeout, goesKept_next, connError_kept, kept_iff]
theorem execRdmaAckArrival_kept (hs : Kept σ s) (conn : Nat) (nak : Bool) (_bytes : List Byte) :
    GoesKept σ (execRdmaAckArrival conn nak _bytes s) := by
  grind [execRdmaAckArrival, goesKept_next, answered_kept, kept_iff]
theorem execCongestionNotificationPacket_kept (hs : Kept σ s) (conn : Nat) : GoesKept σ (execCongestionNotificationPacket conn s) := by
  grind [execCongestionNotificationPacket, goesKept_next, kept_iff]
theorem discardFrame_kept (hs : Kept σ s) (port : Nat) : Kept σ (discardFrame s port) := by
  grind [discardFrame, kept_iff]
theorem execEthFrameDiscard_kept (hs : Kept σ s) (port : Fin 2) : GoesKept σ (execEthFrameDiscard port s) := by
  grind [execEthFrameDiscard, goesKept_next, discardFrame_kept]
theorem execArpNdRequest_kept (hs : Kept σ s) (port : Fin 2) (addr : Nat) : GoesKept σ (execArpNdRequest port addr s) := by
  grind [execArpNdRequest, goesKept_next, discardFrame_kept, kept_iff]
theorem execEthLinkUp_kept (hs : Kept σ s) (port : Fin 2) : GoesKept σ (execEthLinkUp port s) := by
  grind [execEthLinkUp, goesKept_next, extendMr_kept, kept_iff]
theorem execEthAddressRecordWrite_kept (hs : Kept σ s) (record : List Byte) : GoesKept σ (execEthAddressRecordWrite record s) := by
  grind [execEthAddressRecordWrite, goesKept_next, stage_kept, logEvent_kept, kept_iff]

/-! The functions of Sched. -/

theorem markBoundary_hbm (P : Part) (a : Nat) : (markBoundary P a).hbm = P.hbm := rfl

theorem takeTable_hbm (P : Part) (l : List Slot) (a : Nat) : (takeTable P l a).hbm = P.hbm := by
  unfold takeTable
  split <;> rfl

theorem execSlotBoundary_kept (hs : Kept σ s) (p : Fin 8) : GoesKept σ (execSlotBoundary p s) := by
  have h : ∀ P : Part, P.hbm = (s.part p).hbm → Kept σ (s.setPart p P) := fun P hP => setPart_kept hs fun h => hP ▸ h
  unfold execSlotBoundary
  extract_lets P
  refine goesKept_next.2 (.ite hs ?_)
  split
  · split
    exacts [hs, h _ ((markBoundary_hbm _ _).trans (takeTable_hbm _ _ _))]
  · extract_lets e
    refine .ite hs (.ite (h _ (markBoundary_hbm _ _)) ?_)
    split
    exacts [h _ ((markBoundary_hbm _ _).trans (takeTable_hbm _ _ _)), h _ (markBoundary_hbm _ _)]
theorem preempt_kept (hs : Kept σ s) (p n : Nat) : Kept σ (preempt s p n) := by
  grind [preempt, setPart_kept, abandon_kept, failNode_kept, requeue_kept, kept_iff]
theorem execGraceExpiry_kept (hs : Kept σ s) (p : Fin 8) : GoesKept σ (execGraceExpiry p s) := by
  grind [execGraceExpiry, goesKept_next, preempt_kept, setPart_kept, foldl_kept, kept_iff]
theorem execRegulatorRefill_kept (hs : Kept σ s) (p : Fin 8) : GoesKept σ (execRegulatorRefill p s) := by
  grind [execRegulatorRefill, goesKept_next, setPart_kept, foldl_kept, kept_iff]

/-! The functions of Dump. -/

theorem storeDump_kept (hs : Kept σ s) (p q : Nat) (bs : List Byte) : Kept σ (storeDump s p q bs) :=
  setPart_kept hs fun h => memWrite_wf h _ _
theorem clearDump_kept (hs : Kept σ s) (p q : Nat) : Kept σ (clearDump s p q) := setPart_kept hs fun h => memZero_wf h _ _
theorem takeDump_kept (hs : Kept σ s) (p : Nat) (on clean : Bool) (old : Tab Tile) (table : Tab Inst) (d : Dump) :
    Kept σ (takeDump s p on clean old table d) := by
  grind [takeDump, setPart_kept, storeDump_kept, charge_kept, logEvent_kept, kept_iff]
theorem execStateSave_kept (hs : Kept σ s) (fn : Fin 9) (clean : Bool) : GoesKept σ (execStateSave fn clean s) := by
  grind [execStateSave, goesKept_next, runMsg_kept, checked_kept, beginOp_kept, takeDump_kept, setPart_kept, kept_iff]
theorem execFullStateSaveDone_kept (hs : Kept σ s) (p : Fin 8) : GoesKept σ (execFullStateSaveDone p s) := by
  grind [execFullStateSaveDone, goesKept_next, setPart_kept, thaw_kept, preempt_kept, endOp_kept, foldl_kept, kept_iff]
theorem execDuskDumpRead_kept (hs : Kept σ s) (fn : Fin 9) : GoesKept σ (execDuskDumpRead fn s) := by
  grind [execDuskDumpRead, goesKept_next, runOp_kept, checked_kept, post_kept, clearDump_kept, setPart_kept, okReply_kept, kept_iff]

/-! The functions of Recovery. -/

theorem execLogRead_kept (hs : Kept σ s) (fn : Fin 9) : GoesKept σ (execLogRead fn s) := by
  grind [execLogRead, goesKept_next, runOp_kept, checked_kept, takeFree_kept, okReply_kept, kept_iff]
theorem execEscalationSet_kept (hs : Kept σ s) (fn : Fin 9) : GoesKept σ (execEscalationSet fn s) := by
  grind [execEscalationSet, goesKept_next, runOp_kept, checked_kept, okReply_kept, extendMr_kept, kept_iff]
theorem clearOos_kept (hs : Kept σ s) (p : Nat) : Kept σ (clearOos s p) := by
  unfold clearOos
  extract_lets back P s1
  have h1 : Kept σ s1 := setPart_kept hs (by exact id)
  exact .of_parts h1.parts
theorem clearModuleOos_kept (hs : Kept σ s) : Kept σ (clearModuleOos s) := by
  grind [clearModuleOos, kept_iff, KeptParts.parts_tabMap]
theorem restorePart_kept (hs : Kept σ s) (p o : Nat) : Kept σ (restorePart s p o) := by
  grind [restorePart, startReset_kept, clearOos_kept, setPart_kept, kept_iff]
theorem execServiceRestore_kept (hs : Kept σ s) (fn : Fin 9) : GoesKept σ (execServiceRestore fn s) := by
  grind [execServiceRestore, goesKept_next, runOp_kept, checked_kept, clearModuleOos_kept, okReply_kept, beginOp_kept, restorePart_kept,
    foldl_kept]
theorem execPartitionReset_kept (hs : Kept σ s) (fn : Fin 9) : GoesKept σ (execPartitionReset fn s) := by
  grind [execPartitionReset, goesKept_next, runOp_kept, checked_kept, beginOp_kept, startReset_kept]
theorem execCpHeartbeatCheck_kept (hs : Kept σ s) (p : Fin 8) : GoesKept σ (execCpHeartbeatCheck p s) := by
  grind [execCpHeartbeatCheck, goesKept_next, raise_kept]
theorem execTileHang_kept (hs : Kept σ s) (p : Fin 8) (t : Fin 16) : GoesKept σ (execTileHang p t s) := by
  grind [execTileHang, goesKept_next, killNode_kept, kept_iff]
theorem execTileStopFail_kept (hs : Kept σ s) (p : Fin 8) (t : Fin 16) : GoesKept σ (execTileStopFail p t s) := by
  grind [execTileStopFail, goesKept_next, raise_kept, kept_iff]
theorem execDcpWatchdog_kept (hs : Kept σ s) (p : Fin 8) : GoesKept σ (execDcpWatchdog p s) := by
  grind [execDcpWatchdog, goesKept_next, startReset_kept, logEvent_kept]
theorem coreJobAbort_kept (hs : Kept σ s) (job code : Nat) : Kept σ (coreJobAbort s job code) := by
  grind [coreJobAbort, logEvent_kept, floodAbort_kept, kept_iff]
theorem execMcpWatchdog_kept (hs : Kept σ s) : GoesKept σ (execMcpWatchdog s) := by
  unfold execMcpWatchdog
  extract_lets s1 s2 cs jobs s3
  refine goesKept_next.2 (.ite hs ?_)
  have h1 : Kept σ s1 := logEvent_kept hs
  have h2 : Kept σ s2 := .of_parts h1.parts
  have h3 : Kept σ s3 := checkModuleLimit_kept (foldl_kept h2 _ fun s j hs => coreJobAbort_kept hs _ _) _ _
  clear_value s3
  refine kept_iff.2 ?_
  dsimp only
  refine KeptParts.fns_tabMap (KeptParts.parts_tabMap h3.parts ?_) ?_
  · exact fun _ _ h => h
  · exact fun _ _ h => h
theorem execHubCoreFail_kept (hs : Kept σ s) (core : Nat) : GoesKept σ (execHubCoreFail core s) := by
  grind [execHubCoreFail, goesKept_next, raise_kept]
theorem execHbmCaParityError_kept (hs : Kept σ s) (p : Fin 8) (pc : Fin 96) : GoesKept σ (execHbmCaParityError p pc s) := by
  grind [execHbmCaParityError, goesKept_next, setPart_kept, takeFree_kept, raise_kept, kept_iff]
theorem execPatrolScrubRead_kept (hs : Kept σ s) (p : Fin 8) : GoesKept σ (execPatrolScrubRead p s) := by
  grind [execPatrolScrubRead, goesKept_next, setPart_kept, readLine_kept, raise_kept, kept_iff]
theorem execHbmSelfRefreshReturn_kept (hs : Kept σ s) (p : Fin 8) : GoesKept σ (execHbmSelfRefreshReturn p s) := by
  grind [execHbmSelfRefreshReturn, goesKept_next, setPart_kept, kept_iff]
theorem execSundownComplete_kept (hs : Kept σ s) (p : Fin 8) (clean : Bool) : GoesKept σ (execSundownComplete p clean s) := by
  grind [execSundownComplete, goesKept_next, thaw_kept, takeDump_kept, setPart_kept, kept_iff]
theorem resetTiles_kept (hs : Kept σ s) (p : Nat) : Kept σ (resetTiles s p) :=
  foldl_kept hs _ fun _ _ hs => setTile_kept hs fun _ => rfl
theorem computeReset_kept (hs : Kept σ s) (p : Nat) : Kept σ (computeReset s p) := by
  unfold computeReset
  extract_lets s1
  have h1 : Kept σ s1 := foldl_kept hs _ fun s c hs => setCp_kept hs
  exact setPart_kept h1 (by exact id)
theorem resetToOos_kept (hs : Kept σ s) (p : Nat) (r : Reset) : Kept σ (resetToOos s p r) := by
  grind [resetToOos, partOutOfService_kept, sendJobAbort_kept, foldl_kept]
theorem execPartitionComputeReset_kept (hs : Kept σ s) (p : Fin 8) : GoesKept σ (execPartitionComputeReset p s) := by
  grind [execPartitionComputeReset, goesKept_next, computeReset_kept, resetToOos_kept, setPart_kept, startItem_kept, foldl_kept, kept_iff]
theorem reloadCtx_kept (hs : Kept σ s) (c p : Nat) : Kept σ (reloadCtx s c p) := by
  grind [reloadCtx, reloadOn_kept, foldl_kept]
theorem zeroFrames_kept (hs : Kept σ s) (p top : Nat) : Kept σ (zeroFrames s p top) := by
  unfold zeroFrames
  extract_lets P hb s1
  have h1 : Kept σ s1 := setPart_kept hs fun h => by exact memZero_wf h _ _
  exact .of_parts h1.parts
theorem zeroHbm_kept (hs : Kept σ s) (p : Nat) : Kept σ (zeroHbm s p) := by
  unfold zeroHbm
  extract_lets s1
  have h1 : Kept σ s1 := zeroFrames_kept hs _ _
  clear_value s1
  refine kept_iff.2 ?_
  dsimp only
  refine KeptParts.parts_tabMap h1.parts ?_
  intro p P h
  split <;> exact h
theorem placeImages_kept (hs : Kept σ s) (p : Nat) : Kept σ (placeImages s p) := by
  unfold placeImages
  extract_lets P b m
  refine setPart_kept hs fun h => ?_
  exact List.foldlRecOn (motive := fun m : Mem => m.wf = true) _ _ h fun m hm k _ => memWrite_wf hm _ _
theorem restoreMemory_kept (hs : Kept σ s) (p cause : Nat) : Kept σ (restoreMemory s p cause) := by
  grind [restoreMemory, reloadCtx_kept, placeImages_kept, zeroHbm_kept, logEvent_kept, foldl_kept]
theorem execPartitionReinit_kept (hs : Kept σ s) (p : Fin 8) (trained : Bool) : GoesKept σ (execPartitionReinit p trained s) := by
  unfold execPartitionReinit
  refine goesKept_next.2 ?_
  split
  · extract_lets ok bad P hb s1 bt s2
    have h1 : Kept σ s1 := setPart_kept hs (by exact id)
    have h2 : Kept σ s2 := by
      refine resetTiles_kept ?_ _
      exact .of_parts h1.parts
    clear_value s2
    exact .ite hs (.ite (resetToOos_kept hs _ _) (.ite (restoreMemory_kept h2 _ _) h2))
  · exact hs
theorem settleSlots_kept (hs : Kept σ s) (c : Nat) (loads : List Nat) : Kept σ (settleSlots s c loads) := by
  grind [settleSlots, settleReleases_kept, settleLoad_kept, foldl_kept]
theorem restorePartition_hbm (P : Part) : (restorePartition P).hbm = P.hbm := by
  unfold restorePartition
  extract_lets P1
  split
  · exact (takeTable_hbm _ _ _ : (takeTable _ _ _).hbm = _)
  · rfl

theorem leaveReset_mem (s : State) (P : Part) : (leaveReset s P).hbm.mem = P.hbm.mem := by
  unfold leaveReset
  split <;> rfl

theorem execPartitionResetEnd_kept (hs : Kept σ s) (p : Fin 8) : GoesKept σ (execPartitionResetEnd p s) := by
  unfold execPartitionResetEnd
  extract_lets s1 s2
  refine goesKept_next.2 ?_
  split
  · extract_lets dur s3
    have h1 : Kept σ s1 := foldl_kept hs _ fun s c hs => setCp_kept hs
    have h2 : Kept σ s2 := setPart_kept h1 fun h => by
      rw [leaveReset_mem, restorePartition_hbm]
      exact h
    have h3 : Kept σ s3 := foldl_kept (logEvent_kept h2) _ fun s c hs => settleSlots_kept hs _ _
    exact .ite hs (releaseWaiters_kept (boundaryIfIdle_kept h3 _) _ _ _ _)
  · exact hs

/-! The functions of Bringup. -/

theorem stopLoads_kept (hs : Kept σ s) : Kept σ (stopLoads s) := by
  grind [stopLoads, stopLoad_kept, foldl_kept]
theorem Tile.fresh_memOk (x : Tile) : x.fresh.memOk = true := rfl

theorem leftOver_kept (hs : Kept σ s) : Kept σ (leftOver s) := by
  have h1 : Kept σ (stopLoads s) := stopLoads_kept hs
  refine .of_parts (σ := σ) (t := leftOver s) ⟨h1.1, fun _ => ⟨Nat.zero_le _, fun h => absurd rfl h⟩, fun m => ?_⟩
  obtain ⟨hp, ht, hf⟩ := h1.2.2 m
  refine ⟨fun e he => ?_, fun e he => ?_, fun e he => ?_⟩
  · obtain ⟨x, hx, rfl⟩ := List.mem_map.mp he
    rfl
  · obtain ⟨x, hx, rfl⟩ := List.mem_map.mp he
    rfl
  · cases he
theorem cutRaise_kept (hs : Kept σ s) : Kept σ (cutRaise s) := by
  grind [cutRaise, kept_iff]
theorem mainsOff_kept (hs : Kept σ s) : Kept σ (mainsOff s) := by
  grind [mainsOff, leftOver_kept, cutRaise_kept]
theorem moduleReset_kept (hs : Kept σ s) : Kept σ (moduleReset s) := by
  unfold moduleReset
  extract_lets c
  have hc : Kept σ c := leftOver_kept hs
  clear_value c
  refine .of_parts ⟨hc.1, hc.2.1, fun m => ⟨fun e he => ?_, (hc.2.2 m).2⟩⟩
  obtain ⟨x, hx, rfl⟩ := List.mem_map.mp he
  rfl
theorem beginDawn_kept (hs : Kept σ s) : Kept σ (beginDawn s) :=
  .of_parts (KeptParts.parts_tabMods (f := fun _ P => { P with count := 0 }) hs.parts allParts fun _ _ h => h)
theorem markOrigin_kept (hs : Kept σ s) : Kept σ (markOrigin s) := by
  grind [markOrigin, kept_iff]
theorem execStandbyPowerUp_kept (hs : Kept σ s) : GoesKept σ (execStandbyPowerUp s) := by
  grind [execStandbyPowerUp, goesKept_next, kept_iff]
theorem execStandbyPowerLoss_kept (hs : Kept σ s) : GoesKept σ (execStandbyPowerLoss s) := by
  unfold execStandbyPowerLoss
  extract_lets c
  have hc : Kept σ c := mainsOff_kept hs
  exact goesKept_next.2 (.ite hs (.of_parts hc.parts))
theorem startRamp_kept (hs : Kept σ s) : Kept σ (startRamp s) := by
  grind [startRamp, markOrigin_kept, kept_iff]
theorem refBack_kept (hs : Kept σ s) : Kept σ (refBack s) := by
  grind [refBack, kept_iff]
theorem execPwrEnRise_kept (hs : Kept σ s) : GoesKept σ (execPwrEnRise s) := by
  unfold execPwrEnRise
  extract_lets pins' s1
  have h1 : Kept σ s1 := refBack_kept (markOrigin_kept (.of_parts hs.parts))
  refine goesKept_next.2 (.ite hs ?_)
  split
  · exact .ite h1 (startRamp_kept h1)
  · exact startRamp_kept h1
theorem execRampStartDelay_kept (hs : Kept σ s) : GoesKept σ (execRampStartDelay s) := by
  grind [execRampStartDelay, goesKept_next, startRamp_kept, kept_iff]
theorem execPwrEnFall_kept (hs : Kept σ s) : GoesKept σ (execPwrEnFall s) := by
  unfold execPwrEnFall
  extract_lets c
  have hc : Kept σ c := mainsOff_kept hs
  exact goesKept_next.2 (.ite hs (.of_parts hc.parts))
theorem execResetNAssert_kept (hs : Kept σ s) : GoesKept σ (execResetNAssert s) := by
  unfold execResetNAssert
  extract_lets c
  have hc : Kept σ c := moduleReset_kept hs
  exact goesKept_next.2 (.ite hs (.of_parts hc.parts))
theorem execResetNDeassert_kept (hs : Kept σ s) : GoesKept σ (execResetNDeassert s) := by
  grind [execResetNDeassert, goesKept_next, refBack_kept, markOrigin_kept, beginDawn_kept, kept_iff]
theorem execRailsInRegulation_kept (hs : Kept σ s) : GoesKept σ (execRailsInRegulation s) := by
  grind [execRailsInRegulation, goesKept_next, beginDawn_kept, kept_iff]
theorem haltEarly_kept (hs : Kept σ s) (stage : Nat) : Kept σ (haltEarly s stage) := by
  grind [haltEarly, stage_kept, kept_iff]
theorem execDawnEnd_kept (hs : Kept σ s) (ok : Bool) : GoesKept σ (execDawnEnd ok s) := by
  grind [execDawnEnd, goesKept_next, stage_kept, haltEarly_kept, kept_iff]
theorem loadMap_kept (hs : Kept σ s) : Kept σ (loadMap s) := by
  grind [loadMap, logEvent_kept, kept_iff]
theorem loadPlan_kept (hs : Kept σ s) : Kept σ (loadPlan s) := by
  unfold loadPlan
  extract_lets none_
  have hn : Kept σ (none_ s) := .of_parts hs.parts
  clear_value none_
  split
  · exact hn
  split
  · exact logEvent_kept hn
  · extract_lets s1
    have h1 : Kept σ s1 := .ite (logEvent_kept hs) hs
    exact .of_parts h1.parts
theorem measureBoot_kept (hs : Kept σ s) (b : List Byte) : Kept σ (measureBoot s b) := by
  grind [measureBoot, extendMr_kept, foldl_kept, kept_iff]
theorem twilightRecord_kept (hs : Kept σ s) : Kept σ (twilightRecord s) := by
  grind [twilightRecord, foldl_kept, kept_iff]
theorem startLog_kept (hs : Kept σ s) : Kept σ (startLog s) := by
  grind [startLog, logEvent_kept, foldl_kept, kept_iff]
theorem startMorning_kept (hs : Kept σ s) : Kept σ (startMorning s) := by
  grind [startMorning, startItem_kept, startPort_kept, foldl_kept]
theorem execSunriseEnd_kept (hs : Kept σ s) (temps railsMv : List Nat) : GoesKept σ (execSunriseEnd temps railsMv s) := by
  unfold execSunriseEnd
  refine goesKept_next.2 (.ite hs ?_)
  split
  · exact haltEarly_kept hs _
  extract_lets run sec' s1 s2 s3 s4 s5
  have h1 : Kept σ s1 := twilightRecord_kept (startLog_kept (.of_parts hs.parts))
  have h2 : Kept σ s2 := .ite h1 (logEvent_kept h1)
  have h3 : Kept σ s3 := measureBoot_kept h2 _
  have h4 : Kept σ s4 := loadPlan_kept (loadMap_kept h3)
  have h5 : Kept σ s5 := .ite h4 (logEvent_kept h4)
  clear_value s5
  exact startMorning_kept
    (.of_parts (KeptParts.parts_tabMods (f := fun _ P => { P with dcpAt := P.count }) h5.parts allParts fun _ _ h => h))
theorem execThermalSettle_kept (hs : Kept σ s) : GoesKept σ (execThermalSettle s) := by
  grind [execThermalSettle, goesKept_next, kept_iff]
theorem haltMorning_kept (hs : Kept σ s) : Kept σ (haltMorning s) := by
  unfold haltMorning
  extract_lets s1
  have h1 : Kept σ s1 := raise_kept hs _
  exact .of_parts h1.parts
theorem failPart_kept (hs : Kept σ s) (p : Nat) : Kept σ (failPart s p) := by
  grind [failPart, haltMorning_kept, kept_iff]
theorem testEnd_kept (hs : Kept σ s) (p o : Nat) (ok : Bool) : Kept σ (testEnd s p o ok) := by
  unfold testEnd
  extract_lets P Q s1
  have h1 : Kept σ s1 := setPart_kept hs fun h => by
    split <;> exact h
  clear_value s1
  split
  · exact h1
  · exact .ite (endOp_kept h1 _ _ _) (.of_parts h1.parts)
theorem stackFailed_kept (hs : Kept σ s) (i : Nat) : Kept σ (stackFailed s i) := by
  grind [stackFailed, logEvent_kept, stage_kept, failPart_kept, testEnd_kept, kept_iff]
theorem itemDone_kept (hs : Kept σ s) (i : Nat) : Kept σ (itemDone s i) := by
  grind [itemDone, setItem_kept, setPart_kept, setLp_kept, kept_iff]
theorem itemFailed_kept (hs : Kept σ s) (i : Nat) : Kept σ (itemFailed s i) := by
  grind [itemFailed, setItem_kept, stackFailed_kept, setPort_kept, kept_iff]
theorem trainRetry_kept (hs : Kept σ s) (i : Nat) : Kept σ (trainRetry s i) := by
  grind [trainRetry, logEvent_kept]
theorem execTrainingItemDone_kept (hs : Kept σ s) (item : Fin 72) (marginOk : Bool) :
    GoesKept σ (execTrainingItemDone item marginOk s) := by
  have hr : Kept σ (trainRetry s item) := trainRetry_kept hs _
  unfold execTrainingItemDone
  refine goesKept_next.2 ?_
  split
  · exact itemDone_kept hs _
  · exact itemDone_kept hs _
  · exact itemDone_kept hs _
  · exact itemDone_kept hs _
  · extract_lets s1
    have h1 : Kept σ s1 := setItem_kept hr _ _
    exact .of_parts h1.parts
  · exact startCold_kept hr _
  · exact setItem_kept hr _ _
  · exact itemFailed_kept hs _
  all_goals exact hs
theorem execPartitionZeroed_kept (hs : Kept σ s) (p : Fin 8) : GoesKept σ (execPartitionZeroed p s) := by
  grind [execPartitionZeroed, goesKept_next, placeImages_kept, zeroHbm_kept, kept_iff]
theorem coreFailed_kept (hs : Kept σ s) (p core : Nat) : Kept σ (coreFailed s p core) := by
  grind [coreFailed, logEvent_kept, stage_kept, resetToOos_kept, testEnd_kept, failPart_kept, kept_iff]
theorem execMorningCoreVerify_kept (hs : Kept σ s) (p : Fin 8) (core : Fin 113) (digestOk : Bool) :
    GoesKept σ (execMorningCoreVerify p core digestOk s) := by
  grind [execMorningCoreVerify, goesKept_next, testEnd_kept, coreFailed_kept, kept_iff]
theorem execNvwsMountDone_kept (hs : Kept σ s) (ok : Bool) : GoesKept σ (execNvwsMountDone ok s) := by
  grind [execNvwsMountDone, goesKept_next, haltMorning_kept, kept_iff]
theorem execReadiness_kept (hs : Kept σ s) : GoesKept σ (execReadiness s) := by
  unfold execReadiness
  extract_lets degraded idle s0 f s1
  refine goesKept_next.2 (.ite hs ?_)
  have h0 : Kept σ s0 := foldl_kept hs _ fun s p hs => setPart_kept hs fun h => by
    split <;> exact h
  have h1 : Kept σ s1 := takeFree_kept h0
  exact .of_parts h1.parts
theorem execSavedRecordWrite_kept (hs : Kept σ s) (item : Fin 72) (tempC : Nat) (railMv : Nat) :
    GoesKept σ (execSavedRecordWrite item tempC railMv s) := by
  grind [execSavedRecordWrite, goesKept_next, kept_iff]
theorem execFwSvnRaise_kept (hs : Kept σ s) : GoesKept σ (execFwSvnRaise s) := by
  unfold execFwSvnRaise
  extract_lets b c' c s1
  have h1 : Kept σ s1 := .of_parts hs.parts
  exact goesKept_next.2 (.ite hs (.ite h1 (logEvent_kept (extendMr_kept h1 _ _))))
theorem execVfMapWrite_kept (hs : Kept σ s) (record : List Byte) : GoesKept σ (execVfMapWrite record s) := by
  grind [execVfMapWrite, goesKept_next, kept_iff]
theorem logOrKeep_kept (hs : Kept σ s) (e : Ev) : Kept σ (logOrKeep s e) := by
  grind [logOrKeep, logEvent_kept, kept_iff]
theorem execFirmwareBundleUpdate_kept (hs : Kept σ s) (bundle : List Byte) : GoesKept σ (execFirmwareBundleUpdate bundle s) := by
  grind [execFirmwareBundleUpdate, goesKept_next, logOrKeep_kept, foldl_kept, kept_iff]
theorem execTrainingSavedClear_kept (hs : Kept σ s) (fn : Fin 9) : GoesKept σ (execTrainingSavedClear fn s) := by
  grind [execTrainingSavedClear, goesKept_next, runOp_kept, checked_kept, okReply_kept, kept_iff]
theorem execTestModeEnter_kept (hs : Kept σ s) (fn : Fin 9) : GoesKept σ (execTestModeEnter fn s) := by
  grind [execTestModeEnter, goesKept_next, runMsg_kept, checked_kept, okReply_kept, setPart_kept, foldl_kept, kept_iff]
theorem leaveTest_kept (hs : Kept σ s) (p o : Nat) : Kept σ (leaveTest s p o) := by
  unfold leaveTest
  extract_lets P hb s1 bt s2
  have h1 : Kept σ s1 := setPart_kept hs (by exact id)
  have h2 : Kept σ s2 := .of_parts h1.parts
  clear_value s2
  exact foldl_kept (resetTiles_kept h2 _) _ fun s i hs => .ite (startCold_kept hs _) (startItem_kept hs _)
theorem execTestModeExit_kept (hs : Kept σ s) (fn : Fin 9) : GoesKept σ (execTestModeExit fn s) := by
  grind [execTestModeExit, goesKept_next, runOp_kept, checked_kept, okReply_kept, beginOp_kept, leaveTest_kept, foldl_kept]
theorem execRefclkLoss_kept (hs : Kept σ s) : GoesKept σ (execRefclkLoss s) := by
  grind [execRefclkLoss, goesKept_next, raise_kept, kept_iff]
theorem shutOff_kept (hs : Kept σ s) (code : Nat) : Kept σ (shutOff s code) := by
  unfold shutOff
  extract_lets c
  have hc : Kept σ c := mainsOff_kept hs
  refine .ite ?_ (.of_parts hc.parts)
  split
  exacts [.ite (.of_parts hs.parts) hs, hs]
theorem execThermalTrip_kept (hs : Kept σ s) : GoesKept σ (execThermalTrip s) := by
  grind [execThermalTrip, goesKept_next, shutOff_kept]
theorem execOvercurrent_kept (hs : Kept σ s) : GoesKept σ (execOvercurrent s) := by
  grind [execOvercurrent, goesKept_next, shutOff_kept]

/-! The functions of GraphMsgs. -/

theorem postNodes_kept (hs : Kept σ s) (r : Req) (p n : Nat) (nodes : HostRd) : Kept σ (postNodes s r p n nodes).2 := by
  unfold postNodes
  extract_lets w0
  split
  · exact hs
  split
  · split <;> exact hs
  have h := readDva_kept hs p r.ctx (s.ctx r.ctx).mapVer (wd64 r.payload 2) (64 * n) 16
  split
  · split <;> exact h.ok ‹_›
  · exact h.error ‹_›
theorem postSegment_kept (hs : Kept σ s) (k : Nat) (r : Req) (p : Nat) (root : Bool) (nodes : List (List Nat)) :
    Kept σ (postSegment s k r p root nodes) := by
  unfold postSegment
  extract_lets segs
  split
  · exact refuseMsg_kept hs _ _ _ _
  extract_lets x s2 s3
  have h2 : Kept σ s2 := setCp_kept (freshId_kept hs ‹_›)
  exact okReply_kept (.ite (instantiate_kept h2 _ _ _ _ _ _) h2) _ _ _
theorem execGraphPost_kept (hs : Kept σ s) (fn : Fin 9) (nodes : HostRd) : GoesKept σ (execGraphPost fn nodes s) := by
  unfold execGraphPost
  refine goesKept_next.2 (runOp_kept hs _ _ fun s r hs => ?_)
  extract_lets w0 p n inl addr root
  have hp := postNodes_kept hs r p n nodes
  refine checked_kept hs ?_ _ _ _
  split <;> rename_i he <;> rw [he] at hp
  · exact refuseMsg_kept hp _ _ _ _
  extract_lets segs
  split
  · exact refuseMsg_kept hp _ _ _ _
  · exact .ite (refuseMsg_kept hp _ _ _ _) (postSegment_kept hp _ _ _ _ _)
theorem execSubgraphRelease_kept (hs : Kept σ s) (fn : Fin 9) : GoesKept σ (execSubgraphRelease fn s) := by
  grind [execSubgraphRelease, goesKept_next, runOp_kept, checked_kept, okReply_kept, setCp_kept, kept_iff]
theorem execGraphAbort_kept (hs : Kept σ s) (fn : Fin 9) : GoesKept σ (execGraphAbort fn s) := by
  grind [execGraphAbort, goesKept_next, runOp_kept, checked_kept, abandonSet_kept, reply_kept, beginOp_kept, kept_iff]
theorem execCplRingSet_kept (hs : Kept σ s) (fn : Fin 9) : GoesKept σ (execCplRingSet fn s) := by
  grind [execCplRingSet, goesKept_next, runOp_kept, checked_kept, okReply_kept, setCp_kept, kept_iff]
theorem execGraphQuery_kept (hs : Kept σ s) (fn : Fin 9) : GoesKept σ (execGraphQuery fn s) := by
  grind [execGraphQuery, goesKept_next, runOp_kept, checked_kept, okReply_kept]

/-! The functions of Power. -/

theorem execActivityStepDown_kept (hs : Kept σ s) (p : Fin 8) (powerAfterMw : Nat) :
    GoesKept σ (execActivityStepDown p powerAfterMw s) := by
  grind [execActivityStepDown, goesKept_next, setPart_kept, noFiller_kept, kept_iff]
theorem execActivityExit_kept (hs : Kept σ s) (p : Fin 8) : GoesKept σ (execActivityExit p s) := by
  grind [execActivityExit, goesKept_next, setPart_kept, kept_iff]
theorem execA4Entry_kept (hs : Kept σ s) : GoesKept σ (execA4Entry s) := by
  unfold execA4Entry
  extract_lets s1 s2
  refine goesKept_next.2 (.ite hs ?_)
  have h1 : Kept σ s1 := by
    refine foldl_kept hs _ fun s p hs => ?_
    exact resetTiles_kept (setPart_kept hs fun h => by exact memZero_wf h _ _) _
  clear_value s1
  have h2 : Kept σ s2 := foldl_kept h1 _ fun s k hs => .ite (quietPort_kept hs _ _) hs
  clear_value s2
  exact .of_parts h2.parts
theorem reloadBound_kept (hs : Kept σ s) (c p : Nat) : Kept σ (reloadBound s c p) := by
  grind [reloadBound, reloadOn_kept, foldl_kept]
theorem wakePart_kept (hs : Kept σ s) (p : Nat) : Kept σ (wakePart s p) := by
  grind [wakePart, reloadBound_kept, setCp_kept, zeroFrames_kept, setPart_kept, foldl_kept, kept_iff]
theorem reloadCounts_kept (hs : Kept σ s) : Kept σ (reloadCounts s) := by
  grind [reloadCounts, kept_iff, KeptParts.parts_tabMap]
theorem execA4Exit_kept (hs : Kept σ s) : GoesKept σ (execA4Exit s) := by
  unfold execA4Exit
  refine goesKept_next.2 ?_
  split
  · exact hs
  extract_lets s0 pw s1
  have h0 : Kept σ s0 := reloadCounts_kept hs
  clear_value s0 pw
  have h1 : Kept σ s1 := by
    refine foldl_kept ?_ _ fun s p hs => wakePart_kept hs _
    exact .of_parts h0.parts
  clear_value s1
  exact foldl_kept h1 _ fun s k hs => .ite (startPort_kept hs _) hs
theorem execEnvelopeUpdate_kept (hs : Kept σ s) (m : Measured) : GoesKept σ (execEnvelopeUpdate m s) := by
  grind [execEnvelopeUpdate, goesKept_next, logEvent_kept, noFiller_kept, foldl_kept, kept_iff]
theorem execFillerStart_kept (hs : Kept σ s) (p : Fin 8) (t : Fin 16) : GoesKept σ (execFillerStart p t s) := by
  grind [execFillerStart, goesKept_next, setTile_kept, Tile.memOk, kept_iff]
theorem setThermN_kept (hs : Kept σ s) : Kept σ (setThermN s) := by
  grind [setThermN, kept_iff]
theorem execThermalThrottleStep_kept (hs : Kept σ s) (p : Fin 8) (hot cool : Bool) :
    GoesKept σ (execThermalThrottleStep p hot cool s) := by
  grind [execThermalThrottleStep, goesKept_next, setPart_kept, noFiller_kept, logOrKeep_kept, setThermN_kept, kept_iff]
theorem execCoolantOutletHigh_kept (hs : Kept σ s) : GoesKept σ (execCoolantOutletHigh s) := by
  grind [execCoolantOutletHigh, goesKept_next, setThermN_kept, logOrKeep_kept, kept_iff]
theorem execThermNRelease_kept (hs : Kept σ s) : GoesKept σ (execThermNRelease s) := by
  grind [execThermNRelease, goesKept_next, setThermN_kept, kept_iff]
theorem execInputOvervoltage_kept (hs : Kept σ s) : GoesKept σ (execInputOvervoltage s) := by
  grind [execInputOvervoltage, goesKept_next, shutOff_kept]
theorem execInputUndervoltage_kept (hs : Kept σ s) : GoesKept σ (execInputUndervoltage s) := by
  grind [execInputUndervoltage, goesKept_next, shutOff_kept]
theorem execPldmSensorRefresh_kept (hs : Kept σ s) (values : List Nat) : GoesKept σ (execPldmSensorRefresh values s) := by
  grind [execPldmSensorRefresh, goesKept_next, stage_kept, kept_iff]
theorem execSmbusAlertResponse_kept (hs : Kept σ s) : GoesKept σ (execSmbusAlertResponse s) := by
  grind [execSmbusAlertResponse, goesKept_next, kept_iff]
theorem execJtagInstruction_kept (hs : Kept σ s) (code : Nat) : GoesKept σ (execJtagInstruction code s) := by
  unfold execJtagInstruction
  extract_lets s1 f
  have h1 : Kept σ s1 := .of_parts hs.parts
  exact goesKept_next.2 (.ite (.of_parts h1.parts) (.ite (.of_parts h1.parts) (.of_parts h1.parts)))

/-! The functions of Security. -/

theorem execDebugChallenge_kept (hs : Kept σ s) (fn : Fin 9) : GoesKept σ (execDebugChallenge fn s) := by
  grind [execDebugChallenge, goesKept_next, runOp_kept, checked_kept, okReply_kept, kept_iff]
/-- A level that R1057 gives, above 0 with its mark, keeps the debug mark. -/
theorem setDebug_kept (hs : Kept σ s) {l : Nat} (hl : l ≤ 2) (he : l ≠ 0 → s.sec.ever = true) : Kept σ (setDebug s l) :=
  hs.step rfl (fun _ => ⟨hl, he⟩) id
theorem unlockFails_kept (hs : Kept σ s) (k : Nat) (r : Req) (l status : Nat) : Kept σ (unlockFails s k r l status) := by
  grind [unlockFails, refuseMsg_kept, logEvent_kept, kept_iff]
theorem unlockOk_kept (hs : Kept σ s) (k : Nat) (r : Req) {l : Nat} (hl : l ≤ 2) (bs : List Byte) : Kept σ (unlockOk s k r l bs) := by
  unfold unlockOk
  extract_lets sec' s1
  have h1 : Kept σ s1 := by
    refine extendMr_kept ?_ _ _
    exact hs.step rfl (fun h => ⟨h.1, fun _ => rfl⟩) id
  exact okReply_kept (logEvent_kept (setDebug_kept h1 hl fun _ => rfl)) _ _ _
/-- Where no check fails, each of them is false. -/
theorem firstBad_none_iff {l : List (Bool × Nat × Nat)} : firstBad l = none ↔ ∀ c ∈ l, c.1 = false := by
  induction l with
  | nil => simp [firstBad]
  | cons c l ih =>
    obtain ⟨b, st, d⟩ := c
    cases b <;> simp [firstBad, ih]

/-- A message goes on to a kept state where it goes on at all. -/
theorem checked_kept_of_none (hs : Kept σ s) {l : List (Bool × Nat × Nat)} (ht : firstBad l = none → Kept σ t) (k : Nat) (r : Req) :
    Kept σ (checked s k r l t) := by
  unfold checked
  split
  exacts [refuseMsg_kept hs _ _ _ _, ht ‹_›]

theorem execDebugUnlock_kept (hs : Kept σ s) (fn : Fin 9) (token : HostRd) : GoesKept σ (execDebugUnlock fn token s) := by
  unfold execDebugUnlock
  refine goesKept_next.2 (runOp_kept hs _ _ fun s r hs => ?_)
  extract_lets l sec'
  refine checked_kept_of_none hs (fun hc => ?_) _ _
  have hl : l ≤ 2 := by
    have h3 : l ≠ 3 := by
      intro h
      have hc3 := firstBad_none_iff.1 hc (l == 3, 0x16, atWord 0) (by simp)
      simp [h] at hc3
    have h4 : l < 4 := Nat.mod_lt _ (by decide)
    omega
  refine .ite (okReply_kept (setDebug_kept ?_ (Nat.zero_le _) fun h => absurd rfl h) _ _ _) (.ite (unlockFails_kept hs _ _ _ _) ?_)
  · exact hs.step rfl id id
  split
  · extract_lets m pk
    exact .ite (unlockFails_kept hs _ _ _ _) (.ite (unlockFails_kept hs _ _ _ _) (unlockOk_kept hs _ _ hl _))
  all_goals exact unlockFails_kept hs _ _ _ _
theorem execDebugChallengeExpiry_kept (hs : Kept σ s) : GoesKept σ (execDebugChallengeExpiry s) := by
  grind [execDebugChallengeExpiry, goesKept_next, kept_iff]
theorem execAttestQuote_kept (hs : Kept σ s) (fn : Fin 9) : GoesKept σ (execAttestQuote fn s) := by
  unfold execAttestQuote
  refine goesKept_next.2 (runMsg_kept hs _ _ _ fun s r hs => ?_)
  extract_lets w b b'
  have hb : Kept σ b.1 := beginOp_kept hs _ _ _ _ _
  refine checked_kept hs ?_ _ _ _
  exact .of_parts hb.parts
theorem execAttestQuoteDone_kept (hs : Kept σ s) (opId : Nat) : GoesKept σ (execAttestQuoteDone opId s) := by
  grind [execAttestQuoteDone, goesKept_next, endOp_kept, post_kept, kept_iff]
theorem execAttestCertChain_kept (hs : Kept σ s) (fn : Fin 9) : GoesKept σ (execAttestCertChain fn s) := by
  grind [execAttestCertChain, goesKept_next, runMsg_kept, checked_kept, okReply_kept, post_kept]

/-! The functions of Tick. -/

theorem noteIdle_kept (hs : Kept σ s) (p : Nat) : Kept σ (noteIdle s p) := by
  grind [noteIdle, setPart_kept, kept_iff]

/-! The commands. -/

/-- Every command keeps the queue, the debug mark and the canonical memories. -/
theorem exec_kept (hs : Kept σ s) (c : Instr) : GoesKept σ (exec c s) := by
  cases c with
  | nop p t => exact execNop_kept hs p t
  | endKernel p t => exact execEndKernel_kept hs p t
  | loop p t => exact execLoop_kept hs p t
  | sli p t => exact execSli_kept hs p t
  | salu p t => exact execSalu_kept hs p t
  | sld p t => exact execSld_kept hs p t
  | sst p t => exact execSst_kept hs p t
  | reservedOpcode p t => exact execReservedOpcode_kept hs p t
  | imageOverrun p t => exact execImageOverrun_kept hs p t
  | vadd p t => exact execVadd_kept hs p t
  | vsub p t => exact execVsub_kept hs p t
  | vmul p t => exact execVmul_kept hs p t
  | vfma p t => exact execVfma_kept hs p t
  | vmin p t => exact execVmin_kept hs p t
  | vmax p t => exact execVmax_kept hs p t
  | vabs p t => exact execVabs_kept hs p t
  | vneg p t => exact execVneg_kept hs p t
  | vand p t => exact execVand_kept hs p t
  | vor p t => exact execVor_kept hs p t
  | vxor p t => exact execVxor_kept hs p t
  | vshl p t => exact execVshl_kept hs p t
  | vshr p t => exact execVshr_kept hs p t
  | vsra p t => exact execVsra_kept hs p t
  | vmov p t => exact execVmov_kept hs p t
  | vbcast p t => exact execVbcast_kept hs p t
  | viota p t => exact execViota_kept hs p t
  | vext p t => exact execVext_kept hs p t
  | vins p t => exact execVins_kept hs p t
  | vperm p t => exact execVperm_kept hs p t
  | vpack p t => exact execVpack_kept hs p t
  | vcmp p t => exact execVcmp_kept hs p t
  | vsel p t => exact execVsel_kept hs p t
  | mlog p t => exact execMlog_kept hs p t
  | mpop p t => exact execMpop_kept hs p t
  | mfirst p t => exact execMfirst_kept hs p t
  | cvt p t => exact execCvt_kept hs p t
  | vld p t => exact execVld_kept hs p t
  | vst p t => exact execVst_kept hs p t
  | red p t => exact execRed_kept hs p t
  | mmul p t => exact execMmul_kept hs p t
  | mwait p t => exact execMwait_kept hs p t
  | matrixPassStart p t conf sp => exact execMatrixPassStart_kept hs p t conf sp
  | matrixCommandComplete p t => exact execMatrixCommandComplete_kept hs p t
  | dma p t => exact execDma_kept hs p t
  | dwait p t => exact execDwait_kept hs p t
  | dmaDescriptorStart p t => exact execDmaDescriptorStart_kept hs p t
  | dmaDescriptorRetire p t => exact execDmaDescriptorRetire_kept hs p t
  | dmaBankStarvation p t sp => exact execDmaBankStarvation_kept hs p t sp
  | kvapp p t => exact execKvapp_kept hs p t
  | kvappComplete p t => exact execKvappComplete_kept hs p t
  | kvwait p t => exact execKvwait_kept hs p t
  | kvgather p t => exact execKvgather_kept hs p t
  | sfn p t => exact execSfn_kept hs p t
  | sglu p t => exact execSglu_kept hs p t
  | smpr p t => exact execSmpr_kept hs p t
  | mmulg p t => exact execMmulg_kept hs p t
  | gsend p t => exact execGsend_kept hs p t
  | gsendRetire p t => exact execGsendRetire_kept hs p t
  | gctlQuery p t => exact execGctlQuery_kept hs p t
  | gctlRelease p t => exact execGctlRelease_kept hs p t
  | svuPhase1Element p t => exact execSvuPhase1Element_kept hs p t
  | svuStreamGroup p inst svu => exact execSvuStreamGroup_kept hs p inst svu
  | kernelImageLoadDone p inst => exact execKernelImageLoadDone_kept hs p inst
  | kernelDispatch p inst => exact execKernelDispatch_kept hs p inst
  | svuKernelDispatch p inst => exact execSvuKernelDispatch_kept hs p inst
  | copyLinear p inst src => exact execCopyLinear_kept hs p inst src
  | copyNvwsStream p inst src => exact execCopyNvwsStream_kept hs p inst src
  | copyFabric p inst src => exact execCopyFabric_kept hs p inst src
  | copyRdma p inst src => exact execCopyRdma_kept hs p inst src
  | kvExport p inst => exact execKvExport_kept hs p inst
  | kvImport p inst src => exact execKvImport_kept hs p inst src
  | waitFence p inst => exact execWaitFence_kept hs p inst
  | waitMemoryPoll p inst rd => exact execWaitMemoryPoll_kept hs p inst rd
  | condPoll p inst rd => exact execCondPoll_kept hs p inst rd
  | waitTimeout p inst => exact execWaitTimeout_kept hs p inst
  | signal p inst => exact execSignal_kept hs p inst
  | loopIterationStart p inst rd => exact execLoopIterationStart_kept hs p inst rd
  | call p inst => exact execCall_kept hs p inst
  | send p inst => exact execSend_kept hs p inst
  | sendArm p inst => exact execSendArm_kept hs p inst
  | epoch p inst => exact execEpoch_kept hs p inst
  | event p inst => exact execEvent_kept hs p inst
  | join p inst => exact execJoin_kept hs p inst
  | nodeCommit p inst cons => exact execNodeCommit_kept hs p inst cons
  | completionRecordWrite p ctx cons => exact execCompletionRecordWrite_kept hs p ctx cons
  | nodeBudget p inst => exact execNodeBudget_kept hs p inst
  | nodeIo p inst => exact execNodeIo_kept hs p inst
  | sendAckTimeout p inst => exact execSendAckTimeout_kept hs p inst
  | deadlockCheck => exact execDeadlockCheck_kept hs
  | slotBoundary p => exact execSlotBoundary_kept hs p
  | graceExpiry p => exact execGraceExpiry_kept hs p
  | regulatorRefill p => exact execRegulatorRefill_kept hs p
  | cmiReqCtrlGo fn => exact execCmiReqCtrlGo_kept hs fn
  | mcpTakeRequest fn => exact execMcpTakeRequest_kept hs fn
  | cmiRspValidClear fn => exact execCmiRspValidClear_kept hs fn
  | cmiResponseDelivery fn => exact execCmiResponseDelivery_kept hs fn
  | identityQuery fn => exact execIdentityQuery_kept hs fn
  | ctxCreate fn => exact execCtxCreate_kept hs fn
  | ctxDestroy fn => exact execCtxDestroy_kept hs fn
  | ctxDrainEnd ctx clean => exact execCtxDrainEnd_kept hs ctx clean
  | ctxZeroingEnd ctx => exact execCtxZeroingEnd_kept hs ctx
  | ctxQuery fn => exact execCtxQuery_kept hs fn
  | fenceGrant fn => exact execFenceGrant_kept hs fn
  | fenceRevoke fn => exact execFenceRevoke_kept hs fn
  | connOpen fn => exact execConnOpen_kept hs fn
  | connReady handle => exact execConnReady_kept hs handle
  | connClose fn => exact execConnClose_kept hs fn
  | memAlloc fn => exact execMemAlloc_kept hs fn
  | memFree fn => exact execMemFree_kept hs fn
  | memFreeZeroDone ctx handle => exact execMemFreeZeroDone_kept hs ctx handle
  | memMap fn => exact execMemMap_kept hs fn
  | memUnmap fn => exact execMemUnmap_kept hs fn
  | bar2WindowSet fn => exact execBar2WindowSet_kept hs fn
  | svuProgLoad fn => exact execSvuProgLoad_kept hs fn
  | kvTableSet fn => exact execKvTableSet_kept hs fn
  | graphPost fn nodes => exact execGraphPost_kept hs fn nodes
  | subgraphRelease fn => exact execSubgraphRelease_kept hs fn
  | graphAbort fn => exact execGraphAbort_kept hs fn
  | cplRingSet fn => exact execCplRingSet_kept hs fn
  | graphQuery fn => exact execGraphQuery_kept hs fn
  | weightKeyImport fn => exact execWeightKeyImport_kept hs fn
  | weightLoad fn image => exact execWeightLoad_kept hs fn image
  | install fn image => exact execInstall_kept hs fn image
  | weightShardArrival load chunk shard => exact execWeightShardArrival_kept hs load chunk shard
  | weightShardTimeout load chunk => exact execWeightShardTimeout_kept hs load chunk
  | weightLoadComplete load => exact execWeightLoadComplete_kept hs load
  | weightDrop fn => exact execWeightDrop_kept hs fn
  | weightDropComplete ctx binding generation => exact execWeightDropComplete_kept hs ctx binding generation
  | nvwsImageErase fn => exact execNvwsImageErase_kept hs fn
  | weightQuery fn => exact execWeightQuery_kept hs fn
  | weightRepairComplete ctx binding generation src => exact execWeightRepairComplete_kept hs ctx binding generation src
  | codebookLoad fn => exact execCodebookLoad_kept hs fn
  | codebookSlotWriteDone p ctx kindA slot => exact execCodebookSlotWriteDone_kept hs p ctx kindA slot
  | codebookWaitLimit ctx slot => exact execCodebookWaitLimit_kept hs ctx slot
  | codebookRelease fn => exact execCodebookRelease_kept hs fn
  | codebookQuery fn => exact execCodebookQuery_kept hs fn
  | sfuSlotWrite fn => exact execSfuSlotWrite_kept hs fn
  | sfuTableWrite fn => exact execSfuTableWrite_kept hs fn
  | sfuBankPrepare fn => exact execSfuBankPrepare_kept hs fn
  | sfuBankCopyDone p ctx => exact execSfuBankCopyDone_kept hs p ctx
  | sfuPrepareWaitLimit ctx => exact execSfuPrepareWaitLimit_kept hs ctx
  | sfuBankSwitch fn => exact execSfuBankSwitch_kept hs fn
  | sfuBankQuery fn => exact execSfuBankQuery_kept hs fn
  | powerLatencySet fn => exact execPowerLatencySet_kept hs fn
  | powerCapSet fn => exact execPowerCapSet_kept hs fn
  | slewFloorSet fn => exact execSlewFloorSet_kept hs fn
  | powerQuery fn => exact execPowerQuery_kept hs fn
  | schedTableSet fn => exact execSchedTableSet_kept hs fn
  | regulatorSet fn => exact execRegulatorSet_kept hs fn
  | preemptGraceSet fn => exact execPreemptGraceSet_kept hs fn
  | schedQuery fn => exact execSchedQuery_kept hs fn
  | logRead fn => exact execLogRead_kept hs fn
  | escalationSet fn => exact execEscalationSet_kept hs fn
  | serviceRestore fn => exact execServiceRestore_kept hs fn
  | partitionReset fn => exact execPartitionReset_kept hs fn
  | jobPatienceSet fn => exact execJobPatienceSet_kept hs fn
  | debugChallenge fn => exact execDebugChallenge_kept hs fn
  | debugUnlock fn token => exact execDebugUnlock_kept hs fn token
  | attestQuote fn => exact execAttestQuote_kept hs fn
  | attestCertChain fn => exact execAttestCertChain_kept hs fn
  | stateSave fn clean => exact execStateSave_kept hs fn clean
  | fullStateSaveDone p => exact execFullStateSaveDone_kept hs p
  | duskDumpRead fn => exact execDuskDumpRead_kept hs fn
  | testModeEnter fn => exact execTestModeEnter_kept hs fn
  | testModeExit fn => exact execTestModeExit_kept hs fn
  | hbmRepairQuery fn => exact execHbmRepairQuery_kept hs fn
  | softPpr fn => exact execSoftPpr_kept hs fn
  | hardPpr fn => exact execHardPpr_kept hs fn
  | spareRow fn => exact execSpareRow_kept hs fn
  | hbmRepairDone took => exact execHbmRepairDone_kept hs took
  | trainingSavedClear fn => exact execTrainingSavedClear_kept hs fn
  | ptFenceSelWrite fn p value => exact execPtFenceSelWrite_kept hs fn p value
  | fpControlDisable port => exact execFpControlDisable_kept hs port
  | portDisableDone port => exact execPortDisableDone_kept hs port
  | fpControlEnable port => exact execFpControlEnable_kept hs port
  | dbgResumeGo p => exact execDbgResumeGo_kept hs p
  | registerWrite fn offset width value => exact execRegisterWrite_kept hs fn offset width value
  | msixUnmask fn vector => exact execMsixUnmask_kept hs fn vector
  | bar0AccessInvalid fn offset width write => exact execBar0AccessInvalid_kept hs fn offset width write
  | bar2Read fn offset len => exact execBar2Read_kept hs fn offset len
  | bar2Write fn offset bytes => exact execBar2Write_kept hs fn offset bytes
  | functionLevelReset fn => exact execFunctionLevelReset_kept hs fn
  | pcieHotReset => exact execPcieHotReset_kept hs
  | vfEnableChange enable numVfs => exact execVfEnableChange_kept hs enable numVfs
  | pcieLinkTrained gts lanes => exact execPcieLinkTrained_kept hs gts lanes
  | atsInvalidation fn addr => exact execAtsInvalidation_kept hs fn addr
  | atsTranslationCompletion fn p inst addr ok => exact execAtsTranslationCompletion_kept hs fn p inst addr ok
  | rdmaWriteInbound conn key addr bytes => exact execRdmaWriteInbound_kept hs conn key addr bytes
  | rdmaReadInbound conn key addr len => exact execRdmaReadInbound_kept hs conn key addr len
  | rdmaWriteImmInbound conn key addr bytes imm => exact execRdmaWriteImmInbound_kept hs conn key addr bytes imm
  | rdmaRetransmitTimeout conn => exact execRdmaRetransmitTimeout_kept hs conn
  | ethFrameDiscard port => exact execEthFrameDiscard_kept hs port
  | flitReceive port lp flit corrected fecOk => exact execFlitReceive_kept hs port lp flit corrected fecOk
  | ackProgressTimeout port lp => exact execAckProgressTimeout_kept hs port lp
  | laneLockLoss port lp => exact execLaneLockLoss_kept hs port lp
  | retrainComplete port lp ok => exact execRetrainComplete_kept hs port lp ok
  | portTrainingRetry port => exact execPortTrainingRetry_kept hs port
  | identitySend port lp => exact execIdentitySend_kept hs port lp
  | identityReceived port lp block => exact execIdentityReceived_kept hs port lp block
  | absentLimitExpiry port => exact execAbsentLimitExpiry_kept hs port
  | packetForward port lp => exact execPacketForward_kept hs port lp
  | reduceHoldExpiry port lp => exact execReduceHoldExpiry_kept hs port lp
  | armCancelExpiry p => exact execArmCancelExpiry_kept hs p
  | writeArrival port lp => exact execWriteArrival_kept hs port lp
  | addArrival port lp => exact execAddArrival_kept hs port lp
  | signalArrival port lp => exact execSignalArrival_kept hs port lp
  | fabricAckArrival port lp => exact execFabricAckArrival_kept hs port lp
  | fabricCopyAckTimeout p inst => exact execFabricCopyAckTimeout_kept hs p inst
  | abort port lp => exact execAbort_kept hs port lp
  | patrolScrubRead p => exact execPatrolScrubRead_kept hs p
  | hbmCaParityError p pc => exact execHbmCaParityError_kept hs p pc
  | hbmSelfRefreshReturn p => exact execHbmSelfRefreshReturn_kept hs p
  | cpHeartbeatCheck p => exact execCpHeartbeatCheck_kept hs p
  | sundownComplete p clean => exact execSundownComplete_kept hs p clean
  | partitionComputeReset p => exact execPartitionComputeReset_kept hs p
  | partitionReinit p trained => exact execPartitionReinit_kept hs p trained
  | partitionResetEnd p => exact execPartitionResetEnd_kept hs p
  | tileHang p t => exact execTileHang_kept hs p t
  | tileStopFail p t => exact execTileStopFail_kept hs p t
  | dcpWatchdog p => exact execDcpWatchdog_kept hs p
  | mcpWatchdog => exact execMcpWatchdog_kept hs
  | hubCoreFail core => exact execHubCoreFail_kept hs core
  | pwrEnRise => exact execPwrEnRise_kept hs
  | pwrEnFall => exact execPwrEnFall_kept hs
  | resetNAssert => exact execResetNAssert_kept hs
  | resetNDeassert => exact execResetNDeassert_kept hs
  | standbyPowerUp => exact execStandbyPowerUp_kept hs
  | railsInRegulation => exact execRailsInRegulation_kept hs
  | dawnEnd ok => exact execDawnEnd_kept hs ok
  | sunriseEnd temps railsMv => exact execSunriseEnd_kept hs temps railsMv
  | thermalSettle => exact execThermalSettle_kept hs
  | trainingItemDone item marginOk => exact execTrainingItemDone_kept hs item marginOk
  | partitionZeroed p => exact execPartitionZeroed_kept hs p
  | morningCoreVerify p core digestOk => exact execMorningCoreVerify_kept hs p core digestOk
  | nvwsMountDone ok => exact execNvwsMountDone_kept hs ok
  | readiness => exact execReadiness_kept hs
  | savedRecordWrite item tempC railMv => exact execSavedRecordWrite_kept hs item tempC railMv
  | fwSvnRaise => exact execFwSvnRaise_kept hs
  | thermalThrottleStep p hot cool => exact execThermalThrottleStep_kept hs p hot cool
  | thermalTrip => exact execThermalTrip_kept hs
  | coolantOutletHigh => exact execCoolantOutletHigh_kept hs
  | overcurrent => exact execOvercurrent_kept hs
  | inputOvervoltage => exact execInputOvervoltage_kept hs
  | inputUndervoltage => exact execInputUndervoltage_kept hs
  | refclkLoss => exact execRefclkLoss_kept hs
  | envelopeUpdate m => exact execEnvelopeUpdate_kept hs m
  | fillerStart p t => exact execFillerStart_kept hs p t
  | activityStepDown p powerAfterMw => exact execActivityStepDown_kept hs p powerAfterMw
  | activityExit p => exact execActivityExit_kept hs p
  | a4Entry => exact execA4Entry_kept hs
  | a4Exit => exact execA4Exit_kept hs
  | firmwareBundleUpdate bundle => exact execFirmwareBundleUpdate_kept hs bundle
  | cablingPlanWrite record => exact execCablingPlanWrite_kept hs record
  | vfMapWrite record => exact execVfMapWrite_kept hs record
  | ethAddressRecordWrite record => exact execEthAddressRecordWrite_kept hs record
  | pldmSensorRefresh values => exact execPldmSensorRefresh_kept hs values
  | smbusAlertResponse => exact execSmbusAlertResponse_kept hs
  | jtagInstruction code => exact execJtagInstruction_kept hs code
  | standbyPowerLoss => exact execStandbyPowerLoss_kept hs
  | rampStartDelay => exact execRampStartDelay_kept hs
  | thermNRelease => exact execThermNRelease_kept hs
  | debugChallengeExpiry => exact execDebugChallengeExpiry_kept hs
  | attestQuoteDone opId => exact execAttestQuoteDone_kept hs opId
  | bar2Resize fn log2GiB => exact execBar2Resize_kept hs fn log2GiB
  | rdmaAckArrival conn nak bytes => exact execRdmaAckArrival_kept hs conn nak bytes
  | congestionNotificationPacket conn => exact execCongestionNotificationPacket_kept hs conn
  | arpNdRequest port addr => exact execArpNdRequest_kept hs port addr
  | ethLinkUp port => exact execEthLinkUp_kept hs port
end

/-! One step. -/

/-- One count of the clock keeps them too. -/
theorem tick_kept {σ s : State} (hs : Kept σ s) : Kept σ (tick s) := by
  unfold tick
  extract_lets s0 s1
  have h0 : Kept σ s0 := foldl_kept hs _ fun s p hs => noteIdle_kept hs p
  clear_value s0
  have h1 : Kept σ s1 := .of_parts h0.parts
  clear_value s1
  refine foldl_kept h1 _ fun s p hs => setPart_kept hs ?_
  exact id

/-- The state that a step starts from, with the rest of its queue. -/
def State.afterFront (s : State) : State := { s with pending := s.pending.tail }

/-- A step that goes on keeps the debug mark and the canonical memories; the queue loses its front alone. -/
theorem step_kept {s t : State} (h : step s = .next t) : Kept s.afterFront t := by
  unfold step at h
  split at h
  · rename_i hq
    have ht : tick s = t := Host.Outcome.next.inj h
    rw [← ht]
    refine tick_kept (Kept.step (Kept.refl _) ?_ ?_ ?_)
    · simp [State.afterFront, hq]
    · exact fun h => h
    · exact fun h => h
  · rename_i c rest hq
    have hs : s.afterFront = { s with pending := rest } := by simp [State.afterFront, hq]
    rw [hs]
    exact exec_kept (Kept.refl _) c t h
/-- Settles O57: every command keeps the queue of the state that it starts from. -/
theorem commandsKeepTheQueue : Obligations.CommandsKeepTheQueue := by
  intro c s t h
  obtain ⟨hq, -, -⟩ := exec_kept (Kept.refl s) c t h
  exact hq

/-- Settles O58: a step goes on to a state that is marked where the one before was. -/
theorem stepsKeepDebugMarked : Obligations.StepsKeepDebugMarked := by
  intro s t hs h
  obtain ⟨-, hd, -⟩ := step_kept h
  exact hd hs

/-- Settles O59: a step goes on to a state whose memories are canonical where those before were. -/
theorem stepsKeepMemoryCanonical : Obligations.StepsKeepMemoryCanonical := by
  intro s t hs h
  obtain ⟨-, -, hm⟩ := step_kept h
  exact hm hs

end Sys2Proof.Machine
end

section
/-! PROOFS. The header of a packet (R777): its six words are sums of fields at their places, which the reader divides out again. -/

namespace Sys2Proof.Machine

/-- The bits hi to lo of a word are what a division and a remainder leave. -/
theorem bitsOf_eq_div_mod (x hi lo : Nat) : bitsOf x hi lo = x / 2 ^ lo % 2 ^ (hi + 1 - lo) := by
  rw [bitsOf, Nat.shiftRight_eq_div_pow]

/-- Settles O56: each field of the table of R777 is read back from its own place, and the words stay below 2^32. -/
theorem packetHeaderRoundTrip : Obligations.PacketHeaderRoundTrip := by
  unfold Obligations.PacketHeaderRoundTrip
  intro q h
  obtain ⟨ptype, tc, vc, die, space, dm, sm, txn, dctx, sctx, epoch, len, tile, op, status, hi, lo, rtag, low⟩ := h
  refine ⟨?fields, rfl, ?words⟩
  case fields =>
    cases q
    simp only [packetOf, Packet.words, wd, List.getD_cons_zero, List.getD_cons_succ, bitsOf_eq_div_mod, Packet.mk.injEq,
      Nat.reduceAdd, Nat.reduceSub, Nat.reducePow, and_true]
    dsimp only at *
    and_intros <;> omega
  case words =>
    intro w hw
    simp only [Packet.words, List.mem_cons, List.not_mem_nil, or_false] at hw
    rcases hw with rfl | rfl | rfl | rfl | rfl | rfl <;> omega

end Sys2Proof.Machine
end

section
/-! PROOFS. The module at reset: every field is the model's initial value (R1059, log entries 9 and 10). -/

namespace Sys2Proof.Machine

/-- Settles O60: the memories are those that the law of the reset state speaks of, and every other value is read off the initial state. -/
theorem resetStateIsClean : Obligations.ResetStateIsClean := by
  unfold Obligations.ResetStateIsClean
  have hdebug : DebugMarked State.reset := ⟨Nat.zero_le 2, fun h => absurd rfl h⟩
  exact ⟨rfl, reset_memoryCanonical, hdebug, rfl, rfl, rfl, fun _ => rfl, fun _ => rfl, rfl, rfl, rfl, rfl, rfl, rfl, rfl, rfl, rfl⟩

end Sys2Proof.Machine
end

section
/-! PROOFS. VEXT, VINS and VPACK (R305, R308): single elements, and the elements that the mask chooses gathered to the front. -/

namespace Sys2Proof.Machine

/-- The elements of a mapped range that a mask chooses are those of the range that it chooses. -/
theorem map_fst_filter_zip_map {α : Type} (f : Nat → α) (on : Nat → Bool) (l : List Nat) :
    ((List.zip (l.map f) (l.map on)).filter (·.2)).map (·.1) = (l.filter on).map f := by
  induction l with
  | nil => rfl
  | cons i l ih => cases h : on i <;> simp [h, ih]

/-- A written element of a mapped range. -/
theorem set_map_range (f : Nat → Nat) (n k v : Nat) :
    ((List.range n).map f).set k v = (List.range n).map fun j => if j = k then v else f j := by
  refine List.ext_getElem (by simp) fun j _ _ => ?_
  simp [List.getElem_set, eq_comm]

section
variable {s : State} {p : Fin 8} {t : Fin 16} {r : Run} {w wid n : Nat}

theorem execVext_of_inside (h : Stands s p t 0x21 r w) (hty : vType (fTy w) = some (wid, n)) (h5 : bitOf w 5 = false)
    (hregs : (s.tile p t).regBad [fVa w] [] [] = false) (hlane : fLane w < n) :
    execVext p t s = .next (movedOn s p t r ((s.tile p t).setS (fScal w) (lane wid ((s.tile p t).vreg (fVa w)) (fLane w)))) := by
  rw [execVext, issue_stands h]
  simp only [hty, h5, if_pos hlane]
  exact congrArg _ (withRegs_clean hregs _)

theorem execVext_of_outside (h : Stands s p t 0x21 r w) (hty : vType (fTy w) = some (wid, n)) (h5 : bitOf w 5 = false)
    (hregs : (s.tile p t).regBad [fVa w] [] [] = false) (hlane : n ≤ fLane w) : ∃ v,
    execVext p t s = .next (movedOn { s with free := s.free + 1 } p t r ((s.tile p t).setS (fScal w) v)) := by
  rw [execVext, issue_stands h]
  simp only [hty, h5, if_neg (Nat.not_lt.2 hlane)]
  exact ⟨_, congrArg _ (withRegs_clean hregs _)⟩

theorem execVins_of_inside (h : Stands s p t 0x22 r w) (hty : vType (fTy w) = some (wid, n)) (h5 : bitOf w 5 = false)
    (hregs : (s.tile p t).regBad [fVd w] [fMask w] [fScal w] = false) (hlane : fLane w < n) :
    execVins p t s = .next (movedOn s p t r ((s.tile p t).setV (fVd w) (vOf wid (merge (fMz w)
      (vMask n ((s.tile p t).mreg (fMask w))) ((List.range n).map fun j =>
        if j = fLane w then (s.tile p t).sreg (fScal w) % 2 ^ (8 * wid) else lane wid ((s.tile p t).vreg (fVd w)) j)
      (vElems wid n ((s.tile p t).vreg (fVd w))))))) := by
  rw [execVins, issue_stands h]
  simp only [hty, h5, if_neg (Nat.not_le.2 hlane)]
  rw [← set_map_range (lane wid ((s.tile p t).vreg (fVd w)))]
  exact congrArg _ (withRegs_clean hregs _)

theorem execVins_of_outside (h : Stands s p t 0x22 r w) (hty : vType (fTy w) = some (wid, n)) (h5 : bitOf w 5 = false)
    (hregs : (s.tile p t).regBad [fVd w] [fMask w] [fScal w] = false) (hlane : n ≤ fLane w) : ∃ u,
    execVins p t s = .next (movedOn { s with free := s.free + 1 } p t r ((s.tile p t).setV (fVd w) (vOf wid (merge (fMz w)
      (vMask n ((s.tile p t).mreg (fMask w))) ((List.range n).map (lane wid u)) (vElems wid n ((s.tile p t).vreg (fVd w))))))) := by
  rw [execVins, issue_stands h]
  simp only [hty, h5, if_pos hlane]
  exact ⟨_, congrArg _ (withRegs_clean hregs _)⟩

/-- What VPACK leaves in VD: the chosen elements of VA, then those of VC from there on. -/
def packedElems (x : Tile) (w wid n : Nat) : List Nat :=
  let kept := (List.range n).filter (bitOf (x.mreg (fMask w)))
  kept.map (lane wid (x.vreg (fVa w))) ++ (vElems wid n (x.vreg (fVc w))).drop kept.length

theorem execVpack_of_clean (h : Stands s p t 0x24 r w) (hty : vType (fTy w) = some (wid, n)) (h5 : bitOf w 5 = false)
    (hregs : (s.tile p t).regBad [fVa w, fVc w] [fMask w] [] = false) :
    execVpack p t s = .next (movedOn s p t r (((s.tile p t).setV (fVd w) (vOf wid (packedElems (s.tile p t) w wid n))).setS (fScal w)
      ((List.range n).filter (bitOf ((s.tile p t).mreg (fMask w)))).length)) := by
  rw [execVpack, issue_stands h]
  simp only [hty, h5, vElems_eq_map_lane, vMask_eq_map_bitOf, map_fst_filter_zip_map, List.length_map]
  exact congrArg _ (withRegs_clean hregs _)

theorem length_packedElems (x : Tile) (w wid n : Nat) : (packedElems x w wid n).length = n := by
  have hle : ((List.range n).filter (bitOf (x.mreg (fMask w)))).length ≤ n := by
    simpa using List.length_filter_le (bitOf (x.mreg (fMask w))) (List.range n)
  simp only [packedElems, vElems_eq_map_lane, List.length_append, List.length_drop, List.length_map, List.length_range]
  omega

/-- Element j of it: the chosen element of that rank, or VC's own where fewer are chosen. -/
theorem lane_vOf_packedElems (x : Tile) (w wid : Nat) {j : Nat} (hj : j < n) : lane wid (vOf wid (packedElems x w wid n)) j =
    match ((List.range n).filter (bitOf (x.mreg (fMask w))))[j]? with
    | some i => lane wid (x.vreg (fVa w)) i
    | none => lane wid (x.vreg (fVc w)) j := by
  rw [lane_vOf, List.getD_eq_getElem?_getD, packedElems, List.getElem?_append]
  split
  · rename_i h
    rw [List.length_map] at h
    rw [List.getElem?_map, List.getElem?_eq_getElem h]
    exact Nat.mod_eq_of_lt (lane_lt _ _ _)
  · rename_i h
    rw [List.length_map] at h
    have hle : ((List.range n).filter (bitOf (x.mreg (fMask w)))).length ≤ j := Nat.not_lt.1 h
    rw [List.getElem?_eq_none hle, List.getElem?_drop, List.length_map, Nat.add_sub_cancel' hle, vElems_eq_map_lane,
      ← List.getD_eq_getElem?_getD, getD_map_range _ _ hj]
    exact Nat.mod_eq_of_lt (lane_lt _ _ _)

end

/-- Settles O10: each word has one path left where its registers are good; the elements of its result are read off the list that it
writes (R305, R308; log entry 7). -/
theorem vectorLaneWordsComplete : Obligations.VectorLaneWordsComplete := by
  unfold Obligations.VectorLaneWordsComplete
  intro s p t r w wid n hty h5
  refine ⟨fun h hregs hlane => execVext_of_inside h hty h5 hregs hlane,
    fun h hregs hlane => execVext_of_outside h hty h5 hregs hlane,
    fun h hregs hlane => ⟨_, vOf_merge_lt hty _ _ _ _, execVins_of_inside h hty h5 hregs hlane, fun j hj => ?inside⟩,
    fun h hregs hlane => ?outside,
    fun h hregs => ⟨_, vOf_lt hty (length_packedElems _ _ _ _), execVpack_of_clean h hty h5 hregs, fun j hj => ?packed⟩⟩
  case inside =>
    rw [lane_vOf_merge _ hj]
    congr 1
    split
    · exact Nat.mod_mod _ _
    · exact Nat.mod_eq_of_lt (lane_lt _ _ _)
  case outside =>
    obtain ⟨u, hu⟩ := execVins_of_outside h hty h5 hregs hlane
    exact ⟨_, vOf_merge_lt hty _ _ _ _, _, hu, fun j hj => lane_vOf_merge _ hj⟩
  case packed => exact lane_vOf_packedElems _ _ _ hj

end Sys2Proof.Machine
end

section
/-! PROOFS. SFN, SGLU and SMPR (R310, R360 to R380): element by element under the mask, and the results for special operands. -/

namespace Sys2Proof.Machine

/-- A pair of mapped ranges, element by element. -/
theorem zipWith_map_range {α β γ : Type} (g : α → β → γ) (a : Nat → α) (b : Nat → β) (n : Nat) :
    List.zipWith g ((List.range n).map a) ((List.range n).map b) = (List.range n).map fun j => g (a j) (b j) := by
  rw [List.zipWith_map, List.zipWith_self]

/-- What is asked of every evaluated element holds where it holds of each element whose mask bit is 1. -/
theorem any_evaluated_map_range {α : Type} {n m : Nat} {f : Nat → α} {bad : α → Bool}
    (h : ∀ j < n, bitOf m j = true → bad (f j) = false) : (evaluated (vMask n m) ((List.range n).map f)).any bad = false := by
  rw [List.any_eq_false]
  intro x hx
  rw [evaluated, vMask_eq_map_bitOf, List.zip_map'] at hx
  obtain ⟨e, he, rfl⟩ := List.mem_map.1 hx
  obtain ⟨hmem, hon⟩ := List.mem_filter.1 he
  obtain ⟨j, hj, rfl⟩ := List.mem_map.1 hmem
  simp [h j (List.mem_range.1 hj) hon]

section
variable {s : State} {p : Fin 8} {t : Fin 16} {r : Run} {w wid n : Nat}

/-- The reserved bits and the TYPE of such a word are good. -/
theorem sfuBad_eq_false {useB : Bool} (hfp : fTy w < 3) (hvc : fVc w = 0) (hres : bitsOf w 19 0 = 0) (hvb : useB = false → fVb w = 0) :
    sfuBad w useB = false := by
  cases useB
  · simp [sfuBad, hfp, hvc, hres, hvb rfl]
  · simp [sfuBad, hfp, hvc, hres]

theorem execSfn_of_clean (h : Stands s p t 0x48 r w) (hty : vType (fTy w) = some (wid, n)) (hbad : sfuBad w false = false)
    (hfn : bitOf w 20 = true → bitsOf w 24 21 < 13)
    (hregs : (s.tile p t).regBad ([fVa w] ++ if fMask w != 0 && !fMz w then [fVd w] else []) [fMask w] [] = false)
    (hrom : romBad (s.tile p t) (bitOf w 20) (bitsOf w 24 21) (fTy w)
      (evaluated (vMask n ((s.tile p t).mreg (fMask w))) (vElems wid n ((s.tile p t).vreg (fVa w)))) = false) :
    execSfn p t s = .next (movedOn s p t r ((s.tile p t).setV (fVd w) (vOf wid (merge (fMz w)
      (vMask n ((s.tile p t).mreg (fMask w))) ((List.range n).map fun j =>
        if bitOf w 20 then sfuCompatE (bitsOf w 24 21) (fTy w) (lane wid ((s.tile p t).vreg (fVa w)) j)
        else sfuNativeE (bitsOf w 24 21) (fTy w) (lane wid ((s.tile p t).vreg (fVa w)) j))
      (vElems wid n ((s.tile p t).vreg (fVd w))))))) := by
  have hlegal : ¬(sfuBad w false || (bitOf w 20 && decide (13 ≤ bitsOf w 24 21))) = true := by
    cases hcm : bitOf w 20
    · simp [hbad]
    · simp [hbad, hfn hcm]
  rw [execSfn, issue_stands h]
  simp only [hty, if_neg hlegal, hrom]
  rw [withRegs_clean hregs, vElems_eq_map_lane, List.map_map]
  rfl

theorem execSglu_of_clean (h : Stands s p t 0x49 r w) (hty : vType (fTy w) = some (wid, n)) (hbad : sfuBad w true = false)
    (hact : bitsOf w 24 21 < 3)
    (hregs : (s.tile p t).regBad ([fVa w, fVb w] ++ if fMask w != 0 && !fMz w then [fVd w] else []) [fMask w] [] = false)
    (hrom : romBad (s.tile p t) (bitOf w 20) (actFn (bitsOf w 24 21)) (fTy w)
      (evaluated (vMask n ((s.tile p t).mreg (fMask w))) (vElems wid n ((s.tile p t).vreg (fVa w)))) = false) :
    execSglu p t s = .next (movedOn s p t r ((s.tile p t).setV (fVd w) (vOf wid (merge (fMz w)
      (vMask n ((s.tile p t).mreg (fMask w))) ((List.range n).map fun j =>
        if bitOf w 20 then sgluCompatE (bitsOf w 24 21) (fTy w) (lane wid ((s.tile p t).vreg (fVa w)) j)
          (lane wid ((s.tile p t).vreg (fVb w)) j)
        else sgluNativeE (bitsOf w 24 21) (fTy w) (lane wid ((s.tile p t).vreg (fVa w)) j) (lane wid ((s.tile p t).vreg (fVb w)) j))
      (vElems wid n ((s.tile p t).vreg (fVd w))))))) := by
  have hlegal : ¬(sfuBad w true || decide (3 ≤ bitsOf w 24 21)) = true := by simp [hbad, hact]
  rw [execSglu, issue_stands h]
  simp only [hty, if_neg hlegal, hrom]
  rw [withRegs_clean hregs, vElems_eq_map_lane, vElems_eq_map_lane, zipWith_map_range]
  rfl

/-- The two FP32 inputs of a micro-program for element j (R370). -/
def mpInputs (x : Tile) (w wid j : Nat) : Nat × Nat :=
  (toF32 ((ffmtOf (fTy w)).decode (lane wid (x.vreg (fVa w)) j)), toF32 ((ffmtOf (fTy w)).decode (lane wid (x.vreg (fVb w)) j)))

theorem execSmpr_of_clean {sl : SfuSlot}
    (hsl : sl = tabGet {} (if r.bank = 0 then (s.cp r.ctx p).bank0 else (s.cp r.ctx p).bank1).slots (bitsOf w 24 21))
    (h : Stands s p t 0x4A r w) (hty : vType (fTy w) = some (wid, n)) (hbad : sfuBad w true = false) (hcm : bitOf w 20 = false)
    (hslot : bitOf r.mpMask (bitsOf w 24 21) = true)
    (hregs : (s.tile p t).regBad ([fVa w, fVb w] ++ if fMask w != 0 && !fMz w then [fVd w] else []) [fMask w] [] = false)
    (hmp : ∀ j < n, bitOf ((s.tile p t).mreg (fMask w)) j = true →
      mpBad (s.tile p t) r.bank (bitsOf w 24 21) sl (mpInputs (s.tile p t) w wid j).1 (mpInputs (s.tile p t) w wid j).2 = false) :
    execSmpr p t s = .next (movedOn s p t r ((s.tile p t).setV (fVd w) (vOf wid (merge (fMz w)
      (vMask n ((s.tile p t).mreg (fMask w))) ((List.range n).map fun j => ((ffmtOf (fTy w)).encode 0 false
        (ofF32 (mpRun sl (mpInputs (s.tile p t) w wid j).1 (mpInputs (s.tile p t) w wid j).2))).1)
      (vElems wid n ((s.tile p t).vreg (fVd w))))))) := by
  have hlegal : ¬(sfuBad w true || bitOf w 20) = true := by simp [hbad, hcm]
  have hrom := any_evaluated_map_range (m := (s.tile p t).mreg (fMask w)) (f := mpInputs (s.tile p t) w wid)
    (bad := fun e => mpBad (s.tile p t) r.bank (bitsOf w 24 21) sl e.1 e.2) hmp
  have hins : List.zipWith (fun a b => (toF32 ((ffmtOf (fTy w)).decode a), toF32 ((ffmtOf (fTy w)).decode b)))
      (vElems wid n ((s.tile p t).vreg (fVa w))) (vElems wid n ((s.tile p t).vreg (fVb w))) =
      (List.range n).map (mpInputs (s.tile p t) w wid) := by
    rw [vElems_eq_map_lane, vElems_eq_map_lane, zipWith_map_range]
    rfl
  rw [execSmpr, issue_stands h]
  simp only [hty, if_neg hlegal, hslot, hins, ← hsl, hrom, List.map_map]
  rw [withRegs_clean hregs]
  rfl

end

/-- In native mode a NaN gives the canonical NaN. -/
theorem sfuNativeE_of_nan {fn ty x : Nat} (hty : ty < 3) (h : ((ffmtOf ty).decode x).isNan = true) :
    some (sfuNativeE fn ty x) = (ffmtOf ty).nan := by
  have hnan : (ffmtOf ty).decode x = .nan := by
    cases hd : (ffmtOf ty).decode x with
    | nan => rfl
    | inf neg => simp [hd, FV.isNan] at h
    | fin neg m e => simp [hd, FV.isNan] at h
  rw [sfuNativeE, hnan]
  interval_cases ty <;> rfl

/-- Settles O14: each word hands its elements to the function of its opcode and puts them under the mask into VD; the special operands
are those of the table that the built-in functions look up first (R305, R310). -/
theorem specialFunctionsComplete : Obligations.SpecialFunctionsComplete := by
  unfold Obligations.SpecialFunctionsComplete
  refine ⟨fun s p t r w wid n hty hfp hvc hres => ?words, fun fn ty x _ hty h => sfuNativeE_of_nan hty h, rfl, rfl, rfl, rfl⟩
  case words =>
    have hbad : sfuBad w true = false := sfuBad_eq_false hfp hvc hres nofun
    refine ⟨fun h hvb hfn hregs hrom => ?sfn, fun h hact hregs hrom => ?sglu, fun h hcm hslot hregs hmp => ?smpr⟩
    case sfn => exact ⟨_, vOf_merge_lt hty _ _ _ _,
      execSfn_of_clean h hty (sfuBad_eq_false hfp hvc hres fun _ => hvb) hfn hregs hrom, fun j hj => lane_vOf_merge _ hj⟩
    case sglu => exact ⟨_, vOf_merge_lt hty _ _ _ _, execSglu_of_clean h hty hbad hact hregs hrom, fun j hj => lane_vOf_merge _ hj⟩
    case smpr => exact ⟨_, vOf_merge_lt hty _ _ _ _, execSmpr_of_clean rfl h hty hbad hcm hslot hregs hmp,
      fun j hj => lane_vOf_merge _ hj⟩

end Sys2Proof.Machine
end

section
/-! PROOFS. The DMA queue of a tile and the gradient words (R417 to R423, R450 to R457, R611; log entries 16 and 25). -/

namespace Sys2Proof.Machine

section
variable {s s1 s2 u : State} {p : Fin 8} {t : Fin 16} {r : Run} {w : Nat}

/-- A descriptor that has not started moves its bytes while fewer than four are active, where no dry regulator holds them (R418, R611). -/
theorem execDmaDescriptorStart_of_room {i : Nat} {e : DmaEnt} (hf : (s.part p).frozen = false) (hrun : (s.tile p t).run = some r)
    (hi : (s.tile p t).dq.findIdx? (fun e => !e.active) = some i) (he : (s.tile p t).dq[i]? = some e)
    (hroom : activeDma (s.tile p t).dq < 4)
    (hmove : dmaMove ⟨p, t, r, s.tile p t⟩
      (s.setTile p t { s.tile p t with dq := (s.tile p t).dq.set i { e with active := true, done := !e.isGsend } }) e.job = ⟨u, none⟩)
    (hheld : Unheld s (u.setTile p t (Tile.touch (u.tile p t) (s.part p).count))) :
    execDmaDescriptorStart p t s = .next (u.setTile p t (Tile.touch (u.tile p t) (s.part p).count)) := by
  have hget : (s.tile p t).dq.getD i { job := .desc [] 0 0 } = e := by rw [List.getD_eq_getElem?_getD, he, Option.getD_some]
  rw [execDmaDescriptorStart, if_neg (by simp [hf]), next]
  simp only [hrun, hi, if_neg (Nat.not_le.2 hroom), hget] at hmove ⊢
  generalize hm : dmaMove _ _ _ = m
  obtain rfl : m = ⟨u, none⟩ := hm.symm.trans hmove
  exact congrArg _ (gate_unheld hheld)

/-- The oldest descriptor that is done leaves the queue, once no unit of a transfer waits (R419, R611). -/
theorem execDmaDescriptorRetire_of_done {e : DmaEnt} {rest : List DmaEnt} (hf : (s.part p).frozen = false)
    (ho : owes s p [0, 1] = false) (hq : (s.tile p t).dq = e :: rest) (hg : e.isGsend = false) (hdone : e.done = true) :
    execDmaDescriptorRetire p t s = .next (s.setTile p t (Tile.touch { s.tile p t with dq := rest } (s.part p).count)) := by
  rw [execDmaDescriptorRetire, if_neg (by simp [hf, ho]), next]
  unfold DmaEnt.isGsend at hg
  cases hj : e.job <;> simp_all

/-- A background access that waited counts one conflict of the kernel, whichever scratchpad it waited for (R206). -/
theorem execDmaBankStarvation_of_run (hf : (s.part p).frozen = false) (hrun : (s.tile p t).run = some r) (sp : Spc) :
    execDmaBankStarvation p t sp s = .next (nodeEventOnce
      (s.setTile p t { s.tile p t with run := some { r with conflicts := min (r.conflicts + 1) 65535 } }) p r.inst 0x1220
      [t, Spc.code sp]) := by
  simp [execDmaBankStarvation, countConflicts, hf, hrun, next]

end

/-- Settles O18: the queue's commands have one path left where the kernel runs, the queue has room or a finished front, and no dry
regulator holds the bytes (R206, R418, R419, R611). -/
theorem dmaQueueMovesAndRetires : Obligations.DmaQueueMovesAndRetires := by
  unfold Obligations.DmaQueueMovesAndRetires
  intro s p t r x hf hrun
  exact ⟨fun i e u hi he hroom hmove hheld => execDmaDescriptorStart_of_room hf hrun hi he hroom hmove hheld,
    fun e rest hq hg hdone ho => execDmaDescriptorRetire_of_done hf ho hq hg hdone,
    fun sp => execDmaBankStarvation_of_run hf hrun sp⟩

section
variable {s s1 s2 : State} {p : Fin 8} {t : Fin 16} {r : Run} {w : Nat}

/-- QUERY answers with the buffer of a tensor id (R455). -/
theorem execGctlQuery_of_stands (h : Stands s p t 0x52 r w) (hres : bitsOf w 55 13 = 0) :
    execGctlQuery p t s = .next (movedOn s p t r ((s.tile p t).setS (bitsOf w 12 8) (gQuery (s.tile p t) r (bitsOf w 7 0)))) := by
  have h15 : bitsOf w 55 15 = 0 := by
    simp only [bitsOf_eq_div_mod, Nat.reduceAdd, Nat.reduceSub, Nat.reducePow] at hres ⊢
    omega
  have h13 : bitsOf w 14 13 = 0 := by
    simp only [bitsOf_eq_div_mod, Nat.reduceAdd, Nat.reduceSub, Nat.reducePow] at hres ⊢
    omega
  rw [execGctlQuery, issue_stands h, if_neg (by simp [h13]), if_neg (by simp [h15]), if_neg (by simp [h13]), finish_eq_movedOn, next]

/-- RELEASE notes the tensor id (R456). -/
theorem execGctlRelease_of_stands (h : Stands s p t 0x52 r w) (hop : bitsOf w 14 13 = 1) (hres : bitsOf w 55 15 = 0) :
    execGctlRelease p t s = .next (movedOn s p t { r with greleased := setIns r.greleased (bitsOf w 7 0) } (s.tile p t)) := by
  rw [execGctlRelease, issue_stands h, if_neg (by simp [hop]), if_neg (by simp [hres]), finish_eq_movedOn, next]

/-- A GSEND whose checks all pass becomes an entry of the queue, where no dry regulator holds what it read (R450 to R454, R611). -/
theorem execGsend_of_passes {lb hb : List Byte} {d : List Nat} {src : Nat} {e : DmaEnt}
    (hd : d = memWords (s.tile p t).am.bytes (64 * bitsOf w 14 0) 16)
    (hsrc : src = if bitOf (wd d 0) 31 then gQuery (s.tile p t) r (bitsOf (wd d 0) 7 0) else bitsOf (wd d 1) 19 0)
    (hent : e = { job := .gsend d (bytesWords 16 lb) (bytesWords 16 hb) (memRead (s.tile p t).am.bytes (bitsOf (wd d 8) 20 0)
      (maskBytes (bitsOf (wd d 0) 30 29) (bitsOf (wd d 3) 31 16))) src 0 })
    (h : Stands s p t 0x51 r w) (hres : bitsOf w 55 15 = 0) (hroom : (s.tile p t).dq.length < 8)
    (hline : (s.tile p t).am.readErr (64 * bitsOf w 14 0) 64 = none) (hgood : gsendBad d src = false)
    (hmask : (s.tile p t).am.readErr (bitsOf (wd d 8) 20 0) (maskBytes (bitsOf (wd d 0) 30 29) (bitsOf (wd d 3) 31 16)) = none)
    (hlayer : kvRead s p r.inst r.ctx r.mapVer (addr48 d 4) 64 t = .ok (lb, s1))
    (hfault : lyFault s1 p r.ctx r.mapVer (bytesWords 16 lb) = false)
    (hchunk : bitsOf (wd d 9) 11 0 < lyChunks (bytesWords 16 lb)) (hrows : wd d 6 + bitsOf (wd d 3) 31 16 ≤ lyRows (bytesWords 16 lb))
    (hcols : 4 * (wd d 7 + bitsOf (wd d 3) 15 0) ≤ lyRowBytes (bytesWords 16 lb))
    (hhyper : kvRead s1 p r.inst r.ctx r.mapVer (lyHp (bytesWords 16 lb)) 64 t = .ok (hb, s2))
    (hheld : Unheld s (movedOn s2 p t r { s2.tile p t with dq := (s.tile p t).dq ++ [e] })) :
    execGsend p t s = .next (movedOn s2 p t r { s2.tile p t with dq := (s.tile p t).dq ++ [e] }) := by
  have hin : ¬(lyChunks (bytesWords 16 lb) ≤ bitsOf (wd d 9) 11 0 || lyRows (bytesWords 16 lb) < wd d 6 + bitsOf (wd d 3) 31 16 ||
      lyRowBytes (bytesWords 16 lb) < 4 * (wd d 7 + bitsOf (wd d 3) 15 0)) = true := by
    simp [hchunk, hrows, hcols]
  rw [execGsend, issue_stands h, if_neg (by simp [hres]), if_neg (show ¬maxDma ≤ _ from Nat.not_le.2 hroom)]
  simp only [hline, ← hd, ← hsrc, hgood, hmask, hlayer, hfault, if_neg hin, hhyper, Bool.false_eq_true, if_false, ← hent]
  exact congrArg _ (gate_unheld hheld)

end

/-- Settles O21: the query and the release have one path left where their reserved bits are 0, and a GSEND where its descriptor, its layer
and its hyper-parameters pass (R450 to R456, R611). -/
theorem gradientWordsComplete : Obligations.GradientWordsComplete := by
  unfold Obligations.GradientWordsComplete
  refine fun s s1 s2 p t r w lb hb => ⟨fun h hres => ?query, fun h hop hres => execGctlRelease_of_stands h hop hres, ?send⟩
  case query =>
    show execGctlQuery p t s = _
    rw [execGctlQuery_of_stands h hres]
    simp only [gQuery, List.contains_iff_mem]
  case send =>
    intro a d src ma mn l h hres hroom hline hgood hmask hlayer hfault hchunk hrows hcols hhyper v hheld
    exact execGsend_of_passes rfl rfl rfl h hres hroom hline hgood hmask hlayer hfault hchunk hrows hcols hhyper hheld

end Sys2Proof.Machine
end

section
/-! PROOFS. The phases of the stack vector units (R460 to R475, R611): one element of a GSEND, its retirement, one group of a stream. -/

namespace Sys2Proof.Machine

section
variable {s s1 s2 s3 : State} {p : Fin 8} {t : Fin 16} {r : Run}

/-- The next element of the oldest GSEND that has one goes to its SVU, where no dry regulator holds it (R460, R611). -/
theorem execSvuPhase1Element_of_element {v : State} {i k src row col : Nat} {d l hp : List Nat} {mask : List Byte} {e : DmaEnt}
    (hf : (s.part p).frozen = false) (hrun : (s.tile p t).run = some r) (hi : (s.tile p t).dq.findIdx? DmaEnt.sends = some i)
    (he : (s.tile p t).dq[i]? = some e) (hj : e.job = .gsend d l hp mask src k) (helem : gsendElem d mask k = some (row, col))
    (hsent : phase1 ⟨p, t, r, s.tile p t⟩ s i e d l hp mask src k row col = v) (hheld : Unheld s v) :
    execSvuPhase1Element p t s = .next v := by
  have hget : (s.tile p t).dq.getD i { job := .desc [] 0 0 } = e := by rw [List.getD_eq_getElem?_getD, he, Option.getD_some]
  rw [execSvuPhase1Element, if_neg (by simp [hf]), next]
  simp only [hrun, hi, hget, hj, helem, hsent]
  exact congrArg _ (gate_unheld hheld)

/-- A GSEND at the front of the queue that has no element left retires, once its statistics are written (R467, R611). -/
theorem execGsendRetire_of_drained {v : State} {k src : Nat} {d l hp : List Nat} {mask : List Byte} {e : DmaEnt} {rest : List DmaEnt}
    (hf : (s.part p).frozen = false) (ho : owes s p [0, 1] = false) (hrun : (s.tile p t).run = some r)
    (hq : (s.tile p t).dq = e :: rest) (hj : e.job = .gsend d l hp mask src k) (hactive : e.active = true)
    (hleft : gsendElem d mask k = none) {u : State}
    (hstats : e.acc.foldl (fun (m : Mv) sv => m.bind fun s =>
        match writeHbm { s with free := s.free + 1 } p r.ctx r.mapVer (lyStat l + 64 * (768 * bitsOf (wd d 9) 11 0 + sv.1))
            (good (wordsBytes (statTotals sv.2 ++ [lyStep l]) ++ freeTail s.free)) with
        | .error er => ⟨s, some (.acc er)⟩
        | .ok s1 => ⟨s1, none⟩) ⟨s, none⟩ = ⟨u, none⟩)
    (hv : v = u.setTile p t (Tile.touch { u.tile p t with dq := rest } (s.part p).count)) (hheld : Unheld s v) :
    execGsendRetire p t s = .next v := by
  subst hv
  rw [execGsendRetire, if_neg (by simp [hf, ho]), next]
  simp only [hrun, hq, hj, hactive, hleft, Bool.not_true, Option.isSome_none, Bool.or_false, Bool.false_eq_true, if_false]
  generalize hm : List.foldl _ _ e.acc = m
  obtain rfl : m = ⟨u, none⟩ := hm.symm.trans hstats
  exact congrArg _ (gate_unheld hheld)

/-- A group of a stream whose reads are good and whose pages may be written keeps its writes for the commit point (R470 to R475). -/
theorem execSvuStreamGroup_of_good {v : State} {n u : Nat} {i : Inst} {svu : Fin 768} {ws : List (Nat × List Byte)} {o : Nat}
    (hf : (s.part p).frozen = false) (hn : s.inst? p n = some i) (hsvu : i.svu = true) (hst : i.st = .running)
    (hended : i.ended = false) (hu : (svuUnits s p i svu)[tabGet 0 i.svuDone svu / svuPerUnit i.svuDesc]? = some u)
    (hwait : phase1Waits s svu = false)
    (ho : o = u + tabGet 0 i.svuDone svu % svuPerUnit i.svuDesc * (32 * svuElem i.svuDesc))
    (hgroup : svuGroup s p i o = .ok (some ws, s1)) (hfault : groupFault s1 p i ws = none) {j : Inst}
    (hj : j = { i with svuDone := tabSet i.svuDone svu (tabGet 0 i.svuDone svu + 1), svuOut := i.svuOut ++ ws })
    (hv : v = s1.setInst p n { j with ended := decide (svuTotal s1 p j ≤ svuDoneAll j) }) (hheld : Unheld s v) :
    execSvuStreamGroup p n svu s = .next v := by
  subst hv hj ho
  have hrun : ¬(!i.svu || i.st != .running || i.ended || phase1Waits s svu) = true := by simp [hsvu, hst, hended, hwait]
  rw [execSvuStreamGroup, if_neg (by simp [hf]), next]
  simp only [hn, if_neg hrun, hu, hgroup, hfault]
  exact congrArg _ (gate_unheld hheld)

end

/-- Settles O22: an element of phase 1 whose reads and writes are good is sent as its GSEND's layer says; a GSEND without elements
retires; a group of a stream is kept for the commit point (R460 to R475, R611). -/
theorem svuStepsComplete : Obligations.SvuStepsComplete := by
  unfold Obligations.SvuStepsComplete
  refine fun s p t hf => ⟨?element, ?retire, ?group⟩
  case element =>
    intro r i k src row col q dpa d l hp mask e ins s1 s2 s3 hrun hi he hj helem pa o plane P s0 ln acc out hread htr hopen
      hins h1 h2 v hheld
    refine execSvuPhase1Element_of_element hf hrun hi he hj helem ?_ hheld
    have hreg : ¬(q != p.val && closedFor (s.part p) 1 r.inst) = true := by
      rcases hopen with rfl | hc
      · simp
      · simp [hc]
    simp only [pa, o, plane, P, s0, ln, acc, out] at hread htr hins h1 h2
    simp only [phase1, hread, htr, if_neg hreg, hins, h1, h2]
    rfl
  case retire =>
    intro r k src d l hp mask e rest u hrun hq hj hactive hleft hstats ho v hheld
    exact execGsendRetire_of_drained hf ho hrun hq hj hactive hleft hstats rfl hheld
  case group =>
    intro n i svu u ws s1 hn hsvu hst hended k per hu hwait hgroup hfault j v hheld
    exact execSvuStreamGroup_of_good hf hn hsvu hst hended hu hwait rfl hgroup hfault rfl rfl hheld

end Sys2Proof.Machine
end

section
/-! PROOFS. Windows of BAR2 and SVU programs (R470, R854, R855): a message whose checks pass has only its effect left. -/

namespace Sys2Proof.Machine

section
variable {s u v : State} {k : Fin 9} {r : Req}

/-- An entry of the context, or none, is the context's to set (R855). -/
theorem entry_own {t : Tab Window} {e c : Nat} (h : ∀ x, tabFind t e = some x → x.ctx = c) :
    (match tabFind t e with | some x => x.ctx != c | none => false) = false := by
  cases hx : tabFind t e with
  | none => rfl
  | some x => simp [h x hx]

/-- A window of aligned device memory at a free, aligned range of the BAR is entered (R854, R855). -/
theorem execBar2WindowSet_of_accepted {e off dva len : Nat} (he : bitsOf (wd r.payload 0) 3 0 = e) (hoff : wd64 r.payload 2 = off)
    (hdva : wd64 r.payload 4 = dva) (hlen : wd64 r.payload 6 = len) (h : Asked s k 0x0210 r u)
    (hres : NoBits r [0x3FFFFFF0, 0xFFFFFFFF]) (hset : bitOf (wd r.payload 0) 30 = true)
    (hown : ∀ x, tabFind (u.fn k).bar2 e = some x → x.ctx = r.ctx) (hoffal : off % 2097152 = 0) (hdvaal : dva % 2097152 = 0)
    (hlenal : len % 2097152 = 0) (hpos : 0 < len) (hin : off + len ≤ bar2Bytes (u.fn k))
    (hfree : ∀ x ∈ (u.fn k).bar2, x.1 ≠ e → overlap off len x.2.off x.2.bytes = false) (hend : dva + len ≤ 2 ^ 48) :
    execBar2WindowSet k s = .next (okReply (u.setFn k { u.fn k with
      bar2 := tabSet (u.fn k).bar2 e { ctx := r.ctx, dva, units := len / 2097152, writable := bitOf (wd r.payload 0) 31, off } })
        k r []) := by
  subst he hoff hdva hlen
  have hlength : (wd64 r.payload 6 % 2097152 != 0 || wd64 r.payload 6 == 0) = false := by simp [hlenal, Nat.ne_of_gt hpos]
  rw [execBar2WindowSet, runOp_asked h, next]
  refine congrArg _ ((if_pos hset).trans (checked_go ?checks))
  exact firstBad_reserved _ hres <| firstBad_cons (entry_own hown) <| firstBad_cons (by simpa using hoffal) <|
    firstBad_cons (by simpa using hdvaal) <| firstBad_cons hlength <| firstBad_cons (by simpa using hin) <|
    firstBad_cons (by simpa using hfree) <| firstBad_cons (by simpa using hend) firstBad_nil

/-- An entry of the context is taken out (R855). -/
theorem execBar2WindowSet_of_removed {e : Nat} {x : Window} (he : bitsOf (wd r.payload 0) 3 0 = e) (h : Asked s k 0x0210 r u)
    (hres : NoBits r [0x3FFFFFF0, 0xFFFFFFFF]) (hset : bitOf (wd r.payload 0) 30 = false) (hx : tabFind (u.fn k).bar2 e = some x)
    (hown : x.ctx = r.ctx) :
    execBar2WindowSet k s = .next (okReply (u.setFn k { u.fn k with bar2 := tabDel (u.fn k).bar2 e }) k r []) := by
  subst he
  have hmine := entry_own (t := (u.fn k).bar2) (e := bitsOf (wd r.payload 0) 3 0) (c := r.ctx) fun y hy => by
    rw [hx, Option.some.injEq] at hy
    rw [← hy, hown]
  rw [execBar2WindowSet, runOp_asked h, next]
  exact congrArg _ ((if_neg (by simp [hset])).trans (checked_go (firstBad_reserved _ hres <| firstBad_cons hmine <|
    firstBad_cons (by simp [hx]) firstBad_nil)))

/-- A program whose words are good and that every partition has room for is stored and measured (R470, R1049). -/
theorem execSvuProgLoad_of_accepted {n hdl : Nat} (hn : bitsOf (wd r.payload 0) 6 0 = n) (h : Asked s k 0x0220 r u) (hleast : 1 ≤ n)
    (hmost : n ≤ 64) (hres : NoBits r [0xFFFFFF80, 0xFFFFFFFF]) (hgood : ∀ x ∈ (r.payload.drop 2).take n, svuWordBad x = false)
    (hroom : ∀ p ∈ (u.ctx r.ctx).parts, (u.part p).svuWords + n ≤ 2048)
    (hid : freshId u (fun h => (tabFind (u.ctx r.ctx).progs h).isSome) 1 65535 (u.ctx r.ctx).progs.length = some (hdl, v)) :
    execSvuProgLoad k s = .next (okReply (extendCmr ((v.ctx r.ctx).parts.foldl
        (fun s p => s.setPart p { s.part p with svuWords := (s.part p).svuWords + n })
        (v.setCtx r.ctx { v.ctx r.ctx with progs := tabSet (v.ctx r.ctx).progs hdl ((r.payload.drop 2).take n) })) r.ctx 0x0220
      (wordsBytes r.payload)) k r [hdl]) := by
  subst hn
  have hwords : (bitsOf (wd r.payload 0) 6 0 == 0 || decide (64 < bitsOf (wd r.payload 0) 6 0)) = false := by
    simp only [Bool.or_eq_false_iff, beq_eq_false_iff_ne, decide_eq_false_iff_not]
    omega
  rw [execSvuProgLoad, runOp_asked h, next]
  simp only [hid]
  exact congrArg _ (checked_go (firstBad_cons hwords <| firstBad_reserved _ hres <| firstBad_cons (by simpa using hgood) <|
    firstBad_cons (by simpa using hroom) firstBad_nil))

end

/-- Settles O35: a window or a program that passes the checks of its message has only its entry, its removal or its storing left (R470,
R854, R855). -/
theorem windowsAndProgramsLoad : Obligations.WindowsAndProgramsLoad := by
  unfold Obligations.WindowsAndProgramsLoad
  exact fun s u k r => ⟨fun h hres => ⟨execBar2WindowSet_of_accepted rfl rfl rfl rfl h hres,
    fun x => execBar2WindowSet_of_removed rfl h hres⟩, fun hdl v => execSvuProgLoad_of_accepted rfl⟩

end Sys2Proof.Machine
end

section
/-! PROOFS. Row repairs of HBM stacks in test (R681 to R684): the query, the three kinds of repair and their end. -/

namespace Sys2Proof.Machine

section
variable {s u : State} {k : Fin 9} {r : Req}

/-- A partition in test, a good request and a resource that is left pass every check of a repair (R681, R682). -/
theorem firstBad_repChecks (hstack : repStack r.payload < 24) (htest : (u.part (repStack r.payload / 3)).inTest = true)
    (hres : NoBits r [0x07E00EFF, 0xFC0C0000]) (hmethod : repMethod r.payload < 4)
    (hkeep : repMethod r.payload = 1 ∨ bitOf (wd r.payload 0) 27 = false) (hbank : bitsOf (wd r.payload 1) 25 24 ≠ 3) :
    firstBad (repChecks u r) = if noSpare (u.part (repStack r.payload / 3)).hbm r.payload then some (0x0A10, noField) else none := by
  have hany : (!allParts.any fun p => (u.part p).inTest) = false := by
    rw [Bool.not_eq_false', List.any_eq_true]
    have hp : repStack r.payload / 3 < 8 := by omega
    exact ⟨_, List.mem_range.2 hp, htest⟩
  have hform : (decide (4 ≤ repMethod r.payload) || (repMethod r.payload != 1 && bitOf (wd r.payload 0) 27) ||
      decide (24 ≤ repStack r.payload)) = false := by
    rcases hkeep with hk | hk
    · simp [hk, hstack]
    · simp [hk, hmethod, hstack]
  cases hspare : noSpare (u.part (repStack r.payload / 3)).hbm r.payload
  · exact firstBad_cons hany <| firstBad_reserved _ hres <| firstBad_cons hform <| firstBad_cons (by simpa using hbank) <|
      firstBad_cons (by simp [htest]) <| firstBad_cons hspare firstBad_nil
  · unfold NoBits at hres
    simp [repChecks, reservedCheck, firstBad, hany, hres, hform, hbank, htest, hspare]

/-- The request of a repair as the messages of this page take it (R681, R682). -/
structure RepairAsked (s u : State) (k : Nat) (r : Req) : Prop where
  asked : Asked s k 0x0A03 r u
  idle : s.hbmOp = none
  reserved : NoBits r [0x07E00EFF, 0xFC0C0000]
  stack : repStack r.payload < 24
  bank : bitsOf (wd r.payload 1) 25 24 ≠ 3
  test : (u.part (repStack r.payload / 3)).inTest = true

/-- A repair that begins, or the answer that no resource is left (R682, R683). -/
def repairBegun (u : State) (k : Nat) (r : Req) (kind : Nat) : State :=
  if noSpare (u.part (repStack r.payload / 3)).hbm r.payload then refuseMsg u k r 0x0A10 noField
  else { longOp u k r [repStack r.payload / 3] 0 0 with hbmOp := some ⟨u.nextOp, kind, r.payload⟩ }

theorem beginRepair_of_asked {kind : Nat} (h : RepairAsked s u k r) (hmethod : repMethod r.payload < 4)
    (hkeep : repMethod r.payload = 1 ∨ bitOf (wd r.payload 0) 27 = false) : beginRepair u k r kind = repairBegun u k r kind := by
  have hchecks := firstBad_repChecks h.stack h.test h.reserved hmethod hkeep h.bank
  unfold beginRepair repairBegun checked
  cases hspare : noSpare (u.part (repStack r.payload / 3)).hbm r.payload <;> simp only [hchecks, hspare] <;> rfl

/-- The frame in which a message of repairs runs while none is going on. -/
theorem repairMsg_asked (h : RepairAsked s u k r) {fits : Nat → Bool} (hfits : fits (repMethod r.payload) = true)
    (body : State → Req → State) : repairMsg s k fits body = body u r :=
  runMsg_asked h.asked _ (by simp [hfits, h.idle]) body

/-- A query tells what is left (R681). -/
theorem execHbmRepairQuery_of_asked (h : RepairAsked s u k r) (hmethod : repMethod r.payload = 0)
    (hkeep : bitOf (wd r.payload 0) 27 = false) :
    execHbmRepairQuery k s = .next (okReply u k r [repLeft (u.part (repStack r.payload / 3)).hbm r.payload]) := by
  have hchecks := firstBad_repChecks h.stack h.test h.reserved (by omega) (.inr hkeep) h.bank
  rw [execHbmRepairQuery, repairMsg_asked h (by simp [hmethod]), next]
  exact congrArg _ (checked_go (by simpa [noSpare, hmethod] using hchecks))

theorem execSoftPpr_of_asked (h : RepairAsked s u k r) (hmethod : repMethod r.payload = 1) :
    execSoftPpr k s = .next (repairBegun u k r 1) := by
  rw [execSoftPpr, repairMsg_asked h (by simp [hmethod]), beginRepair_of_asked h (by omega) (.inl hmethod), next]

theorem execHardPpr_of_asked (h : RepairAsked s u k r) (hmethod : repMethod r.payload = 2)
    (hkeep : bitOf (wd r.payload 0) 27 = false) : execHardPpr k s = .next (repairBegun u k r 2) := by
  rw [execHardPpr, repairMsg_asked h (by simp [hmethod]), beginRepair_of_asked h (by omega) (.inr hkeep), next]

theorem execSpareRow_of_asked (h : RepairAsked s u k r) (hmethod : repMethod r.payload = 3)
    (hkeep : bitOf (wd r.payload 0) 27 = false) : execSpareRow k s = .next (repairBegun u k r 3) := by
  rw [execSpareRow, repairMsg_asked h (by simp [hmethod]), beginRepair_of_asked h (by omega) (.inr hkeep), next]

end

/-- Settles O36: a request whose stack is in test passes every check but that of what is left, and the end of the repair that goes on is
its own command (R681 to R684). -/
theorem rowRepairsRun : Obligations.RowRepairsRun := by
  unfold Obligations.RowRepairsRun
  refine fun s u k r => ⟨fun h hidle hres hstack hbank htest => ?asked, fun o took ho => ?done⟩
  case asked =>
    have ha : RepairAsked s u k r := ⟨h, hidle, hres, hstack, hbank, htest⟩
    exact ⟨execHbmRepairQuery_of_asked ha, execSoftPpr_of_asked ha, execHardPpr_of_asked ha, execSpareRow_of_asked ha⟩
  case done =>
    show execHbmRepairDone took s = _
    rw [execHbmRepairDone, ho, next]

end Sys2Proof.Machine
end

section
/-! PROOFS. Messages of graphs (R503 to R505, R535, R536, R588): a message that passes its checks has only its effect left. -/

namespace Sys2Proof.Machine

section
variable {s u v : State} {k : Fin 9} {r : Req} {p : Nat}

/-- A segment whose nodes pass the checks of a post, and for which the partition has room, is stored and, as a root, started (R503, R504). -/
theorem execGraphPost_of_accepted {n : Nat} {nodes : HostRd} {ns : List (List Nat)} (hp : bitsOf (wd r.payload 0) 18 16 = p)
    (hn : bitsOf (wd r.payload 0) 12 0 = n) (hpart : PartOk u k r p) (h : Asked s k 0x0301 r u)
    (hres : NoBits r [0x1FF8E000, 0xFFFFFFFF]) (hleast : 1 ≤ n) (hmost : n ≤ 4096)
    (hinline : bitOf (wd r.payload 0) 30 = true → n ≤ 63 ∧ bitOf (wd r.payload 0) 29 = false ∧ wd64 r.payload 2 = 0)
    (haddr : bitOf (wd r.payload 0) 30 = false → wd64 r.payload 2 % 64 = 0) (hnodes : postNodes u r p n nodes = (some ns, v))
    (hgood : segFault (v.cp r.ctx p).segs ns = none) (hstored : storedNodes v p + n ≤ 16384)
    (hworst : bitOf (wd r.payload 0) 31 = false → worstTotal v p + worstOf (v.cp r.ctx p).segs 9 ns ≤ 4096) :
    execGraphPost k nodes s = .next (postSegment v k r p (!bitOf (wd r.payload 0) 31) ns) := by
  subst hp hn
  have hcount : (bitsOf (wd r.payload 0) 12 0 == 0 || decide (4096 < bitsOf (wd r.payload 0) 12 0) ||
      (bitOf (wd r.payload 0) 30 && decide (63 < bitsOf (wd r.payload 0) 12 0))) = false := by
    cases hi : bitOf (wd r.payload 0) 30
    · simp only [Bool.false_and, Bool.or_false, Bool.or_eq_false_iff, beq_eq_false_iff_ne, decide_eq_false_iff_not]
      omega
    · have hshort := (hinline hi).1
      simp only [Bool.true_and, Bool.or_eq_false_iff, beq_eq_false_iff_ne, decide_eq_false_iff_not]
      omega
  have hkind : (bitOf (wd r.payload 0) 30 && bitOf (wd r.payload 0) 29) = false := by
    rw [Bool.and_eq_false_imp]
    exact fun hi => (hinline hi).2.1
  have hsource : (if bitOf (wd r.payload 0) 30 then wd64 r.payload 2 != 0 else wd64 r.payload 2 % 64 != 0) = false := by
    cases hi : bitOf (wd r.payload 0) 30
    · simpa using haddr hi
    · simpa using (hinline hi).2.2
  have hroom : ¬(decide (16384 < storedNodes v (bitsOf (wd r.payload 0) 18 16) + bitsOf (wd r.payload 0) 12 0) ||
      (!bitOf (wd r.payload 0) 31 && decide (4096 < worstTotal v (bitsOf (wd r.payload 0) 18 16) +
        worstOf (v.cp r.ctx (bitsOf (wd r.payload 0) 18 16)).segs 9 ns))) = true := by
    cases hr : bitOf (wd r.payload 0) 31
    · simpa [hstored] using hworst hr
    · simpa using hstored
  rw [execGraphPost, runOp_asked h, next]
  refine congrArg _ ((checked_go ?checks).trans ?stored)
  case checks =>
    exact firstBad_append (firstBad_part hpart) <| firstBad_reserved _ hres <| firstBad_cons hcount <| firstBad_cons hkind <|
      firstBad_cons hsource firstBad_nil
  case stored => simp only [hnodes, hgood, if_neg hroom]

/-- A subgraph that no stored node and no node in flight uses is dropped (R505). -/
theorem execSubgraphRelease_of_unused {hdl : Nat} {g : Seg} (hp : bitsOf (wd r.payload 0) 18 16 = p)
    (hh : bitsOf (wd r.payload 0) 15 0 = hdl) (hpart : PartOk u k r p) (h : Asked s k 0x0302 r u) (hres : NoBits r [0xFFF80000])
    (hfind : tabFind (u.cp r.ctx p).segs hdl = some g) (hroot : g.root = false)
    (hstored : ∀ e ∈ (u.cp r.ctx p).segs, ∀ ws ∈ e.2.nodes, subOf ws ≠ some hdl)
    (hlive : ∀ e ∈ (u.part p).insts, e.2.ctx = r.ctx → e.2.seg = hdl → e.2.parent = none) :
    execSubgraphRelease k s =
      .next (okReply (u.setCp r.ctx p { u.cp r.ctx p with segs := tabDel (u.cp r.ctx p).segs hdl }) k r []) := by
  subst hp hh
  have hunused : (((u.cp r.ctx (bitsOf (wd r.payload 0) 18 16)).segs.any fun g =>
        g.2.nodes.any fun ws => subOf ws == some (bitsOf (wd r.payload 0) 15 0)) ||
      (u.part (bitsOf (wd r.payload 0) 18 16)).insts.any fun e =>
        e.2.ctx == r.ctx && e.2.seg == bitsOf (wd r.payload 0) 15 0 && e.2.parent.isSome) = false := by
    rw [Bool.or_eq_false_iff]
    refine ⟨?stored, ?live⟩
    case stored => simpa using hstored
    case live => simpa using fun n i hi => hlive (n, i) hi
  rw [execSubgraphRelease, runOp_asked h, next]
  refine congrArg _ (checked_go ?_)
  exact firstBad_append (firstBad_part hpart) <| firstBad_reserved _ hres <| firstBad_cons (by simp [hfind, hroot]) <|
    firstBad_cons hunused firstBad_nil

/-- A ring of 64 to 65,536 records at aligned addresses is taken from record 0, its path whole (R588). -/
theorem execCplRingSet_of_accepted (hp : bitsOf (wd r.payload 0) 18 16 = p) (hpart : PartOk u k r p) (h : Asked s k 0x0304 r u)
    (hres : NoBits r [0xFFF8FFE0, 0xFFFFFFFF]) (hleast : 6 ≤ bitsOf (wd r.payload 0) 4 0) (hmost : bitsOf (wd r.payload 0) 4 0 ≤ 16)
    (hbase : wd64 r.payload 2 % 4096 = 0) (hcons : wd64 r.payload 4 % 4 = 0) :
    execCplRingSet k s = .next (okReply (u.setCp r.ctx p { u.cp r.ctx p with
      ring := some ⟨wd64 r.payload 2, bitsOf (wd r.payload 0) 4 0, wd64 r.payload 4, 0⟩, broken := false }) k r []) := by
  subst hp
  have hsize : (decide (bitsOf (wd r.payload 0) 4 0 < 6) || decide (16 < bitsOf (wd r.payload 0) 4 0)) = false := by
    simp only [Bool.or_eq_false_iff, decide_eq_false_iff_not]
    omega
  rw [execCplRingSet, runOp_asked h, next]
  refine congrArg _ (checked_go ?_)
  exact firstBad_append (firstBad_part hpart) <| firstBad_reserved _ hres <| firstBad_cons hsize <|
    firstBad_cons (by simpa using hbase) <| firstBad_cons (by simpa using hcons) firstBad_nil

theorem execGraphQuery_of_accepted (hp : bitsOf (wd r.payload 0) 18 16 = p) (hpart : PartOk u k r p) (h : Asked s k 0x0305 r u)
    (hres : NoBits r [0xFFF8FFFF]) :
    execGraphQuery k s = .next (okReply u k r [inFlight u p, storedNodes u p, storedSegs u p, worstTotal u p]) := by
  subst hp
  rw [execGraphQuery, runOp_asked h, next]
  exact congrArg _ (checked_go (firstBad_append (firstBad_part hpart) <| firstBad_reserved _ hres firstBad_nil))

/-! GRAPH_ABORT (R535, R536). -/

/-- The named instances short of their commit point, and those past it. -/
def abortShort (u : State) (r : Req) (p : Nat) : List Nat := ((abortNames u r p).filter (·.2.st.short)).map (·.1)
def abortPast (u : State) (r : Req) (p : Nat) : List Nat := ((abortNames u r p).filter fun e => !e.2.st.short).map (·.1)

/-- The state after the abandoning: the named instances short of their commit point with those below them. -/
def abortDone (u : State) (r : Req) (p : Nat) : State :=
  abandonSet u p (abortShort u r p ++ (descendants nestFuel (u.part p).insts (abortShort u r p)).filter
    fun m => (u.inst? p m).any (·.st.short)) .aborted 0

/-- A node that is there and short of its commit point. -/
theorem shortAt_eq_any (u : State) (p m : Nat) :
    (match u.inst? p m with | some j => j.st.short | none => false) = (u.inst? p m).any (·.st.short) := by
  cases u.inst? p m <;> rfl

/-- What an abort that passes its checks does (R535, R536). -/
theorem execGraphAbort_of_accepted (hp : bitsOf (wd r.payload 0) 18 16 = p) (hpart : PartOk u k r p) (h : Asked s k 0x0303 r u)
    (hres : NoBits r [0x3FF8FFFF, 0x0000F000]) (hscope : bitsOf (wd r.payload 0) 31 30 ≠ 3) :
    execGraphAbort k s = .next (if abortPast u r p = [] then
        reply (abortDone u r p) k r.no r.seq r.opcode r.ctx
          (if abortNames u r p = [] then 0x0303 else if abortShort u r p = [] then 0x0001 else 0)
          (if abortNames u r p = [] then noField else 0) [(abortShort u r p).length, 0]
      else longOp (abortDone u r p) k r (abortPast u r p) (abortShort u r p).length (abortPast u r p).length) := by
  subst hp
  rw [execGraphAbort, runOp_asked h, next]
  refine congrArg _ ((checked_go ?checks).trans ?done)
  case checks =>
    exact firstBad_append (firstBad_part hpart) <| firstBad_reserved _ hres <| firstBad_cons (by simpa using hscope) firstBad_nil
  case done =>
    have hbelow := List.filter_congr (l := descendants nestFuel (u.part (bitsOf (wd r.payload 0) 18 16)).insts
      (abortShort u r (bitsOf (wd r.payload 0) 18 16))) fun m _ => shortAt_eq_any u (bitsOf (wd r.payload 0) 18 16) m
    unfold abortDone
    rw [← hbelow]
    rfl

end

/-- Settles O37: each message passes its checks and has its effect left; that an abort takes those below the named instances too is the
model's reading (DEDUCED, log entry 116). -/
theorem graphMessagesAct : Obligations.GraphMessagesAct := by
  unfold Obligations.GraphMessagesAct
  refine fun s u k r hpart => ⟨fun nodes ns v => execGraphPost_of_accepted rfl rfl hpart,
    fun g => execSubgraphRelease_of_unused rfl rfl hpart, fun h hres hscope => ?abort, execCplRingSet_of_accepted rfl hpart,
    execGraphQuery_of_accepted rfl hpart⟩
  case abort =>
    have habort := execGraphAbort_of_accepted rfl hpart h hres hscope
    intro named short below v past
    refine ⟨fun hnone => ?none, fun hshort hpast => ?short, fun hpast => habort.trans (congrArg _ (if_neg hpast))⟩
    case none =>
      have hpast : abortPast u r (bitsOf (wd r.payload 0) 18 16) = [] := by simp [abortPast, show abortNames u r _ = [] from hnone]
      have hshort : abortShort u r (bitsOf (wd r.payload 0) 18 16) = [] := by simp [abortShort, show abortNames u r _ = [] from hnone]
      refine habort.trans (congrArg _ ((if_pos hpast).trans ?_))
      rw [if_pos hnone, if_pos hnone, hshort]
      rfl
    case short =>
      have hnamed : abortNames u r (bitsOf (wd r.payload 0) 18 16) ≠ [] := fun hnone =>
        hshort (by simp [short, named, hnone])
      refine habort.trans (congrArg _ ((if_pos hpast).trans ?_))
      rw [if_neg hnamed, if_neg hnamed, if_neg (show ¬abortShort u r _ = [] from hshort)]
      rfl

end Sys2Proof.Machine
end

section
/-! PROOFS. CALL and LOOP, the nodes whose work is their commit's, and SEND (R497, R501, R515 to R530, R611, R1117): a node
that dispatches and passes its checks has only its own work left. -/

namespace Sys2Proof.Machine

section
variable {s u v : State} {p : Fin 8} {n : Nat} {i j : Inst} {rd : HostRd} {ns : List (List Nat)}

/-- Words that are all 0 pass the test for reserved ones. -/
theorem any_ne_zero_eq_false {l : List Nat} (h : l.all (· == 0) = true) : l.any (· != 0) = false := by
  rw [List.any_eq_false]
  intro x hx
  simpa using List.all_eq_true.1 h x hx

/-! CALL (R501). -/

/-- A CALL that runs again goes on with the instances that it had (DEDUCED, log entry 88). -/
theorem execCall_of_rerun (h : Dispatches s p n i u j) (hty : i.ty = 6) (hrerun : j.rerun = true) :
    execCall p n s = .next (traced (if hasNodes u p n then u else endExec u p n) p n i) := by
  rw [execCall, dispatchNode_of_dispatches h (by simp [hty]), if_pos hrerun, next]

/-- A first CALL makes the instances of its stored subgraph. -/
theorem execCall_of_subgraph (h : Dispatches s p n i u j) (hty : i.ty = 6) (hrerun : j.rerun = false)
    (hres : bitsOf (wd j.words 6) 31 16 = 0) (hzero : (j.words.drop 7).all (· == 0) = true)
    (hsub : subgraphOf u j.ctx p (bitsOf (wd j.words 6) 15 0) = some ns) :
    execCall p n s = .next (traced (instantiate u p j.ctx (bitsOf (wd j.words 6) 15 0) ns (some n) j.iter) p n i) := by
  rw [execCall, dispatchNode_of_dispatches h (by simp [hty]), if_neg (by simp [hrerun]),
    if_neg (by simp [hres, any_ne_zero_eq_false hzero])]
  simp only [hsub]
  rfl

/-! LOOP (R515). -/

/-- The start of the next iteration of a LOOP. -/
def loopGo (v : State) (p n : Nat) (i : Inst) (ns : List (List Nat)) : State :=
  instantiate (v.modInst p n fun k => { k with started := k.started + 1 }) p i.ctx (bitsOf (wd i.words 6) 15 0) ns (some n) i.started

/-- The end of a LOOP. -/
def loopStop (v : State) (p n : Nat) : State := v.modInst p n fun k => { k with ended := true, choice := some true }

theorem loopStep_of_done (h : wd i.words 7 ≤ i.started) : loopStep s p n i rd = loopStop s p n := by
  rw [loopStep, if_pos h]
  rfl

theorem loopStep_of_count (h : i.started < wd i.words 7) (hkind : i.kind = false)
    (hsub : subgraphOf s i.ctx p (bitsOf (wd i.words 6) 15 0) = some ns) : loopStep s p n i rd = loopGo s p n i ns := by
  rw [loopStep, if_neg (Nat.not_le.2 h), if_neg (by simp [hkind])]
  simp only [hsub]
  rfl

theorem loopStep_of_condition {w : Nat} (h : i.started < wd i.words 7) (hkind : i.kind = true) (hread : CondReads s p n i rd w v)
    (hsub : subgraphOf v i.ctx p (bitsOf (wd i.words 6) 15 0) = some ns) :
    loopStep s p n i rd = if condHolds i w then loopGo v p n i ns else loopStop v p n := by
  rw [loopStep, if_neg (Nat.not_le.2 h), if_pos hkind, condRead_of_reads hread]
  simp only [hsub]
  rfl

/-- A running LOOP whose instances are gone goes on when its interval has passed. -/
theorem execLoopIterationStart_of_due (hi : s.inst? p n = some i) (hty : i.ty = 5) (hdue : pollDue s p i = true)
    (hchoice : i.choice = none) (hnodes : hasNodes s p n = false) :
    execLoopIterationStart p n rd s = .next (loopStep s p n i rd) := by
  simp [execLoopIterationStart, next, hi, hty, hdue, hchoice, hnodes]

/-- A LOOP that dispatches. -/
theorem execLoopIterationStart_of_dispatches (h : Dispatches s p n i u j) (hty : i.ty = 5) (hdue : pollDue s p i = false) :
    execLoopIterationStart p n rd s = .next (traced (if j.rerun && j.choice.isSome then endExec u p n
      else if j.rerun && hasNodes u p n then u
      else if loopBad j then refuse u p n 0x3280 []
      else withRanges u p n (if j.kind then condRange u p j else []) fun s => loopStep s p n j rd) p n i) := by
  have hi : s.inst? p n = some i := h.1
  simp only [execLoopIterationStart, next, hi]
  rw [if_neg (by simp [hty]), if_neg (by simp [hdue]), dispatchNode_of_dispatches h rfl]

/-! SIGNAL, EPOCH, EVENT and JOIN (R497, R518, R521, R530, R744). -/

/-- A SIGNAL whose fields, route and range pass ends its execution, or waits for the translations of the host memory that it names; its
grant is latched at the first dispatch. -/
theorem execSignal_of_passes (h : Dispatches s p n i u j) (hty : i.ty = 3) (hgood : j.rerun = false → signalBad u p j = false)
    (hroute : j.sTarget = 1 → routeRefused u p j.destModule = false)
    (hrange : j.sTarget = 3 → namedRange u p j (wd64 j.words 8) j.sBytes true = .ok) :
    let c := bitsOf (wd j.words 6) 21 16
    let ps := if j.sTarget = 2 then missingPages u (u.ctx j.ctx).owner (wd64 j.words 8) j.sBytes else []
    execSignal p n s = .next (traced ((askPages u (u.ctx j.ctx).owner ps).modInst p n fun k => { k with
      ended := ps == [], xlWait := ps
      grant := if j.rerun then j.grant
        else if j.sTarget = 0 ∧ c ≠ 0 ∧ c ≠ j.ctx then some (c, (u.ctx c).epoch) else none }) p n i) := by
  have hfields : ¬(!j.rerun && signalBad u p j) = true := by
    cases hr : j.rerun
    · simp [hgood hr]
    · simp
  have hway : ¬(decide (j.sTarget = 1) && routeRefused u p j.destModule) = true := by
    by_cases ht : j.sTarget = 1
    · simp [hroute ht]
    · simp [ht]
  have hnamed : ∀ r ∈ (if j.sTarget = 3 then [namedRange u p j (wd64 j.words 8) j.sBytes true] else []), r = .ok := by
    intro r hr
    by_cases ht : j.sTarget = 3
    · rw [if_pos ht, List.mem_singleton] at hr
      rw [hr, hrange ht]
    · simp [ht] at hr
  rw [execSignal, dispatchNode_of_dispatches h (by simp [hty]), if_neg hfields, if_neg hway, withRanges_of_ok hnamed]
  simp only [next, Bool.and_eq_true, decide_eq_true_eq, and_assoc]

/-- An EPOCH whose generation is LOADED and undamaged here ends its execution. -/
theorem execEpoch_of_loaded {B : Binding} {w : WGen} (h : Dispatches s p n i u j) (hty : i.ty = 8)
    (hres : bitsOf (wd j.words 6) 31 16 = 0) (hzero : (j.words.drop 8).all (· == 0) = true)
    (hB : tabFind (u.ctx j.ctx).bindings (bitsOf (wd j.words 6) 15 0) = some B) (hw : tabFind B.gens (wd j.words 7) = some w)
    (hst : w.st = .loaded) (hgood : (p : Nat) ∉ w.damagedOn) : execEpoch p n s = .next (traced (endExec u p n) p n i) := by
  rw [execEpoch, dispatchNode_of_dispatches h (by simp [hty]), if_neg (by simp [hres, any_ne_zero_eq_false hzero])]
  simp [hB, hw, hst, hgood, next]

theorem execEvent_of_good (h : Dispatches s p n i u j) (hty : i.ty = 9) (hres : bitsOf (wd j.words 6) 31 11 = 0)
    (hzero : (j.words.drop 7).all (· == 0) = true) : execEvent p n s = .next (traced (endExec u p n) p n i) := by
  rw [execEvent, dispatchNode_of_dispatches h (by simp [hty]), if_neg (by simp [hres, any_ne_zero_eq_false hzero]), next]

theorem execJoin_of_good (h : Dispatches s p n i u j) (hty : i.ty = 10) (hgood : joinBad j = false) :
    execJoin p n s = .next (traced (endExec u p n) p n i) := by
  rw [execJoin, dispatchNode_of_dispatches h (by simp [hty]), if_neg (by simp [hgood]), next]

/-! SEND (R520, R611, R796). -/

/-- The checks of a SEND, or of the arm of one, pass (R520, R616, R818). -/
structure SendPasses (u : State) (p : Fin 8) (n : Nat) (j : Inst) : Prop where
  fresh : j.staged = none
  fields : sendBad u j = false
  way : j.isArm u = false → routeRefused u p j.destModule = false ∧
    egressClosed u p n j.destModule (bitsOf (wd j.words 7) 18 13) (bitsOf (wd j.words 6) 21 20) (wd64 j.words 10 % 2 ^ 48) j.length = none

/-- Such a SEND stages its source, once the range in device memory that it names passes. -/
theorem sendGo_of_passes (h : SendPasses u p n j)
    (hrange : sdSpace j = 0 → namedRange u p j (wd64 j.words 8) j.length false = .ok) : sendGo u p n j = sendStage u p n j := by
  obtain ⟨hfresh, hfields, hway⟩ := h
  have hroute : ¬(!j.isArm u && routeRefused u p j.destModule) = true := by
    cases ha : j.isArm u
    · simp [(hway ha).1]
    · simp
  have hopen : (if j.isArm u then none else egressClosed u p n j.destModule (bitsOf (wd j.words 7) 18 13) (bitsOf (wd j.words 6) 21 20)
      (wd64 j.words 10 % 2 ^ 48) j.length) = none := by
    cases ha : j.isArm u
    · exact (if_neg (by simp)).trans (hway ha).2
    · exact if_pos rfl
  have hnamed : ∀ r ∈ (if sdSpace j = 0 then [namedRange u p j (wd64 j.words 8) j.length false] else []), r = .ok := by
    intro r hr
    by_cases hd : sdSpace j = 0
    · rw [if_pos hd, List.mem_singleton] at hr
      rw [hr, hrange hd]
    · simp [hd] at hr
  rw [sendGo, if_neg (by simp [hfresh]), if_neg (by simp [hfields]), if_neg hroute]
  simp only [hopen]
  exact withRanges_of_ok hnamed _

/-- Both commands of SEND run the same work behind the gate. -/
theorem exec_send_of_dispatches {c : Instr} (h : Dispatches s p n i u j)
    (hc : c = .send p n ∧ i.ty = 7 ∧ i.isArm s = false ∨ c = .sendArm p n ∧ i.isArm s = true)
    (hheld : Unheld s (traced (sendGo u p n j) p n i)) : exec c s = .next (traced (sendGo u p n j) p n i) := by
  rcases hc with ⟨rfl, hty, harm⟩ | ⟨rfl, harm⟩
  · show execSend p n s = _
    rw [execSend, dispatchNode_of_dispatches h (by simp [hty, harm]), gate_unheld hheld, next]
  · show execSendArm p n s = _
    rw [execSendArm, dispatchNode_of_dispatches h (by simp [harm]), gate_unheld hheld, next]

end

/-- Settles O27: a node that dispatches and passes its checks has only its own work left; that a CALL or LOOP that runs again keeps its
instances is the model's reading (DEDUCED, log entry 88). -/
theorem shortNodesRun : Obligations.ShortNodesRun := by
  unfold Obligations.ShortNodesRun
  refine ⟨fun s p n i ns => ⟨fun u j => execCall_of_rerun, fun u j => execCall_of_subgraph, fun rd hi hty hdue hchoice hnodes => ?again,
    fun rd u j h hty hdue hrerun => ?rerun, fun rd u j h hty hdue hfirst hgood hkind hleft hsub => ?first⟩,
    fun s u p n i j h => ⟨execSignal_of_passes h, fun B w => execEpoch_of_loaded h, execEvent_of_good h, execJoin_of_good h⟩,
    fun s u p n i j c h hc hfresh hfields hway => ?send⟩
  case again =>
    have hstep := execLoopIterationStart_of_due (rd := rd) hi hty hdue hchoice hnodes
    exact ⟨fun hdone => hstep.trans (congrArg _ (loopStep_of_done hdone)),
      fun hleft hkind hsub => hstep.trans (congrArg _ (loopStep_of_count hleft hkind hsub)),
      fun w v hleft hkind hread hsub => hstep.trans (congrArg _ (loopStep_of_condition hleft hkind hread hsub))⟩
  case rerun =>
    have hstart := execLoopIterationStart_of_dispatches (rd := rd) h hty hdue
    refine ⟨fun hchoice => hstart.trans (congrArg (fun x => Host.Outcome.next (traced x p n i)) (if_pos ?_)),
      fun hchoice hnodes => hstart.trans (congrArg (fun x => Host.Outcome.next (traced x p n i)) ((if_neg ?_).trans (if_pos ?_)))⟩
    · simpa [hrerun, Option.isSome_iff_ne_none] using hchoice
    · simp [hchoice]
    · simp [hrerun, hnodes]
  case first =>
    have hstart := execLoopIterationStart_of_dispatches (rd := rd) h hty hdue
    have hchoice : ¬(j.rerun && j.choice.isSome) = true := by
      cases hr : j.rerun
      · simp
      · simp [(hfirst hr).1]
    have hnodes : ¬(j.rerun && hasNodes u p n) = true := by
      cases hr : j.rerun
      · simp
      · simp [(hfirst hr).2]
    have hnone : ∀ r ∈ (if j.kind then condRange u p j else []), r = .ok := by simp [hkind]
    rw [if_neg hchoice, if_neg hnodes, if_neg (by simp [hgood]), withRanges_of_ok hnone, loopStep_of_count hleft hkind hsub] at hstart
    exact hstart
  case send =>
    have hpasses : SendPasses u p n j := ⟨hfresh, hfields, hway⟩
    intro a
    refine ⟨fun bs v hspace hrange hread hheld => ?device, ?scratchpad⟩
    case device =>
      have hgo : sendGo u p n j = stage v p n bs := by
        rw [sendGo_of_passes hpasses fun _ => hrange, sendStage, if_pos hspace, nodeRead_of_reads hread]
      rw [← hgo] at hheld ⊢
      exact exec_send_of_dispatches h hc hheld
    case scratchpad =>
      intro d hspace hread hheld
      have hgo : sendGo u p n j = stage u p n (memRead ((u.tile p (bitsOf (wd j.words 6) 25 22)).spad (spcOf (sdSpace j))).bytes
          (wd64 j.words 8) j.length) := by
        rw [sendGo_of_passes hpasses fun h0 => absurd h0 hspace, sendStage, if_neg hspace]
        exact if_neg (by rw [hread]; simp)
      exact hgo ▸ exec_send_of_dispatches h hc (hgo ▸ hheld)

end Sys2Proof.Machine
end

section
/-! PROOFS. Budgets, outside errors, acknowledgement timeouts (R532, R537, R539, R799) and the deadlock check (R540, R541). -/

namespace Sys2Proof.Machine

section
variable {s : State} {p : Fin 8} {n : Nat} {i : Inst}

theorem execNodeBudget_of_overrun (hi : s.inst? p n = some i) (hfree : (s.part p).frozen = false) (hty : scheduled i.ty = true)
    (hst : i.st = .running) (hdue : i.dispAt + i.budget ≤ (s.part p).count) :
    execNodeBudget p n s = .next (killNode s p n 0x3281 i.data) := by
  simp [execNodeBudget, next, hi, hfree, hty, hst, hdue]

theorem execNodeIo_of_running (hi : s.inst? p n = some i) (hfree : (s.part p).frozen = false) (hst : i.st = .running)
    (hreads : readsOutside i = true) :
    execNodeIo p n s = .next (if i.ty = 1 then killNode s p n 0x3282 i.data else condIo s p n i) := by
  simp [execNodeIo, next, hi, hfree, hst, hreads]

theorem execSendAckTimeout_of_due (hi : s.inst? p n = some i) (hfree : (s.part p).frozen = false) (hst : i.st = .committing)
    (hheld : i.held = false) (hstep : i.step3 = true) (hdue : i.sentAt + 50000 ≤ (s.part p).count) (harm : i.arm = none) :
    execSendAckTimeout p n s = .next (commitRest ((nodeEvent (dropTxns s p n) p n 0x2285 i.data).modInst p n
      fun j => { j with acks := [], arm := none, ackBad := true }) p n) := by
  have hwait : ¬(s.part p).count < i.sentAt + us 2000 := Nat.not_lt.2 hdue
  simp [execSendAckTimeout, next, hi, hfree, hst, hheld, hstep, hwait, harm]

theorem execFabricCopyAckTimeout_of_due (hi : s.inst? p n = some i) (hfree : (s.part p).frozen = false) (hty : i.ty = 1)
    (hst : i.st = .running) (hacks : i.acks ≠ []) (hdue : i.sentAt + 50000 ≤ (s.part p).count) :
    execFabricCopyAckTimeout p n s =
      .next (copyFail ((dropTxns s p n).modInst p n fun j => { j with acks := [] }) p n 0) := by
  have hwait : ¬(s.part p).count < i.sentAt + us 2000 := Nat.not_lt.2 hdue
  simp [execFabricCopyAckTimeout, next, hi, hfree, hty, hst, hacks, hwait]

end

section
variable {s : State}

/-- A cycle loses a node only where the check before saw it too (R541). -/
theorem execDeadlockCheck_of_unseen (h : ∀ c ∈ findCycles s, c ∉ s.cycles) :
    execDeadlockCheck s = .next { s with cycles := findCycles s } := by
  have hseen : (findCycles s).filter s.cycles.contains = [] := List.filter_eq_nil_iff.2 (by simpa using h)
  simp [execDeadlockCheck, next, hseen]

theorem execDeadlockCheck_of_repeated {c : List Nat} {p n : Nat} {i : Inst} (hone : findCycles s = [c]) (hseen : c ∈ s.cycles)
    (hyoungest : youngest s c = some (p, n)) (hi : s.inst? p n = some i) :
    execDeadlockCheck s = .next { failNode s p n 0x3284 i.data with cycles := [c] } := by
  simp [execDeadlockCheck, next, hone, hseen, hyoungest, hi, List.eraseDups_cons]

end

/-- Settles O29: each of the timeouts acts on the node that meets its condition, and the check on the one cycle it saw twice. -/
theorem timeoutsErrorsAndDeadlocks : Obligations.TimeoutsErrorsAndDeadlocks := by
  unfold Obligations.TimeoutsErrorsAndDeadlocks
  exact ⟨fun s p n i hi hfree => ⟨execNodeBudget_of_overrun hi hfree, execNodeIo_of_running hi hfree,
      execSendAckTimeout_of_due hi hfree, execFabricCopyAckTimeout_of_due hi hfree⟩,
    fun s => ⟨execDeadlockCheck_of_unseen, fun c p n i => execDeadlockCheck_of_repeated⟩⟩

end Sys2Proof.Machine
end

section
/-! PROOFS. Dispatch of KERNEL nodes and of SVU kernels (R480, R500 to R507, R605, R693 to R697). -/

namespace Sys2Proof.Machine

section
variable {s u v v0 : State} {p : Fin 8} {n : Nat} {i j : Inst}

/-! The kernel image (R505, R506; log entry 48). -/

/-- The image of a kernel: the one loaded ahead, else read now. -/
theorem withImage_of_reads {image : List Nat}
    (h : (loadedImage v0 p n j = some image ∧ v = v0) ∨ (loadedImage v0 p n j = none ∧
      ∃ ib, NodeReads v0 p n j j.imageAddr (8 * j.imageWords) ib v ∧ image = words64 j.imageWords ib))
    (k : State → List Nat → State) : withImage v0 p n j k = k v image := by
  rcases h with ⟨hloaded, rfl⟩ | ⟨hloaded, ib, hread, rfl⟩
  · simp only [withImage, hloaded]
  · simp only [withImage, hloaded, nodeRead_of_reads hread]

/-- A kernel whose image begins with five SLI words and whose slots are valid starts on its tiles (R260, R384, R502 to R505). -/
theorem kernelGo_of_passes {args image : List Nat}
    (himage : (loadedImage v0 p n j = some image ∧ v = v0) ∨ (loadedImage v0 p n j = none ∧
      ∃ ib, NodeReads v0 p n j j.imageAddr (8 * j.imageWords) ib v ∧ image = words64 j.imageWords ib))
    (hsli : (image.take 5).all (fun w => opcodeOf w == 3) = true) (hcb : cbMissing (v.cp j.ctx p) j.cbMask = none)
    (hsfu : sfuMissing (v.cp j.ctx p) j.bank j.mpMask = none) :
    kernelGo v0 p n j args = startTiles (takeRefs (v.modInst p n fun k => { k with
      image, args := if bitOf (wd j.words 6) 29 then args.take 3 ++ [j.iter % 2 ^ 32] else args }) p n j) p n := by
  have hany : ¬((image.take 5).any fun w => opcodeOf w != 3) = true := by
    rw [List.any_eq_true]
    rintro ⟨w, hw, hne⟩
    have heq := List.all_eq_true.1 hsli w hw
    simp_all
  rw [kernelGo, withImage_of_reads himage, if_neg hany]
  simp only [hcb, hsfu]

/-! KERNEL_DISPATCH (R500 to R506). -/

theorem execKernelDispatch_of_rerun (h : Dispatches s p n i u j) (hty : i.ty = 0) (hsvu : bitOf (wd i.words 6) 31 = false)
    (hrefs : j.refs = true) (hheld : Unheld s (traced (startTiles u p n) p n i)) :
    execKernelDispatch p n s = .next (traced (startTiles u p n) p n i) := by
  rw [execKernelDispatch, dispatchNode_of_dispatches h (by simp [hty, hsvu]), if_pos hrefs]
  exact congrArg _ (gate_unheld hheld)

/-- The arguments of a first dispatch: the four words of the node, or those of the record that it names (R503). -/
abbrev KernelArgs (u : State) (p : Fin 8) (n : Nat) (j : Inst) (args : List Nat) (v0 : State) : Prop :=
  (bitOf (wd j.words 6) 30 = false ∧ args = (List.range 4).map (fun k => wd j.words (10 + k)) ∧ v0 = u) ∨
    (bitOf (wd j.words 6) 30 = true ∧ namedRange u p j (wd64 j.words 10) 16 false = .ok ∧
      ∃ rb, NodeReads u p n j (wd64 j.words 10) 16 rb v0 ∧ args = bytesWords 4 rb)

/-- A first dispatch goes on with its arguments. -/
theorem execKernelDispatch_of_first {args : List Nat} {t : State} (h : Dispatches s p n i u j) (hty : i.ty = 0)
    (hsvu : bitOf (wd i.words 6) 31 = false) (hrefs : j.refs = false) (hgood : kernelBad j = false)
    (hrange : namedRange u p j j.imageAddr (8 * j.imageWords) false = .ok) (hargs : KernelArgs u p n j args v0)
    (ht : kernelGo v0 p n j args = t) (hheld : Unheld s (traced t p n i)) : execKernelDispatch p n s = .next (traced t p n i) := by
  subst ht
  rw [execKernelDispatch, dispatchNode_of_dispatches h (by simp [hty, hsvu]), if_neg (by simp [hrefs]), if_neg (by simp [hgood])]
  rcases hargs with ⟨hdirect, rfl, rfl⟩ | ⟨hindirect, hrec, rb, hread, rfl⟩
  · rw [withRanges_of_ok (by simp [hdirect, hrange]), if_neg (by simp [hdirect])]
    exact congrArg _ (gate_unheld hheld)
  · rw [withRanges_of_ok (by simp [hindirect, hrange, hrec]), if_pos hindirect, nodeRead_of_reads hread]
    exact congrArg _ (gate_unheld hheld)

/-! KERNEL_IMAGE_LOAD_DONE (R505). -/

theorem execKernelImageLoadDone_of_read {m : List PByte} (hi : s.inst? p n = some i) (hty : i.ty = 0) (hsvu : i.svu = false)
    (hrefs : i.refs = false) (hst : i.st = .waiting ∨ i.st = .ready) (hgood : kernelBad i = false) (hfree : (s.part p).frozen = false)
    (hopen : closedHbm s p i.ctx (s.ctx i.ctx).mapVer i.imageAddr (8 * i.imageWords) n = none)
    (hread : readHbm s p i.ctx (s.ctx i.ctx).mapVer i.imageAddr (8 * i.imageWords) 18 = .ok (m, v)) (hclean : m.any (·.2) = false)
    (hheld : Unheld s (i.tiles.foldl (fun s t => s.setTile p t
        { (s.tile p t).setWords (1 - (s.tile p t).half) (words64 i.imageWords (m.map (·.1))) with loaded := some n }) v)) :
    execKernelImageLoadDone p n s = .next (i.tiles.foldl (fun s t => s.setTile p t
        { (s.tile p t).setWords (1 - (s.tile p t).half) (words64 i.imageWords (m.map (·.1))) with loaded := some n }) v) := by
  have hwait : (i.st == .waiting || i.st == .ready) = true := by simpa using hst
  simp only [execKernelImageLoadDone, hi, hty, hsvu, hrefs, hwait, hgood, hfree, hopen, hread, hclean]
  exact congrArg _ (gate_unheld hheld)

/-! SVU_KERNEL_DISPATCH (R480, R507, R693 to R697). -/

theorem execSvuKernelDispatch_of_rerun (h : Dispatches s p n i u j) (hsvu : i.svu = true) (hdesc : j.svuDesc ≠ [])
    (hheld : Unheld s (traced (svuStart u p n j.svuDesc j.svuLayer j.svuHp j.svuTot) p n i)) :
    execSvuKernelDispatch p n s = .next (traced (svuStart u p n j.svuDesc j.svuLayer j.svuHp j.svuTot) p n i) := by
  rw [execSvuKernelDispatch, dispatchNode_of_dispatches h hsvu, if_pos hdesc]
  exact congrArg _ (gate_unheld hheld)

/-- A first dispatch goes by the kind of its descriptor. -/
theorem execSvuKernelDispatch_of_first {db : List Byte} (h : Dispatches s p n i u j) (hsvu : i.svu = true) (hdesc : j.svuDesc = [])
    (h6 : bitsOf (wd j.words 6) 28 0 = 0) (h7 : wd j.words 7 = 0) (h14 : bitsOf (wd j.words 14) 31 13 = 0) (h15 : wd j.words 15 = 0)
    (hrange : namedRange u p j j.imageAddr 64 false = .ok) (hread : NodeReads u p n j j.imageAddr 64 db v)
    (hgood : svuDescBad (bytesWords 16 db) = false) {t : State}
    (ht : (if svuIsLayer (bytesWords 16 db) then layerStart v p n j (bytesWords 16 db) else streamStart v p n j (bytesWords 16 db)) = t)
    (hheld : Unheld s (traced t p n i)) : execSvuKernelDispatch p n s = .next (traced t p n i) := by
  subst ht
  rw [execSvuKernelDispatch, dispatchNode_of_dispatches h hsvu, if_neg (by simp [hdesc]), if_neg (by simp [h6, h7, h14, h15]),
    withRanges_of_ok (by simpa using hrange), nodeRead_of_reads hread]
  simp only [hgood, Bool.false_eq_true, if_false]
  exact congrArg _ (gate_unheld hheld)

theorem streamStart_of_passes {d : List Nat} {m : List PByte} {w : State} (hranges : ∀ r ∈ streamRanges v p j d, r = .ok)
    (hgood : streamBad v p j d = false) (hopen : closedHbm v p j.ctx j.mapVer (addr48 d 2) 64 n = none)
    (hread : readHbm v p j.ctx j.mapVer (addr48 d 2) 64 16 = .ok (m, w)) (hclean : m.any (·.2) = false) :
    streamStart v p n j d = svuStart w p n d [] (bytesWords 16 (m.map (·.1))) [] := by
  have hnone : (streamRanges v p j d).find? (· != .ok) = none := List.find?_eq_none.2 fun r hr => by simp [hranges r hr]
  simp [streamStart, hnone, hgood, hopen, hread, hclean]

theorem layerStart_of_passes {d : List Nat} {m h : List PByte} {w w2 w3 : State} {tot : List Nat}
    (hopen : closedHbm v p j.ctx j.mapVer (addr48 d 4) 64 n = none)
    (hread : readHbm v p j.ctx j.mapVer (addr48 d 4) 64 16 = .ok (m, w)) (hclean : m.any (·.2) = false)
    (hgood : lyFault w p j.ctx j.mapVer (bytesWords 16 (m.map (·.1))) = false)
    (hflip : bitOf (wd d 0) 29 = true → checkRange w p j.ctx j.mapVer (addr48 d 4) 8 true = none)
    (hstat : closedHbm w p j.ctx j.mapVer (lyStat (bytesWords 16 (m.map (·.1)))) (49152 * lyChunks (bytesWords 16 (m.map (·.1)))) n =
      none)
    (hhp : closedHbm w p j.ctx j.mapVer (lyHp (bytesWords 16 (m.map (·.1)))) 64 n = none)
    (htot : layerTotals w p j (bytesWords 16 (m.map (·.1))) = .ok (some tot, w2))
    (hparams : readHbm w2 p j.ctx j.mapVer (lyHp (bytesWords 16 (m.map (·.1)))) 64 16 = .ok (h, w3)) (hwell : h.any (·.2) = false) :
    layerStart v p n j d = svuStart w3 p n d (bytesWords 16 (m.map (·.1))) (bytesWords 16 (h.map (·.1))) tot := by
  have hrange : (bitOf (wd d 0) 29 && (checkRange w p j.ctx j.mapVer (addr48 d 4) 8 true).isSome) = false := by
    cases hb : bitOf (wd d 0) 29 with
    | false => rfl
    | true => simp [hflip hb]
  simp only [layerStart, hopen, hread, hclean, hgood, hrange, hstat, hhp, htot, hparams, hwell, Option.isSome_none, Bool.or_self,
    Bool.false_eq_true, if_false]

end

/-- Settles O23: each dispatch that passes its checks starts its kernel; taking an image loaded ahead is the model's reading (DEDUCED, log
entry 48). -/
theorem kernelsDispatch : Obligations.KernelsDispatch := by
  unfold Obligations.KernelsDispatch
  refine ⟨fun s u p n i j h hty hsvu => ⟨fun hrefs => ?rerun, fun args image v0 v hrefs hgood hrange hargs himage => ?first⟩,
    fun s p n i => ⟨fun m v hi hty hsvu hrefs hst hgood hfree hopen hread hclean => ?image,
      fun u j h hsvu => ⟨execSvuKernelDispatch_of_rerun h hsvu, fun db v hdesc h6 h7 h14 h15 hrange hread => ?svu⟩⟩⟩
  case rerun => exact execKernelDispatch_of_rerun h hty hsvu hrefs
  case first =>
    intro args' hsli hcb hsfu
    exact execKernelDispatch_of_first h hty hsvu hrefs hgood hrange hargs (kernelGo_of_passes himage hsli hcb hsfu)
  case image => exact execKernelImageLoadDone_of_read hi hty hsvu hrefs hst hgood hfree hopen hread hclean
  case svu =>
    intro d hdgood
    have hfirst := fun t => execSvuKernelDispatch_of_first (t := t) h hsvu hdesc h6 h7 h14 h15 hrange hread hdgood
    refine ⟨fun m w hkind hranges hgood hopen hmread hclean => hfirst _ ?stream,
      fun m hp w w2 w3 tot hkind hopen hmread hclean => ?layer⟩
    case stream => exact (if_neg (by simp [d, hkind])).trans (streamStart_of_passes hranges hgood hopen hmread hclean)
    case layer =>
      intro l hgood hflip hstat hhp htot hparams hwell
      exact hfirst _ ((if_pos hkind).trans (layerStart_of_passes hopen hmread hclean hgood hflip hstat hhp htot hparams hwell))

end Sys2Proof.Machine
end

section
/-! PROOFS. A DMA COPY between two scratchpads (R209, R220): its bytes land piece by piece, line by line. -/

namespace Sys2Proof.Machine

/-! The pieces of a transfer, one in each 64-byte line that it touches. -/

theorem mem_linesOf {a n l : Nat} : l ∈ linesOf a n ↔ n ≠ 0 ∧ a / 64 ≤ l ∧ l ≤ (a + n - 1) / 64 := by
  unfold linesOf
  split
  · simp_all
  · simp only [List.mem_map, List.mem_range]
    constructor
    · rintro ⟨k, hk, rfl⟩
      omega
    · rintro ⟨-, hlo, hhi⟩
      exact ⟨l - a / 64, by omega, by omega⟩

/-- Every piece lies inside the transfer. -/
theorem pieces_inside {a n : Nat} {x : Nat × Nat} (hx : x ∈ pieces a n) : a ≤ x.1 ∧ x.1 + x.2 ≤ a + n := by
  obtain ⟨l, hl, rfl⟩ := List.mem_map.1 hx
  rw [mem_linesOf] at hl
  dsimp only
  omega

/-- The pieces cover the transfer. -/
theorem exists_piece_iff {a n b : Nat} : (∃ x ∈ pieces a n, x.1 ≤ b ∧ b < x.1 + x.2) ↔ a ≤ b ∧ b < a + n := by
  constructor
  · rintro ⟨x, hx, hlo, hhi⟩
    have := pieces_inside hx
    omega
  · rintro ⟨hlo, hhi⟩
    refine ⟨_, List.mem_map.2 ⟨b / 64, mem_linesOf.2 ⟨by omega, by omega, by omega⟩, rfl⟩, ?_, ?_⟩ <;> dsimp only <;> omega

/-! Bytes of a marked write. -/

/-- One piece of a write: inside it the bytes are those of the transfer. -/
theorem memByte_write_piece {d : Spad} (h : d.bytes.wf = true) {a : Nat} {bs : List PByte} {x : Nat × Nat} (hlo : a ≤ x.1)
    (hhi : x.1 + x.2 ≤ a + bs.length) (poisoned : Bool) (b : Nat) :
    memByte (d.write x.1 (((bs.drop (x.1 - a)).take x.2).map (·.1)) poisoned).bytes b =
      if x.1 ≤ b ∧ b < x.1 + x.2 then (bs.map (·.1)).getD (b - a) 0 else memByte d.bytes b := by
  rw [Spad.bytes_write, memByte_memWrite h]
  by_cases hin : x.1 ≤ b ∧ b < x.1 + x.2
  · have hidx : x.1 - a + (b - x.1) = b - a := by omega
    have hlt : b - a < bs.length := by omega
    rw [if_pos hin.1, if_pos hin]
    simp [List.getElem?_drop, show b - x.1 < x.2 by omega, hidx, hlt]
  · rw [if_neg hin]
    split
    · rw [List.getD_eq_default _ _ (by simp; omega)]
    · rfl

/-- Pieces of one transfer written in turn: each byte that one of them holds is that of the transfer, any other is as before. -/
theorem memByte_foldl_write {a : Nat} {bs : List PByte} (ps : List (Nat × Nat)) (hin : ∀ x ∈ ps, a ≤ x.1 ∧ x.1 + x.2 ≤ a + bs.length)
    {d : Spad} (h : d.bytes.wf = true) (b : Nat) :
    memByte (ps.foldl (fun d x => d.write x.1 (clean ((bs.drop (x.1 - a)).take x.2)).1 (clean ((bs.drop (x.1 - a)).take x.2)).2) d).bytes b
      = if ∃ x ∈ ps, x.1 ≤ b ∧ b < x.1 + x.2 then (bs.map (·.1)).getD (b - a) 0 else memByte d.bytes b := by
  induction ps generalizing d with
  | nil => simp
  | cons x xs ih =>
    obtain ⟨hx, hxs⟩ := List.forall_mem_cons.1 hin
    rw [List.foldl_cons, ih hxs (by rw [Spad.bytes_write]; exact memWrite_wf h _ _), clean, memByte_write_piece h hx.1 hx.2]
    by_cases hrest : ∃ y ∈ xs, y.1 ≤ b ∧ b < y.1 + y.2
    · rw [if_pos hrest, if_pos ((List.exists_mem_cons_iff _ _ _).2 (.inr hrest))]
    · rw [if_neg hrest]
      exact if_congr (by rw [List.exists_mem_cons_iff, or_iff_left hrest]) rfl rfl

theorem Spad.memByte_writeMarked {d : Spad} (h : d.bytes.wf = true) (a : Nat) (bs : List PByte) (b : Nat) :
    memByte (d.writeMarked a bs).bytes b =
      if a ≤ b ∧ b < a + bs.length then (bs.map (·.1)).getD (b - a) 0 else memByte d.bytes b := by
  rw [Spad.writeMarked, memByte_foldl_write _ (fun x hx => pieces_inside hx) h]
  simp only [exists_piece_iff]

/-! One row between two scratchpads. -/

section
variable {s : State} {w : Who} {ss ds sa da n : Nat}

theorem dmaRead_of_readable {toHbm : Bool} (hss : ss ≠ 0) (hin : sa + n ≤ Spc.size (spaceOf ss))
    (hgood : ((s.tile w.p w.t).spad (spaceOf ss)).readErr sa n = none) :
    dmaRead w s ss sa n toHbm = (⟨s, none⟩, good (memRead ((s.tile w.p w.t).spad (spaceOf ss)).bytes sa n)) := by
  simp [dmaRead, hss, Nat.not_lt.2 hin, hgood]

/-- Lines that the tile held well when the descriptor began are no obstacle to a merge. -/
theorem Who.mergeErr_eq_none {x : Tile} {sp : Spc} {a : Nat} (hold : (w.old.spad sp).mergeErr a n = none) : w.mergeErr x sp a n = none := by
  rw [Spad.mergeErr, List.findSome?_eq_none_iff] at hold
  rw [Who.mergeErr, List.findSome?_eq_none_iff]
  intro l hl
  simp only [List.mem_filter, Bool.and_eq_true] at hl
  rw [hold l (List.mem_filter.2 ⟨hl.1, hl.2.1⟩), Option.map_none]

theorem dmaWrite_of_mergeable {bs : List PByte} (hds : ds ≠ 0) (hin : da + bs.length ≤ Spc.size (spaceOf ds))
    (hgood : (w.old.spad (spaceOf ds)).mergeErr da bs.length = none) :
    dmaWrite w s ds da bs = ⟨s.setTile w.p w.t ((s.tile w.p w.t).setSpad (spaceOf ds)
      (((s.tile w.p w.t).spad (spaceOf ds)).writeMarked da bs)), none⟩ := by
  simp [dmaWrite, hds, Nat.not_lt.2 hin, Who.mergeErr_eq_none hgood]

theorem length_good_memRead (m : Mem) (a k : Nat) : (good (memRead m a k)).length = k := by simp [good, memRead]

/-- A row that reads well and may be written is copied as it stands. -/
theorem dmaRow_of_copy (hss : ss ≠ 0) (hds : ds ≠ 0) (hsin : sa + n ≤ Spc.size (spaceOf ss)) (hdin : da + n ≤ Spc.size (spaceOf ds))
    (hread : ((s.tile w.p w.t).spad (spaceOf ss)).readErr sa n = none) (hmerge : (w.old.spad (spaceOf ds)).mergeErr da n = none) :
    dmaRow w s ss sa ds da n (fun _ bs => some bs) = ⟨s.setTile w.p w.t ((s.tile w.p w.t).setSpad (spaceOf ds)
      (((s.tile w.p w.t).spad (spaceOf ds)).writeMarked da (good (memRead ((s.tile w.p w.t).spad (spaceOf ss)).bytes sa n)))), none⟩ := by
  rw [dmaRow, dmaRead_of_readable hss hsin hread]
  dsimp only
  rw [if_pos (length_good_memRead _ _ _), dmaWrite_of_mergeable hds (by rwa [length_good_memRead]) (by rwa [length_good_memRead]), Mv.orErr]

end

/-- Settles O19: the row is read as it stands and written piece by piece, and each byte of the destination lies in one piece. -/
theorem dmaCopyMovesRow : Obligations.DmaCopyMovesRow := by
  unfold Obligations.DmaCopyMovesRow
  intro s p t r d so dof ss ds x sa da hop hss hds hss1 hss3 hds1 hds3 hne hcount hrow hsin hdin hread hmerge hwf
  have hmove : dmaMove ⟨p, t, r, x⟩ s (.desc d so dof) = ⟨s.setTile p t (x.setSpad (spaceOf ds) ((x.spad (spaceOf ds)).writeMarked da
      (good (memRead (x.spad (spaceOf ss)).bytes sa (dRow d))))), none⟩ := by
    simp only [dmaMove, hop, dmaRows, hcount, Mv.each, Mv.bind, hss, hds, Nat.zero_mul, Nat.add_zero]
    exact dmaRow_of_copy (w := ⟨p, t, r, x⟩) (by omega) (by omega) hsin hdin hread hmerge
  refine ⟨_, hmove, fun b => ?bytes, fun q hq => ?others⟩
  case bytes =>
    rw [State.tile_setTile, Tile.spad_setSpad, Spad.memByte_writeMarked hwf, length_good_memRead]
    split_ifs with hb
    · have hlt : b - da < dRow d := by omega
      simp [good, memRead, hlt]
    · rfl
  case others => rw [State.tile_setTile, Tile.spad_setSpad_ne _ _ hq]

end Sys2Proof.Machine
end

section
/-! PROOFS. Debug and attestation messages (R1051 to R1059). -/

namespace Sys2Proof.Machine

section
variable {s u : State} {k : Fin 9} {r : Req} {l : Nat}

/-! The debug challenge and what answers it (R1055 to R1057). -/

theorem execDebugChallenge_of_asked (hl : bitsOf (wd r.payload 0) 1 0 = l) (h : Asked s k 0x0901 r u) (hres : NoBits r [0xFFFFFFFC])
    (h0 : l ≠ 0) (h3 : l ≠ 3) : execDebugChallenge k s = .next (okReply { u with
      sec := { u.sec with chal := some { level := l, nonce := freeBytes32 u.free, expires := u.hub + 15000000000 } }, free := u.free + 1 }
      k r (bytesWords 14 (challengeBytes u.sec.serial { level := l, nonce := freeBytes32 u.free, expires := u.hub + 15000000000 }))) := by
  subst hl
  rw [execDebugChallenge, runOp_asked h, next]
  exact congrArg _ (checked_go (firstBad_reserved _ hres <| firstBad_cons (by simp [h0, h3]) firstBad_nil))

/-- Expiry of a challenge kills it. -/
theorem execDebugChallengeExpiry_of_due {c : Challenge} (hc : s.sec.chal = some c) (hdue : c.expires ≤ s.hub) :
    execDebugChallengeExpiry s = .next { s with sec := { s.sec with chal := none } } := by
  simp [execDebugChallengeExpiry, next, hc, hdue]

/-- Level 0 locks. -/
theorem execDebugUnlock_of_lock (hl : bitsOf (wd r.payload 0) 1 0 = 0) (token : HostRd) (h : Asked s k 0x0902 r u)
    (hres : NoBits r [0xFFFFFFFC, 0xFFFFFFFF]) (h2 : wd r.payload 2 = 0) (h3 : wd r.payload 3 = 0) :
    execDebugUnlock k token s = .next (okReply (setDebug { u with sec := { u.sec with chal := none } } 0) k r []) := by
  rw [execDebugUnlock, runOp_asked h, next]
  exact congrArg _ ((checked_go (firstBad_reserved _ hres <| firstBad_cons (by simp [hl]) <| firstBad_cons (by simp [h2]) <|
    firstBad_cons (by simp [h3]) firstBad_nil)).trans (if_pos hl))

/-- Level 2 fails while a context lives. -/
theorem execDebugUnlock_of_contexts (hl : bitsOf (wd r.payload 0) 1 0 = 2) (token : HostRd) (h : Asked s k 0x0902 r u)
    (hres : NoBits r [0xFFFFFFFC, 0xFFFFFFFF]) (hlive : liveCtxs u ≠ []) :
    execDebugUnlock k token s = .next (unlockFails u k r 2 0x0922) := by
  rw [execDebugUnlock, runOp_asked h, next]
  simp only [hl]
  exact congrArg _ ((checked_go (firstBad_reserved _ hres <| firstBad_cons rfl <| firstBad_cons rfl <|
    firstBad_cons rfl firstBad_nil)).trans ((if_neg (by decide)).trans (if_pos (by simpa using hlive))))

/-- A token for level 1 or 2 is judged against the challenge and then by its signature. -/
theorem execDebugUnlock_of_token {t : List Byte} {c : Challenge} (hl : bitsOf (wd r.payload 0) 1 0 = l) (h : Asked s k 0x0902 r u)
    (hres : NoBits r [0xFFFFFFFC, 0xFFFFFFFF]) (h3 : l ≠ 3) (h0 : l ≠ 0) (hlive : l = 2 → liveCtxs u = []) (hc : u.sec.chal = some c) :
    execDebugUnlock k (.data t) s = .next
      (if !(c.level == l && u.hub < c.expires && t.take 56 == challengeBytes u.sec.serial c) then unlockFails u k r l 0x0920
       else if !(Config.sha256 ((t.drop 56).take 32) == u.sec.dbgDigest &&
           Config.slhVerify ((t.drop 56).take 32) (t.take 56) ((t.drop 88).take 7856)) then unlockFails u k r l 0x0921
       else unlockOk u k r l (t.take 56)) := by
  subst hl
  have hfree : ¬(decide (bitsOf (wd r.payload 0) 1 0 = 2) && liveCtxs u != []) = true := by simpa using hlive
  rw [execDebugUnlock, runOp_asked h, next]
  simp only [hc]
  exact congrArg _ ((checked_go (firstBad_reserved _ hres <| firstBad_cons (by simp [h3]) <| firstBad_cons (by simp [h0]) <|
    firstBad_cons (by simp [h0]) firstBad_nil)).trans ((if_neg h0).trans (if_neg hfree)))

/-! Quotes and the certificate chain (R1051 to R1054). -/

theorem execAttestQuote_of_asked (h : Asked s k 0x0903 r u) (hgood : firstBad (quoteChecks r) = none)
    (hquote : bitsOf (wd r.payload 0) 31 30 = 0) (hroom : 17472 ≤ wd r.payload 12) :
    execAttestQuote k s = .next { longOp u k r [] 0 0 with
      quotes := tabSet u.quotes u.nextOp ⟨u.nextOp, quoteBody u r.ctx (wordsBytes ((r.payload.drop 2).take 8)), wd64 r.payload 10⟩ } := by
  rw [execAttestQuote, runMsg_asked h _ (by simp [hquote]), next]
  exact congrArg _ (checked_go (firstBad_append hgood (firstBad_cons (decide_eq_false (Nat.not_lt.2 hroom)) firstBad_nil)))

theorem execAttestCertChain_of_asked (h : Asked s k 0x0903 r u) (hgood : firstBad (quoteChecks r) = none)
    (hchain : bitsOf (wd r.payload 0) 31 30 = 1) (hroom : (certChain u).length ≤ wd r.payload 12) :
    execAttestCertChain k s =
      .next (okReply (u.post r.ctx (wd64 r.payload 10) (certChain u) false) k r [(certChain u).length]) := by
  rw [execAttestCertChain, runMsg_asked h _ (by simp [hchain]), next]
  exact congrArg _ (checked_go (firstBad_append hgood (firstBad_cons (by simpa using hroom) firstBad_nil)))

/-- A quote that is done is written, signed, where the request asked. -/
theorem execAttestQuoteDone_of_taken {n : Nat} {q : QuoteOp} {o : LongOp} (hq : tabFind s.quotes n = some q)
    (ho : tabFind s.ops q.op = some o) : execAttestQuoteDone n s = .next (endOp
      (State.post { s with quotes := tabDel s.quotes n } o.ctx q.addr (q.body ++ Config.slhSign q.body) false) q.op 0 [quoteSize]) := by
  simp [execAttestQuoteDone, next, hq, ho]

end

/-- Settles O44: each message whose checks pass has its one effect left; an unlock is decided by the level, the live contexts, the
challenge and the signature, in this order. -/
theorem debugAndAttestation : Obligations.DebugAndAttestation := by
  unfold Obligations.DebugAndAttestation
  refine fun s u k r => ⟨execDebugChallenge_of_asked rfl, fun token h hres h3 => ⟨fun hl => execDebugUnlock_of_lock hl token h hres,
      fun hl hlive => ?contexts, fun t c h0 hlive htok hc => ?token⟩,
    fun c => execDebugChallengeExpiry_of_due, fun h hgood => ⟨execAttestQuote_of_asked h hgood, execAttestCertChain_of_asked h hgood⟩,
    fun n q o => execAttestQuoteDone_of_taken⟩
  case contexts =>
    rw [hl]
    exact execDebugUnlock_of_contexts hl token h hres hlive
  case token =>
    subst htok
    have hstep := execDebugUnlock_of_token (t := t) rfl h hres h3 h0 hlive hc
    refine ⟨fun hans => hstep.trans (congrArg _ ?good), fun hans => hstep.trans (congrArg _ (if_pos ?bad))⟩
    case good =>
      obtain ⟨hlevel, htime, hmsg⟩ := hans
      rw [if_neg (by simp [hlevel, htime, hmsg])]
      by_cases hsig : Config.sha256 ((t.drop 56).take 32) = u.sec.dbgDigest ∧
          Config.slhVerify ((t.drop 56).take 32) (t.take 56) ((t.drop 88).take 7856) = true
      · rw [if_pos hsig, if_neg (by simp [hsig])]
      · rw [if_neg hsig, if_pos (by rw [Bool.not_eq_true', ← Bool.not_eq_true]; simpa using hsig)]
    case bad =>
      rw [Bool.not_eq_true', ← Bool.not_eq_true]
      simpa [and_assoc] using hans

end Sys2Proof.Machine
end

section
/-! PROOFS. Service messages (R987, R1004 to R1006, R1016, R1017, R1030) and the messages of test mode
(R924 to R928): a message whose checks pass has only its effect left. -/

namespace Sys2Proof.Machine

section
variable {s u : State} {k : Fin 9} {r : Req} {ps : List Nat}

/-! The log and the escalation limits (R1016, R1030, R1031). -/

/-- Function 0 sees every record. -/
theorem logVisible_zero (u : State) (l : List LogRec) : logVisible u 0 l = l := List.filter_eq_self.2 fun _ _ => rfl

theorem execLogRead_of_area {area : Nat} {o : LogRec} (harea : bitsOf (wd r.payload 0) 1 0 = area) (h : Asked s k 0x0801 r u)
    (hres : NoBits r [0xFFFFFFFC, 0, 0]) (hleast : 1 ≤ wd r.payload 2) (hmost : wd r.payload 2 ≤ 127) (hlow : area ≤ 1)
    (ho : (if area = 0 then u.log.general else u.log.fatal).getLast? = some o) :
    execLogRead k s = .next (okReply u k r
      ([((logVisible u k ((if area = 0 then u.log.general else u.log.fatal).reverse.filter fun x =>
          seqFrom (wd r.payload 1) x.seq)).take (wd r.payload 2)).length, if area = 0 then u.log.genSeq else u.log.fatSeq, o.seq, 0] ++
        ((logVisible u k ((if area = 0 then u.log.general else u.log.fatal).reverse.filter fun x =>
          seqFrom (wd r.payload 1) x.seq)).take (wd r.payload 2)).flatMap logRecWords)) := by
  subst harea
  have hcount : (wd r.payload 2 == 0 || decide (127 < wd r.payload 2)) = false := by simp; omega
  rw [execLogRead, runOp_asked h, next]
  refine congrArg _ ((checked_go (firstBad_reserved _ hres <| firstBad_cons (by simp; omega) <| firstBad_cons hcount <|
    firstBad_cons (by simp; omega) firstBad_nil)).trans ((if_neg (by omega)).trans ?_))
  simp only [ho]

/-- A slot of the flash copy is given whole to function 0. -/
theorem execLogRead_of_slot (hk : (k : Nat) = 0) (h : Asked s k 0x0801 r u) (hres : NoBits r [0xFFFFFFFC, 0, 0])
    (hleast : 1 ≤ wd r.payload 2) (hmost : wd r.payload 2 ≤ 127) (harea : bitsOf (wd r.payload 0) 1 0 = 2)
    (hslot : wd r.payload 1 < 256) :
    execLogRead k s = .next (okReply { u with free := u.free + 2 } k r ([127, Config.freeNat u.free % 2 ^ 32,
      Config.freeNat (u.free + 1) % 2 ^ 32, 0] ++ (tabGet {} u.flashFatal (wd r.payload 1)).recs.flatMap logRecWords ++
        List.replicate (8 * (127 - (tabGet {} u.flashFatal (wd r.payload 1)).recs.length)) 0)) := by
  obtain rfl : k = 0 := Fin.ext hk
  have hcount : (wd r.payload 2 == 0 || decide (127 < wd r.payload 2)) = false := by simp; omega
  rw [execLogRead, runOp_asked h, next]
  refine congrArg _ ((checked_go (firstBad_reserved _ hres <| firstBad_cons (by simp [harea]) <| firstBad_cons hcount <|
    firstBad_cons (by simpa [harea] using hslot) firstBad_nil)).trans ((if_pos harea).trans ?_))
  simp only [Fin.val_zero, logVisible_zero, if_true]
  rfl

theorem execEscalationSet_of_asked {a b c d : Nat} (ha : bitsOf (wd r.payload 0) 31 24 = a) (hb : bitsOf (wd r.payload 0) 23 16 = b)
    (hc : bitsOf (wd r.payload 0) 15 8 = c) (hd : bitsOf (wd r.payload 0) 7 0 = d) (h : Asked s k 0x0802 r u)
    (hres : NoBits r [0, 0xFFFFFFFE]) (ha2 : 2 ≤ a) (ha10 : a ≤ 10) (hb1 : 1 ≤ b) (hb60 : b ≤ 60) (hc3 : 3 ≤ c) (hc32 : c ≤ 32)
    (hd10 : 10 ≤ d) (hd240 : d ≤ 240) :
    execEscalationSet k s = .next (okReply (extendMr { u with escal := [a, b, c, d, bitsOf (wd r.payload 1) 0 0] } 3
      (Config.sha256 (wordsBytes r.payload))) k r []) := by
  subst ha hb hc hd
  rw [execEscalationSet, runOp_asked h, next]
  exact congrArg _ (checked_go (firstBad_reserved _ hres <| firstBad_cons (by simp; omega) firstBad_nil))

/-! Restore, reset, save and dump (R987, R1004 to R1006, R1017). -/

/-- Partitions that are out of service, and not in test, begin to come back. -/
theorem execServiceRestore_of_partitions (hps : maskParts (wd r.payload 0 % 256) = ps) (h : Asked s k 0x0803 r u)
    (hres : NoBits r [0x7FFFFF00]) (hmodule : bitOf (wd r.payload 0) 31 = false) (hsome : ps ≠ [])
    (hout : ∀ p ∈ ps, u.offDuty p = true ∧ (u.part p).inTest = false) :
    execServiceRestore k s = .next (ps.foldl (fun v p => restorePart v p u.nextOp) (longOp u k r ps 0 0)) := by
  subst hps
  rw [execServiceRestore, runOp_asked h, next]
  simp only [hmodule, Bool.false_eq_true, if_false]
  refine congrArg _ ((checked_go (firstBad_reserved _ hres <| firstBad_cons ?_ firstBad_nil)).trans (if_neg hsome))
  simpa using hout

/-- MODULE brings back the module's state and every partition. -/
theorem execServiceRestore_of_module (h : Asked s k 0x0803 r u) (hres : NoBits r [0x7FFFFF00])
    (hmodule : bitOf (wd r.payload 0) 31 = true) (hout : u.moduleOos = true) :
    execServiceRestore k s =
      .next (allParts.foldl (fun v p => restorePart v p u.nextOp) (longOp (clearModuleOos u) k r allParts 0 0)) := by
  rw [execServiceRestore, runOp_asked h, next]
  simp only [hmodule, if_true]
  exact congrArg _ ((checked_go (firstBad_reserved _ hres <| firstBad_cons (by simp [hout]) firstBad_nil)).trans
    (if_neg (by decide)))

theorem execPartitionReset_of_asked {p : Nat} (hp : bitsOf (wd r.payload 0) 18 16 = p) (h : Asked s k 0x0804 r u)
    (hres : NoBits r [0xFFF8FFFE]) (hduty : u.offDuty p = false) : execPartitionReset k s =
      .next (startReset (longOp u k r [] 0 0) p 0 false false (bitOf (wd r.payload 0) 0) false [u.nextOp]) := by
  subst hp
  rw [execPartitionReset, runOp_asked h, next]
  exact congrArg _ (checked_go (firstBad_reserved _ hres <| firstBad_cons hduty firstBad_nil))

/-- A save takes the dump of a partition in service and freezes it. -/
theorem execStateSave_of_asked {p : Nat} {clean : Bool} {v : State} (hp : bitsOf (wd r.payload 0) 18 16 = p) (h : Asked s k 0x0904 r u)
    (hidle : (s.part p).saveOp = none) (hres : NoBits r [0xFFF8FFFF]) (hserves : (u.part p).inService = true)
    (hv : v = takeDump (longOp u k r [p] 0 0) p true clean (allTiles.map fun t => (t, u.tile p t)) (u.part p).insts
      { kind := 1, ctxMask := instMask u p }) :
    execStateSave k clean s = .next (v.setPart p { v.part p with frozen := true, saveOp := some u.nextOp }) := by
  subst hp hv
  rw [execStateSave, runMsg_asked h _ (by simp [hidle]), next]
  exact congrArg _ (checked_go (firstBad_reserved _ hres <| firstBad_cons (by simp [hserves]) firstBad_nil))

/-- At debug level 2 a partition that has been saved stays frozen. -/
theorem execFullStateSaveDone_of_frozen {p : Fin 8} {o : Nat} (ho : (s.part p).saveOp = some o) (hlevel : s.dbgLevel = 2) :
    execFullStateSaveDone p s = .next (endOp (s.setPart p { s.part p with saveOp := none, frozen := true }) o 0
      (summaryWords (s.part p).dump)) := by
  simp [execFullStateSaveDone, next, ho, hlevel]

/-- Below it goes on, and runs again the nodes that it had stopped short of their commit point. -/
theorem execFullStateSaveDone_of_thawed {p : Fin 8} {o : Nat} (ho : (s.part p).saveOp = some o) (hlevel : s.dbgLevel ≠ 2) :
    execFullStateSaveDone p s = .next (endOp (thaw ((((s.part p).insts.filter fun e => stoppedShort e.2).map (·.1)).foldl
      (fun v n => preempt v p n) (s.setPart p { s.part p with saveOp := none, frozen := false })) p) o 0
      (summaryWords (s.part p).dump)) := by
  simp [execFullStateSaveDone, next, ho, hlevel, beq_false_of_ne hlevel]

/-- A valid dump is read into host memory, and zeroed where asked. -/
theorem execDuskDumpRead_of_asked {p : Nat} {d : Dump} {v : State} (hp : bitsOf (wd r.payload 0) 18 16 = p) (hd : (u.part p).dump = d)
    (hv : u.post r.ctx (wd64 r.payload 4) ((List.range (wd r.payload 2)).map fun i =>
      memByte (u.part d.holder).hbm.mem (dumpPlace p + wd r.payload 1 + i)) false = v) (h : Asked s k 0x0905 r u)
    (hres : NoBits r [0x7FF8FFFF, 0, 0, 0xFFFFFFFF]) (hoff : wd r.payload 1 % 4096 = 0) (hlen : wd r.payload 2 % 4096 = 0)
    (hmost : wd r.payload 2 ≤ 1048576) (hpos : 0 < wd r.payload 2) (hvalid : d.valid = true)
    (hin : wd r.payload 1 + wd r.payload 2 ≤ dumpSize) :
    execDuskDumpRead k s = .next (okReply (if bitOf (wd r.payload 0) 31 then
      clearDump (v.setPart p { v.part p with dump := { d with valid := false } }) p d.holder else v) k r (summaryWords d)) := by
  subst hp hd hv
  have hlength : (wd r.payload 2 % 4096 != 0 || decide (1048576 < wd r.payload 2)) = false := by simp [hlen, hmost]
  rw [execDuskDumpRead, runOp_asked h, next]
  refine congrArg _ ((checked_go (firstBad_reserved _ hres <| firstBad_cons (by simp [hoff]) <| firstBad_cons hlength <|
    firstBad_cons (by simp [hvalid]) <| firstBad_cons ?_ firstBad_nil)).trans ?_)
  · simp [hin]
  · simp only [if_neg (Nat.ne_of_gt hpos), hvalid, Bool.and_true]

/-! Test mode (R924, R926, R928). -/

theorem execTestModeEnter_of_asked (hps : maskParts (wd r.payload 0 % 256) = ps) (hres : NoBits r [0xFFFFFF00])
    (h : Asked s k 0x0A01 r u) (hreset : ∀ p ∈ ps, (s.part p).reset = none)
    (hfree : ∀ p ∈ ps, u.ctxsOn p = [] ∧ (u.part p).inTest = false ∧ (u.part p).testExit = none) :
    execTestModeEnter k s = .next (okReply (ps.foldl (fun v p => v.setPart p { v.part p with
      inService := false, inTest := true, dispHeld := true, act := 0, idleAt := none,
      hbm := { (v.part p).hbm with selfRefresh := true, wokenAt := none } }) u) k r []) := by
  subst hps
  have hnone : ∀ p ∈ maskParts (wd r.payload 0 % 256), (u.ctxsOn p != [] || (u.part p).inTest || (u.part p).testExit.isSome) = false :=
    fun p hp => by simp [hfree p hp]
  rw [execTestModeEnter, runMsg_asked h _ (by simpa using hreset), next]
  exact congrArg _ (checked_go (firstBad_reserved _ hres <| firstBad_cons (List.any_eq_false.2 fun p hp => by simp [hnone p hp])
    firstBad_nil))

theorem execTestModeExit_of_asked (hps : maskParts (wd r.payload 0 % 256) = ps) (hres : NoBits r [0xFFFFFF00])
    (h : Asked s k 0x0A02 r u) (hsome : ps ≠ []) (htest : ∀ p ∈ ps, (u.part p).inTest = true) :
    execTestModeExit k s = .next (ps.foldl (fun v p => leaveTest v p u.nextOp) (longOp u k r ps 0 0)) := by
  subst hps
  rw [execTestModeExit, runOp_asked h, next]
  exact congrArg _ ((checked_go (firstBad_reserved _ hres <| firstBad_cons (by simpa using htest) firstBad_nil)).trans (if_neg hsome))

end

/-- Settles O43: each message that passes its checks has its one effect left, in the state that its request leaves. -/
theorem serviceMessagesAct : Obligations.ServiceMessagesAct := by
  unfold Obligations.ServiceMessagesAct
  refine ⟨fun s u k r => ⟨fun h hres hleast hmost => ⟨fun o hlow => ?log, fun harea hslot hk =>
      execLogRead_of_slot hk h hres hleast hmost harea hslot⟩, execEscalationSet_of_asked rfl rfl rfl rfl,
    fun h hres => ⟨execServiceRestore_of_partitions rfl h hres, execServiceRestore_of_module h hres⟩, execPartitionReset_of_asked rfl,
    fun clean h hidle hres hserves => execStateSave_of_asked rfl h hidle hres hserves rfl,
    fun p o ho => ⟨execFullStateSaveDone_of_frozen ho, execFullStateSaveDone_of_thawed ho⟩, execDuskDumpRead_of_asked rfl rfl rfl⟩,
    fun s u k r => ⟨fun hres => ⟨execTestModeEnter_of_asked rfl hres, execTestModeExit_of_asked rfl hres⟩, ?clear⟩⟩
  case log =>
    intro held l ho
    exact execLogRead_of_area rfl h hres hleast hmost hlow ho
  case clear =>
    intro named h hres boot
    show execTrainingSavedClear k s = _
    rw [execTrainingSavedClear, runOp_asked h, next]
    exact congrArg _ (checked_go (firstBad_reserved _ hres firstBad_nil))

end Sys2Proof.Machine
end

section
/-! PROOFS. Firmware, plan and map records, sensors and the sideband (R834, R880 to R889, R900). -/

namespace Sys2Proof.Machine

section
variable {s : State}

/-! Records that arrive while the management controller runs. -/

/-- A bundle goes into the inactive bank, which becomes the active one where the bundle verifies. -/
theorem execFirmwareBundleUpdate_of_runs (hmc : s.mcRuns = true) (b : List Byte) {put : Sec} {u : State}
    (hput : put = if s.sec.activeB then { s.sec with bankA := b, badA := !bundleOk s.sec b }
      else { s.sec with bankB := b, badB := !bundleOk s.sec b })
    (hu : u = { s with fwUpdates := s.fwUpdates ++ [0x01], fwResults := s.fwResults ++ [bundleOk s.sec b] }) :
    execFirmwareBundleUpdate b s = .next (if bundleOk s.sec b then { u with sec := { put with activeB := !s.sec.activeB } }
      else logOrKeep { u with sec := put }
        { code := 0x12F7, data := [bunVersion b, bunKey b, s.sec.counters.foldl (fun a x => 256 * a + x) 0] }) := by
  subst hput hu
  exact congrArg _ (if_neg (by simp [hmc]))

/-- Before the management program runs, a plan that is written waits for the next bring-up. -/
theorem execCablingPlanWrite_of_unready (hmc : s.mcRuns = true) (b : List Byte) (hmcp : s.mcpReady = false) :
    execCablingPlanWrite b s =
      .next { s with fwUpdates := s.fwUpdates ++ [0x10], planStored := some b, planWaits := true } := by
  simp [execCablingPlanWrite, next, hmc, hmcp]

theorem execCablingPlanWrite_of_invalid {b : List Byte} {o : Nat} (hmc : s.mcRuns = true) (hmcp : s.mcpReady = true)
    (hfault : planFault b = some o) : execCablingPlanWrite b s = .next (logEvent
      { s with fwUpdates := s.fwUpdates ++ [0x10], planStored := some b, planWaits := true } { code := 0x22D1, data := [o] }) := by
  simp [execCablingPlanWrite, next, hmc, hmcp, hfault]

/-- A valid plan that follows another takes effect at once where it differs in more than the module's number. -/
theorem execCablingPlanWrite_of_valid {b old : List Byte} {u : State} (hmc : s.mcRuns = true) (hmcp : s.mcpReady = true)
    (hgood : planFault b = none) (hplan : s.plan = some old)
    (hu : u = { s with fwUpdates := s.fwUpdates ++ [0x10], planStored := some b, planWaits := planId b != s.moduleId }) :
    execCablingPlanWrite b s = .next (if planRest b = planRest old then u else applyPlan u old b) := by
  subst hu
  simp [execCablingPlanWrite, next, hmc, hmcp, hgood, hplan]

theorem execVfMapWrite_of_runs (hmc : s.mcRuns = true) (b : List Byte) : execVfMapWrite b s =
    .next { s with fwUpdates := s.fwUpdates ++ [0x11], pcie := { s.pcie with mapRecord := b } } := by
  simp [execVfMapWrite, next, hmc]

theorem execPldmSensorRefresh_of_runs (hmc : s.mcRuns = true) (v : List Nat) (hstage : s.boot.stage ≠ 7) :
    execPldmSensorRefresh v s = .next { s with sensors := sensorValues s v } := by
  simp [execPldmSensorRefresh, next, hmc, hstage]

theorem execSmbusAlertResponse_of_runs (hmc : s.mcRuns = true) :
    execSmbusAlertResponse s = .next { s with pins := { s.pins with alertN := true } } := by
  simp [execSmbusAlertResponse, next, hmc]

/-! JTAG (R887 to R889). -/

/-- What the TAP does depends on its instruction, the debug level and RESET_N alone. -/
theorem jtagActs_with (c dr fr : Nat) : jtagActs { s with jtag := c, jtagDr := dr, free := fr } =
    if 4 ≤ c ∧ s.dbgLevel ≠ 2 then 0 else if c = 3 ∧ s.pins.resetN = true then 2 else c := by
  simp [jtagActs]

/-- An instruction is held, and its data register selected: the module's number, the bypass bit, or one whose content is left open. -/
theorem execJtagInstruction_cases (c : Nat) : ∃ dr fr, execJtagInstruction c s = .next { s with jtag := c, jtagDr := dr, free := fr } ∧
    (jtagActs { s with jtag := c } = 0 → dr = 0) ∧ (jtagActs { s with jtag := c } = 1 → dr = 0x10576C63) := by
  by_cases h1 : jtagActs { s with jtag := c } = 1
  · exact ⟨jtagIdcode, s.free, by simp only [execJtagInstruction, h1, if_true, next], by simp [h1], fun _ => by decide⟩
  by_cases h0 : jtagActs { s with jtag := c } = 0
  · exact ⟨0, s.free, by simp only [execJtagInstruction, h0, next]; rfl, fun _ => rfl, by simp [h0]⟩
  · exact ⟨_, _, by simp only [execJtagInstruction, h1, h0, if_false, next]; rfl, fun h => absurd h h0, fun h => absurd h h1⟩

end

/-- Settles O55: each record is stored and judged as its command says. The fate of a plan in service (DEDUCED, log entry 53) and the JTAG
instruction numbers (DESIGN CHOICE, log entry 103) are the model's reading. -/
theorem recordsAndSidebandAct : Obligations.RecordsAndSidebandAct := by
  unfold Obligations.RecordsAndSidebandAct
  refine fun s => ⟨fun hmc => ⟨fun b => execFirmwareBundleUpdate_of_runs hmc b rfl rfl,
    fun b => ⟨execCablingPlanWrite_of_unready hmc b, fun o hmcp => execCablingPlanWrite_of_invalid hmc hmcp,
      fun old hmcp hgood hplan => execCablingPlanWrite_of_valid hmc hmcp hgood hplan rfl⟩,
    execVfMapWrite_of_runs hmc, execPldmSensorRefresh_of_runs hmc, execSmbusAlertResponse_of_runs hmc⟩, fun c => ?jtag⟩
  obtain ⟨dr, fr, hstep, hbypass, hid⟩ := execJtagInstruction_cases (s := s) c
  exact ⟨_, hstep, rfl, rfl, jtagActs_with c dr fr, hbypass, hid⟩

end Sys2Proof.Machine
end

section
/-! PROOFS. Supplies, PWR_EN, RESET_N and the protections that switch the rails off (R642, R890 to R896, R1067 to R1071). -/

namespace Sys2Proof.Machine

section
variable {s : State}

/-! Standby power (R642, R1067). -/

theorem execStandbyPowerUp_of_off (h : s.pins.standby = false) : execStandbyPowerUp s = .next { s with
    hub := 0, twilight := [], early := [], keptCounts := none, resetCause := .standby
    pins := { s.pins with standby := true, latched := false, fellAt := none, refclk := true } } := by
  simp [execStandbyPowerUp, next, h]

theorem execStandbyPowerLoss_of_on (h : s.pins.standby = true) : execStandbyPowerLoss s = .next { mainsOff s with
    hub := 0, twilight := [], early := [], keptCounts := none, resetCause := .standby
    pins := { pwrEn := s.pins.pwrEn, resetN := s.pins.resetN } } := by
  simp [execStandbyPowerLoss, next, h]

/-! PWR_EN and the ramp (R891, R894, R896, R1071). -/

/-- 500 ms after a fall, or with none, the ramp begins. -/
theorem execPwrEnRise_of_ready {v : State} (hv : v = { markOrigin s with pins := { s.pins with pwrEn := true, refclk := true } })
    (hstandby : s.pins.standby = true) (hlow : s.pins.pwrEn = false) (hgap : ∀ t, s.pins.fellAt = some t → t + 12500000 ≤ s.hub) :
    execPwrEnRise s = .next (markOrigin { v with pins := { v.pins with ramping := true } }) := by
  subst hv
  rw [execPwrEnRise, next, if_neg (by simp [hstandby, hlow])]
  cases hfell : s.pins.fellAt with
  | none => rfl
  | some t => exact congrArg _ (if_neg (Nat.not_lt.2 (hgap t hfell)))

/-- Earlier it waits. -/
theorem execPwrEnRise_of_early {t : Nat} (hstandby : s.pins.standby = true) (hlow : s.pins.pwrEn = false)
    (hfell : s.pins.fellAt = some t) (hgap : s.hub < t + 12500000) :
    execPwrEnRise s = .next { markOrigin s with pins := { s.pins with pwrEn := true, refclk := true } } := by
  rw [execPwrEnRise, next, if_neg (by simp [hstandby, hlow]), hfell]
  exact congrArg _ (if_pos hgap)

theorem execRampStartDelay_of_due {t : Nat} (hfell : s.pins.fellAt = some t) (hen : s.pins.pwrEn = true)
    (hramp : s.pins.ramping = false) (hrails : s.pins.rails = false) (hlatch : s.pins.latched = false) (hgap : t + 12500000 ≤ s.hub) :
    execRampStartDelay s =
      .next (if s.pins.refclk then markOrigin { s with pins := { s.pins with ramping := true } } else s) := by
  have hdue : t + rampGap ≤ s.hub := hgap
  simp [execRampStartDelay, next, hfell, hen, hramp, hrails, hlatch, hdue, startRamp]

theorem execPwrEnFall_of_on (h : s.pins.pwrEn = true) : execPwrEnFall s = .next { mainsOff s with
    faultN := true, resetCause := .pwrEn
    pins := { (mainsOff s).pins with pwrEn := false, latched := false, fellAt := some s.hub } } := by
  simp [execPwrEnFall, next, h]

theorem execRailsInRegulation_of_ramping (hramp : s.pins.ramping = true) (href : s.pins.refclk = true) {v : State}
    (hv : v = { s with pins := { s.pins with ramping := false, rails := true } }) :
    execRailsInRegulation s = .next (if s.pins.resetN then beginDawn v else v) := by
  simp [execRailsInRegulation, next, hramp, href, hv]

/-! RESET_N (R890, R894, R904). -/

theorem execResetNAssert_of_high (h : s.pins.resetN = true) : execResetNAssert s = .next { moduleReset s with
    faultN := true, resetCause := .resetN, pins := { (moduleReset s).pins with resetN := false } } := by
  simp [execResetNAssert, next, h]

theorem execResetNDeassert_of_low (h : s.pins.resetN = false) {v : State}
    (hv : v = { markOrigin s with pins := { s.pins with resetN := true, refclk := true } }) :
    execResetNDeassert s = .next (if s.pins.rails then beginDawn v else v) := by
  subst hv
  exact congrArg _ (if_neg (by simp [h]))

/-! Protections (R969, R971, R1009, R1067 to R1069). -/

/-- The four protections switch the rails off alike, each with its code. -/
theorem exec_protection {c : Instr} {code : Nat} (h : c = .thermalTrip ∧ code = 0x5303 ∨ c = .overcurrent ∧ code = 0x5304 ∨
    c = .inputOvervoltage ∧ code = 0x5307 ∨ c = .inputUndervoltage ∧ code = 0x5306) : exec c s = .next (shutOff s code) := by
  rcases h with ⟨rfl, rfl⟩ | ⟨rfl, rfl⟩ | ⟨rfl, rfl⟩ | ⟨rfl, rfl⟩ <;> rfl

theorem shutOff_of_on (code : Nat) (h : s.pins.rails = true ∨ s.pins.ramping = true) : shutOff s code = { mainsOff s with
    faultN := false, resetCause := .shutOff code, twilight := [[code, s.hub, s.power.inputMv, s.power.input10ma]]
    pins := { (mainsOff s).pins with latched := true } } := by
  exact if_neg (by rcases h with h | h <;> simp [h])

/-- One that follows another within 1 ms is kept beside it. -/
theorem shutOff_of_joined (code : Nat) {l : List Nat} (hrails : s.pins.rails = false) (hramp : s.pins.ramping = false)
    (hlatch : s.pins.latched = true) (hl : s.twilight.getLast? = some l) (hsoon : s.hub < wd l 1 + 25000) :
    shutOff s code = { s with twilight := s.twilight ++ [[code, s.hub, wd l 2, wd l 3]] } := by
  have hjoins : joinsShutOff s = true := by
    rw [joinsShutOff, hlatch, hl]
    exact decide_eq_true hsoon
  simp [shutOff, hrails, hramp, hl, hjoins]

/-- A lost reference clock is Module-fatal where the module runs. -/
theorem execRefclkLoss_of_running (hen : s.pins.pwrEn = true) (hrun : s.running = true) :
    execRefclkLoss s = .next (raise { s with pins := { s.pins with refclk := false } }
      { code := 0x5305, data := [0, 0, s.power.e / 1000, s.power.dMw / 1000] }) := by
  exact congrArg _ (if_pos (Bool.and_eq_true_iff.2 ⟨hen, hrun⟩))

theorem execRefclkLoss_of_stopped (h : s.pins.pwrEn = false ∨ s.running = false) :
    execRefclkLoss s = .next { s with pins := { s.pins with refclk := false } } := by
  exact congrArg _ (if_neg fun hboth => by simp_all [State.running])

end

/-- Settles O52: each command acts where its pin or supply stands as its condition says. That PWR_EN and RESET_N rising find the reference
again is a choice (DESIGN CHOICE, log entry 149), and the 1 ms within which protections join is the model's reading (DEDUCED, log entry
134). -/
theorem suppliesAndResetsAct : Obligations.SuppliesAndResetsAct := by
  unfold Obligations.SuppliesAndResetsAct
  exact fun s => ⟨execStandbyPowerUp_of_off, execStandbyPowerLoss_of_on,
    fun hstandby hlow => ⟨execPwrEnRise_of_ready rfl hstandby hlow, fun t => execPwrEnRise_of_early hstandby hlow⟩,
    fun t => execRampStartDelay_of_due, execPwrEnFall_of_on, execResetNAssert_of_high,
    fun h => execResetNDeassert_of_low h rfl, fun hramp href => execRailsInRegulation_of_ramping hramp href rfl,
    fun c code hc => ⟨fun hon => (exec_protection hc).trans (congrArg _ (shutOff_of_on code hon)),
      fun l hrails hramp hlatch hl hsoon => (exec_protection hc).trans
        (congrArg _ (shutOff_of_joined code hrails hramp hlatch hl hsoon))⟩,
    execRefclkLoss_of_running, execRefclkLoss_of_stopped⟩

end Sys2Proof.Machine
end

section
/-! PROOFS. Activity states, A4, the envelope, filler and the thermal protections (R890, R941 to R944, R951 to R953, R957 to R970). -/

namespace Sys2Proof.Machine

section
variable {s : State} {p : Fin 8}

/-! Activity states (R941 to R944). -/

theorem execActivityStepDown_of_target {mw : Nat} (hrun : s.running = true) (hact : (s.part p).act < 3)
    (htarget : targetAt s p ((s.part p).act + 1) = true) (hpower : s.power.e ≤ mw + 45000) :
    execActivityStepDown p mw s = .next (noFiller (s.setPart p { s.part p with
      act := (s.part p).act + 1, actAt := (s.part p).count
      hbm := { (s.part p).hbm with selfRefresh := (s.part p).act + 1 == 3, wokenAt := none } }) p) := by
  have hdeep : ¬3 < (s.part p).act + 1 := by omega
  have henvelope : ¬mw + 45000 < s.power.e := by omega
  simp [execActivityStepDown, next, hrun, hdeep, htarget, henvelope]

theorem execActivityExit_of_deeper (hleast : 1 ≤ (s.part p).act) (hmost : (s.part p).act ≤ 3) :
    execActivityExit p s = .next (s.setPart p { s.part p with
      act := 0, actAt := (s.part p).count, idleAt := none
      beatAt := if (s.part p).act = 3 then (s.part p).count else (s.part p).beatAt
      hbm := { (s.part p).hbm with selfRefresh := false, wokenAt := none } }) := by
  have hshallow : ¬3 < (s.part p).act := by omega
  simp [execActivityExit, next, hshallow, Nat.ne_of_gt hleast]

/-! A4 (R643, R951 to R953). -/

theorem execA4Entry_of_allowed {v : State} (hready : s.ready = true) (hrun : s.running = true) (ha4 : s.power.a4 = false)
    (hmay : mayEnterA4 s = true)
    (hv : v = allPorts.foldl (fun v k => if (v.port k).st == .up then quietPort v k .down else v) (allParts.foldl (fun v q =>
      resetTiles (v.setPart q { v.part q with
        act := 4, actAt := (v.part q).count, idleAt := none
        hbm := { (v.part q).hbm with mem := memZero (v.part q).hbm.mem 0 (64 * systemLine), poison := [], ue := [], ce := [] } }) q) s)) :
    execA4Entry s = .next { v with
      power := { v.power with a4 := true, a4Ports := fpSaved s }
      keptCounts := some (s.hub, allParts.map fun q => (s.part q).count) } := by
  rw [execA4Entry, next, if_neg (by simp [hready, hrun, ha4, hmay]), hv]

theorem reloadCounts_power (s : State) : (reloadCounts s).power = s.power := by
  unfold reloadCounts
  cases s.keptCounts <;> rfl

theorem reloadCounts_of_kept {t : Nat} {l : List Nat} (h : s.keptCounts = some (t, l)) : reloadCounts s = { s with
    keptCounts := none, parts := tabMap s.parts fun q Q => { Q with count := (wd l q + (s.hub - t)) % 2 ^ 64 } } := by
  rw [reloadCounts, h]

theorem execA4Exit_of_a4 (ha4 : s.power.a4 = true) (hrun : s.running = true) :
    execA4Exit s = .next (allPorts.foldl (fun v k =>
        if v.plan.isSome && (v.port k).st == .down && !(v.port k).disable then startPort v k else v)
      (allParts.foldl wakePart { reloadCounts s with power := { s.power with a4 := false, a4Waking := false, a4Ports := [] } })) := by
  rw [execA4Exit, next, if_neg (by simp [ha4, hrun]), ← reloadCounts_power s]

/-! The envelope (R957, R958, R961, R962). -/

/-- What ENVELOPE_UPDATE keeps of a measurement. -/
def measuredPower (s : State) (m : Measured) : Power :=
  let cap := s.power.capSteps * 25000
  let e := nextE s.power.e m.dMw cap (s.power.floorPct * m.aMw / 100)
  { s.power with
    e, dMw := m.dMw, avgMw := m.aMw, powerW := m.powerW, inputMv := m.inputMv, input10ma := m.input10ma, maxDieC := m.maxDieC
    maxHbmC := m.maxHbmC, outletC := m.outletC, inletC := m.inletC, fillerMw := m.fillerMw, hold := e < m.dMw
    capActive := e == cap && e < m.dMw, short := m.dMw + m.fillerMw < e, nextAt := s.hub + us 10 }

/-- In its time the envelope moves; falling short for the first time is logged, and filler ends once demand has reached it. -/
theorem execEnvelopeUpdate_of_due {m : Measured} (hready : s.ready = true) (hrun : s.running = true) (hdue : s.power.nextAt ≤ s.hub) :
    execEnvelopeUpdate m s = .next
      (if decide (m.dMw + m.fillerMw < (measuredPower s m).e) && !s.power.short then
        logEvent { s with power := measuredPower s m }
          { code := 0x1301, data := powerData { s with power := measuredPower s m } 0 m.powerW }
      else if (measuredPower s m).e ≤ m.dMw then allParts.foldl noFiller { s with power := measuredPower s m }
      else { s with power := measuredPower s m }) := by
  exact congrArg _ (if_neg (by simp [hready, hrun, hdue]))

theorem execEnvelopeUpdate_of_short {m : Measured} (hready : s.ready = true) (hrun : s.running = true) (hdue : s.power.nextAt ≤ s.hub)
    (hshort : m.dMw + m.fillerMw < (measuredPower s m).e) (hnew : s.power.short = false) :
    execEnvelopeUpdate m s = .next (logEvent { s with power := measuredPower s m }
      { code := 0x1301, data := powerData { s with power := measuredPower s m } 0 m.powerW }) := by
  rw [execEnvelopeUpdate_of_due hready hrun hdue, if_pos (by simp [hshort, hnew])]

theorem execEnvelopeUpdate_of_reached {m : Measured} (hready : s.ready = true) (hrun : s.running = true) (hdue : s.power.nextAt ≤ s.hub)
    (hreached : (measuredPower s m).e ≤ m.dMw) :
    execEnvelopeUpdate m s = .next (allParts.foldl noFiller { s with power := measuredPower s m }) := by
  have hfull : ¬m.dMw + m.fillerMw < (measuredPower s m).e := by omega
  rw [execEnvelopeUpdate_of_due hready hrun hdue, if_neg (by simp [hfull]), if_pos hreached]

theorem execEnvelopeUpdate_of_below {m : Measured} (hready : s.ready = true) (hrun : s.running = true) (hdue : s.power.nextAt ≤ s.hub)
    (hbelow : m.dMw < (measuredPower s m).e) (hfilled : (measuredPower s m).e ≤ m.dMw + m.fillerMw ∨ s.power.short = true) :
    execEnvelopeUpdate m s = .next { s with power := measuredPower s m } := by
  have hquiet : ¬(decide (m.dMw + m.fillerMw < (measuredPower s m).e) && !s.power.short) = true := by
    rcases hfilled with hfull | hold
    · simp [Nat.not_lt.2 hfull]
    · simp [hold]
  rw [execEnvelopeUpdate_of_due hready hrun hdue, if_neg hquiet, if_neg (by omega)]

theorem execFillerStart_of_empty {t : Fin 16} (hserves : (s.part p).inService = true) (hreset : (s.part p).reset = none)
    (hact : (s.part p).act = 0) (hduty : (s.part p).duty = 16) (hrun : (s.tile p t).run = none) (hdemand : s.power.dMw < s.power.e) :
    execFillerStart p t s = .next (s.setTile p t { s.tile p t with filler := true }) := by
  simp [execFillerStart, next, hserves, hreset, hact, hduty, hrun, hdemand]

/-! Thermal protection (R890, R967, R968, R970). -/

theorem execThermalThrottleStep_of_hot {cool : Bool} (hrails : s.pins.rails = true) (hthrottling : (s.part p).throttling = true)
    (hdue : (s.part p).throttleAt + 2500 ≤ (s.part p).count) : execThermalThrottleStep p true cool s =
      .next (setThermN (noFiller (s.setPart p { s.part p with
        duty := (s.part p).duty - 1, throttling := true, throttleAt := (s.part p).count }) p)) := by
  have hearly : ¬(s.part p).count < (s.part p).throttleAt + us 100 := Nat.not_lt.2 hdue
  simp [execThermalThrottleStep, next, hrails, hthrottling, hearly]

/-- The first step of a throttling is logged. -/
theorem execThermalThrottleStep_of_newly_hot {cool : Bool} {v : State} (hrails : s.pins.rails = true)
    (hthrottling : (s.part p).throttling = false) (hv : v = noFiller (s.setPart p { s.part p with
      duty := (s.part p).duty - 1, throttling := true, throttleAt := (s.part p).count }) p) :
    execThermalThrottleStep p true cool s =
      .next (setThermN (logOrKeep v { code := 0x1300, part := some p, data := powerData v p v.power.maxDieC })) := by
  subst hv
  simp [execThermalThrottleStep, next, hrails, hthrottling]

theorem execThermalThrottleStep_of_cool (hrails : s.pins.rails = true) (hduty : (s.part p).duty < 16)
    (hdue : (s.part p).throttleAt + 25000 ≤ (s.part p).count) : execThermalThrottleStep p false true s = .next (setThermN
      (s.setPart p { s.part p with
        duty := (s.part p).duty + 1, throttling := decide ((s.part p).duty + 1 < 16), throttleAt := (s.part p).count })) := by
  have hearly : ¬(s.part p).count < (s.part p).throttleAt + us 1000 := Nat.not_lt.2 hdue
  simp [execThermalThrottleStep, next, hrails, hduty, hearly]

theorem execCoolantOutletHigh_of_new {v : State} (hrails : s.pins.rails = true) (hcool : s.pins.outletHot = false)
    (hv : v = setThermN { s with pins := { s.pins with outletHot := true } }) :
    execCoolantOutletHigh s = .next (logOrKeep v { code := 0x2302, data := powerData v 0 v.power.outletC }) := by
  simp [execCoolantOutletHigh, next, hrails, hcool, hv]

/-- THERM_N is released unless a die is throttled still. -/
theorem execThermNRelease_eq (s : State) :
    execThermNRelease s = .next { s with pins := { s.pins with outletHot := false, thermN := !throttled s } } := by
  have hdies : throttled { s with pins := { s.pins with outletHot := false } } = throttled s := rfl
  rw [execThermNRelease, next, setThermN, hdies, Bool.or_false]

end

/-- Settles O54: each command of power acts where its condition holds, and ENVELOPE_UPDATE by where demand and filler stand. -/
theorem powerStatesAndProtection : Obligations.PowerStatesAndProtection := by
  unfold Obligations.PowerStatesAndProtection
  intro s p t P dark
  refine ⟨fun mw => execActivityStepDown_of_target, execActivityExit_of_deeper,
    fun hready hrun ha4 hmay => execA4Entry_of_allowed hready hrun ha4 hmay rfl, execA4Exit_of_a4, fun t l hkept => ?reload,
    fun m hready hrun hdue => ⟨measuredPower s m, rfl, rfl, rfl, rfl, rfl, execEnvelopeUpdate_of_short hready hrun hdue,
      execEnvelopeUpdate_of_reached hready hrun hdue, execEnvelopeUpdate_of_below hready hrun hdue⟩,
    execFillerStart_of_empty, fun hrails => ⟨fun cool => execThermalThrottleStep_of_hot hrails,
      fun cool hnew => execThermalThrottleStep_of_newly_hot hrails hnew rfl, execThermalThrottleStep_of_cool hrails,
      fun hcool => execCoolantOutletHigh_of_new hrails hcool rfl⟩, execThermNRelease_eq s⟩
  case reload =>
    rw [reloadCounts_of_kept hkept]
    exact ⟨rfl, rfl⟩

end Sys2Proof.Machine
end

section
/-! PROOFS. Bring-up from Dawn to readiness and what follows it (R897 to R915, R923, R1039, R1044 to R1048). -/

namespace Sys2Proof.Machine

section
variable {s : State}

/-! Dawn and Sunrise (R897 to R901, R907). -/

theorem execDawnEnd_of_dawn (h : s.inStage 1 = true) :
    execDawnEnd true s = .next { s with boot := { s.boot with stage := 2, dawnEndAt := s.hub, loaded := some s.sec.dieFuses } } ∧
      execDawnEnd false s = .next (haltEarly s 6) := by
  constructor <;> simp [execDawnEnd, next, h]

theorem execSunriseEnd_of_none (temps mv : List Nat) (h : s.inStage 2 = true)
    (hbank : bootBank { s.sec with counters := s.loadedFuses.counters } = none) :
    execSunriseEnd temps mv s = .next (haltEarly s 7) := by
  rw [execSunriseEnd, next, if_neg (by simp [h]), hbank]

theorem execThermalSettle_of_due (hsettled : s.boot.settled = false) (hcmi : s.boot.cmi = true)
    (hdue : s.boot.dawnEndAt + 125000000 ≤ s.hub) :
    execThermalSettle s = .next { s with boot := { s.boot with
      settled := true, items := tabMap s.boot.items fun _ t => if t == .waitCold then .cold else t } } := by
  have hearly : ¬s.hub < s.boot.dawnEndAt + us 5000000 := Nat.not_lt.2 hdue
  simp [execThermalSettle, next, hsettled, hcmi, hearly]

/-! Training (R905, R906). -/

theorem execTrainingItemDone_of_passed {i : Fin 72}
    (h : s.item i = .saved ∨ s.item i = .refining ∨ s.item i = .cold ∨ s.item i = .coldRetry) :
    execTrainingItemDone i true s = .next (itemDone s i) := by
  rcases h with h | h | h | h <;> simp only [execTrainingItemDone, h, next]

theorem execTrainingItemDone_of_saved {i : Fin 72} {v : State} (hv : v = (trainRetry s i).setItem i .refining)
    (h : s.item i = .saved) : execTrainingItemDone i false s = .next { v with boot := { v.boot with
      refined := setIns v.boot.refined i, worked := setIns v.boot.worked i } } := by
  simp only [execTrainingItemDone, h, hv, next]

theorem execTrainingItemDone_of_refining {i : Fin 72} (h : s.item i = .refining) :
    execTrainingItemDone i false s = .next (startCold (trainRetry s i) i) := by
  simp only [execTrainingItemDone, h, next]

theorem execTrainingItemDone_of_cold {i : Fin 72} (h : s.item i = .cold) :
    execTrainingItemDone i false s = .next ((trainRetry s i).setItem i .coldRetry) := by
  simp only [execTrainingItemDone, h, next]

theorem execTrainingItemDone_of_coldRetry {i : Fin 72} (h : s.item i = .coldRetry) :
    execTrainingItemDone i false s = .next (itemFailed s i) := by
  simp only [execTrainingItemDone, h, next]

/-! Memory, images and cores (R909 to R913, R918, R1044). -/

theorem execPartitionZeroed_of_trained {p : Fin 8} (hstage : s.inStage 3 = true ∨ (s.part p).testExit.isSome = true)
    (hdone : stacksDone s p = true) (hnew : (p : Nat) ∉ s.boot.zeroed) : execPartitionZeroed p s =
      .next (placeImages (zeroHbm { s with boot := { s.boot with zeroed := setIns s.boot.zeroed p } } p) p) := by
  have hmay : (s.inStage 3 || (s.part p).testExit.isSome) = true := by simpa using hstage
  simp [execPartitionZeroed, next, hmay, hdone, hnew]

section
variable {p : Fin 8} {c : Fin 113} {m : Nat}

/-- A core that has fetched an image with the right digest runs. -/
theorem execMorningCoreVerify_of_good (hm : 128 * p.val + c.val = m) (hplaced : imagesPlaced s p = true)
    (hopen : tabGet 0 s.boot.cores m < 2) (hfetched : fetchedOk s p c = true) (htest : (s.part p).testExit = none) :
    execMorningCoreVerify p c true s = .next { s with boot := { s.boot with cores := tabSet s.boot.cores m 2 } } := by
  subst hm
  have hmore : ¬2 ≤ tabGet 0 s.boot.cores (128 * p.val + c.val) := by omega
  simp only [execMorningCoreVerify, next, hplaced, hmore, hfetched]
  have hpart : (State.part { s with boot := { s.boot with cores := tabSet s.boot.cores (128 * p.val + c.val) 2 } } p).testExit =
    none := htest
  simp [hpart]

/-- One that has not fetches it once more, and then has failed. -/
theorem execMorningCoreVerify_of_bad {ok : Bool} (hm : 128 * p.val + c.val = m) (hplaced : imagesPlaced s p = true)
    (hbad : ok = false ∨ fetchedOk s p c = false) :
    (tabGet 0 s.boot.cores m = 0 → execMorningCoreVerify p c ok s =
      .next { s with boot := { s.boot with cores := tabSet s.boot.cores m 1 } }) ∧
    (tabGet 0 s.boot.cores m = 1 → execMorningCoreVerify p c ok s =
      .next (coreFailed { s with boot := { s.boot with cores := tabSet s.boot.cores m 3 } } p c)) := by
  subst hm
  have hgood : (ok && fetchedOk s p c) = false := by rcases hbad with h | h <;> simp [h]
  constructor <;> intro hst <;> simp [execMorningCoreVerify, next, hplaced, hgood, hst]

end

theorem execNvwsMountDone_of_morning (hstage : s.inStage 3 = true) (hnew : s.nvws.mounted = false) :
    execNvwsMountDone false s = .next (haltMorning s) ∧
      execNvwsMountDone true s = .next { s with nvws := { s.nvws with mounted := true } } := by
  constructor <;> simp [execNvwsMountDone, next, hstage, hnew]

/-! Readiness and what follows it (R914, R915, R923, R1039, R1046, R1048). -/

/-- Writing partitions in turn changes the partitions alone. -/
theorem foldl_setPart_eq (f : State → Nat → Part) (ps : List Nat) (v : State) :
    ∃ q, ps.foldl (fun v p => v.setPart p (f v p)) v = { v with parts := q } := by
  induction ps generalizing v with
  | nil => exact ⟨v.parts, rfl⟩
  | cons p ps ih =>
    obtain ⟨q, hq⟩ := ih (v.setPart p (f v p))
    exact ⟨q, hq⟩

theorem execReadiness_of_up {v : State} (hstage : s.inStage 3 = true) (hstop : s.stopped = false)
    (hparts : ∀ p ∈ allParts, partOut s p = true ∨ partUp s p = true) (hnvws : s.nvws.mounted = true) (hfabric : fabricReady s = true)
    (hv : allParts.foldl (fun v p => v.setPart p (if partOut s p then
      { v.part p with hbm := { (v.part p).hbm with selfRefresh := true } } else enterService (v.part p))) s = v) :
    ∃ t, execReadiness s = .next t ∧ t.ready = true ∧ t.readySensor = true ∧ t.parts = v.parts ∧ t.ctxs = s.ctxs ∧
      t.ports = s.ports ∧ t.boot.stage = (if s.plan.any (fun b => !allPorts.any (planWaive b)) then 4 else 5) ∧
      t.boot.readyAt = s.hub := by
  have hall : (allParts.all fun p => partOut s p || partUp s p) = true := by simpa using hparts
  obtain ⟨q, hq⟩ := foldl_setPart_eq (fun v p => if partOut s p then
    { v.part p with hbm := { (v.part p).hbm with selfRefresh := true } } else enterService (v.part p)) allParts s
  rw [execReadiness, next, if_neg (by simp [hstage, hstop, hall, hnvws, hfabric])]
  have hvparts := congrArg State.parts hv
  have hctxs := congrArg State.ctxs hq
  have hports := congrArg State.ports hq
  have hhub := congrArg State.hub hq
  refine ⟨_, rfl, rfl, rfl, hvparts, hctxs, hports, ?stage, hhub⟩
  cases s.plan with
  | none => simp
  | some b => cases hwaive : allPorts.any (planWaive b) <;> simp [hwaive]

/-- A setting that this bring-up found is saved once. -/
theorem execSavedRecordWrite_of_done {i : Fin 72} (c mv : Nat) (hready : s.ready = true) (hnew : (i : Nat) ∈ s.boot.refined)
    (hdone : s.item i = .done) : ∃ r : SavedRec,
      execSavedRecordWrite i c mv s = .next { s with
        saved := tabSet s.saved i r, boot := { s.boot with refined := setDel s.boot.refined i } } ∧
      r.tempC = c ∧ r.railMv = mv ∧ r.at_ = s.hub ∧ r.fw = bunVersion s.sec.running := by
  rw [execSavedRecordWrite, next, if_neg (by simp [hready, hnew, hdone])]
  exact ⟨_, rfl, rfl, rfl, rfl, rfl⟩

/-- The version counters are raised once in a bring-up. -/
theorem execFwSvnRaise_of_advance {c : Sec} (hc : c = { raiseFuses s.sec s.sec.running with raised := true }) (hready : s.ready = true)
    (hnew : s.sec.raised = false) (hadvance : bunAdvance s.sec.running = true) :
    execFwSvnRaise s = .next (if c.fuseBytes = s.sec.fuseBytes then { s with sec := c }
      else logEvent (extendMr { s with sec := c } 2 c.fuseBytes) { code := 0x12F8, data := [bunVersion s.sec.running,
        bunKey s.sec.running, c.counters.foldl (fun a x => 256 * a + x) 0] }) := by
  rw [execFwSvnRaise, next, if_neg (by simp [hready, hnew, hadvance]), hc]

end

/-- Settles O53: each command of bring-up acts in its stage, and a training item goes by the state of its training. -/
theorem bringUpRunsItsStages : Obligations.BringUpRunsItsStages := by
  unfold Obligations.BringUpRunsItsStages
  refine fun s => ⟨execDawnEnd_of_dawn, fun temps mv hstage => ?sunrise, execThermalSettle_of_due,
    fun i => ⟨execTrainingItemDone_of_passed, execTrainingItemDone_of_saved rfl, execTrainingItemDone_of_refining,
      execTrainingItemDone_of_cold, execTrainingItemDone_of_coldRetry⟩,
    fun p => execPartitionZeroed_of_trained, fun p c hplaced => ⟨execMorningCoreVerify_of_good rfl hplaced,
      fun ok => execMorningCoreVerify_of_bad rfl hplaced⟩, execNvwsMountDone_of_morning,
    fun hstage hstop hparts hnvws hfabric => execReadiness_of_up hstage hstop hparts hnvws hfabric rfl,
    fun i c mv => execSavedRecordWrite_of_done c mv, execFwSvnRaise_of_advance rfl⟩
  case sunrise =>
    intro booted
    show execSunriseEnd temps mv s = _
    cases hbank : bootBank { s.sec with counters := s.loadedFuses.counters } with
    | none => exact execSunriseEnd_of_none temps mv hstage hbank
    | some bank =>
      rw [execSunriseEnd, next, if_neg (by simp [hstage]), hbank]

end Sys2Proof.Machine
end

section
/-! PROOFS. The steps of a partition reset (R986, R990, R994, R1012, R1014). -/

namespace Sys2Proof.Machine

section
variable {s v : State} {p : Fin 8} {r : Reset}

/-! Sundown (steps 3 to 5). -/

/-- With every commit phase over, the dump is taken and Sundown ends. -/
theorem execSundownComplete_of_over (clean : Bool) (hreset : (s.part p).reset = some r) (hstep : r.step = .sundown)
    (hover : ∀ e ∈ ((thaw s p).part p).insts, e.2.st ≠ .committing)
    (hv : takeDump (thaw s p) p (r.dump || wd s.escal 4 == 1) clean r.stopped r.table
      { cause := r.cause, ctxMask := r.ctxMask, abandoned := r.abandoned } = v) :
    execSundownComplete p clean s = .next (v.setPart p { v.part p with reset := some { r with step := .compute } }) := by
  subst hv
  have hnone : ((thaw s p).part p).insts.any (fun e => e.2.st == .committing) = false := by simpa using hover
  rw [execSundownComplete, hreset]
  simp only [hstep, hnone, next]
  rfl

/-- Until then it has only let go on what a save held. -/
theorem execSundownComplete_of_committing (clean : Bool) (hreset : (s.part p).reset = some r) (hstep : r.step = .sundown)
    (hbusy : ∃ e ∈ ((thaw s p).part p).insts, e.2.st = .committing) : execSundownComplete p clean s = .next (thaw s p) := by
  have hsome : ((thaw s p).part p).insts.any (fun e => e.2.st == .committing) = true := by simpa using hbusy
  rw [execSundownComplete, hreset]
  simp only [hstep, hsome, next]
  rfl

/-! The compute part (step 6). -/

theorem execPartitionComputeReset_of_out (hreset : (s.part p).reset = some r) (hstep : r.step = .compute)
    (hout : r.toOos = true ∨ r.stays = true) : execPartitionComputeReset p s = .next (resetToOos (computeReset s p) p r) := by
  have hstays : (r.toOos || r.stays) = true := by simpa using hout
  rw [execPartitionComputeReset, hreset]
  simp only [hstep, hstays, next]
  rfl

theorem execPartitionComputeReset_of_back (hreset : (s.part p).reset = some r) (hstep : r.step = .compute)
    (hlimit : r.toOos = false) (hstays : r.stays = false)
    (hv : (computeReset s p).setPart p { (computeReset s p).part p with reset := some { r with step := .reinit } } = v) :
    execPartitionComputeReset p s = .next (if r.memPath then (stacksOf p).foldl startItem v else v) := by
  subst hv
  rw [execPartitionComputeReset, hreset]
  simp only [hstep, hlimit, hstays, next]
  rfl

/-! The controllers (steps 7 and 8). -/

/-- The partition with its controllers back and its cores to fetch their images again. -/
def reinitPart (s : State) (p : Fin 8) (r : Reset) : State :=
  let P := s.part p
  let v := s.setPart p { P with
    reset := some { r with step := .ending }, dcpAt := if r.dcp then P.count else P.dcpAt, hbm := { P.hbm with selfRefresh := false } }
  resetTiles { v with boot := { v.boot with cores := v.boot.cores.filter fun e => e.1 / 128 != p.val } } p

theorem execPartitionReinit_of_kept (b : Bool) (hreset : (s.part p).reset = some r) (hstep : r.step = .reinit)
    (hmem : r.memPath = false) : execPartitionReinit p b s = .next (reinitPart s p r) := by
  rw [execPartitionReinit, hreset]
  dsimp only
  rw [if_neg (by simp [hstep, hmem]), if_neg (by simp [hmem]), if_neg (by simp [hmem]), next, reinitPart]

theorem execPartitionReinit_of_trained (hreset : (s.part p).reset = some r) (hstep : r.step = .reinit) (hmem : r.memPath = true)
    (hdone : ∀ i ∈ stacksOf p, s.item i = .done) :
    execPartitionReinit p true s = .next (restoreMemory (reinitPart s p r) p r.cause) := by
  have hall : ((stacksOf p).all fun i => s.item i == .done) = true := by simpa using hdone
  rw [execPartitionReinit, hreset]
  dsimp only
  rw [if_neg (by simp [hstep, hall]), if_neg (by simp), if_pos hmem, next, reinitPart]

theorem execPartitionReinit_of_failed (hreset : (s.part p).reset = some r) (hstep : r.step = .reinit) (hmem : r.memPath = true)
    (hfailed : ∃ i ∈ stacksOf p, s.item i = .failed) : execPartitionReinit p false s = .next (resetToOos s p r) := by
  have hany : ((stacksOf p).any fun i => s.item i == .failed) = true := by simpa using hfailed
  rw [execPartitionReinit, hreset]
  dsimp only
  rw [if_neg (by simp [hstep, hany]), if_pos (by simp [hmem]), next]

/-! The end (steps 9 and 10). -/

/-- With every core running the partition is restored, its slots and banks are settled, and its waiters are answered. -/
theorem execPartitionResetEnd_of_running {v v1 v2 : State} {dur : Nat} (hreset : (s.part p).reset = some r) (hstep : r.step = .ending)
    (hcores : coresRun s p = true) (hv : v = (s.ctxsOn p).foldl (fun s c => s.setCp c p (restoreCp (s.cp c p))) s)
    (hv1 : v1 = v.setPart p (leaveReset s (restorePartition (v.part p)))) (hdur : dur = ((v1.part p).count - r.startedAt) / 25)
    (hv2 : v2 = (s.ctxsOn p).foldl (fun t c => settleSlots t c (loadsOn s c p))
      (logEvent v1 { code := 0x1316, part := some p, data := [p, p, r.cause, dur] })) :
    execPartitionResetEnd p s = .next (releaseWaiters (boundaryIfIdle v2 p) p r.waiters 0 dur) := by
  subst hv hv1 hdur hv2
  rw [execPartitionResetEnd, hreset]
  simp only [hstep, hcores, next]
  rfl

end

/-- Settles O51: each command acts in its own step of the reset. That a partition which was out of service before stays there is the
model's reading (DEDUCED, log entry 82). -/
theorem partitionResetsRunTheirSteps : Obligations.PartitionResetsRunTheirSteps := by
  unfold Obligations.PartitionResetsRunTheirSteps
  exact fun s p r hreset => ⟨fun clean hstep => ⟨fun hover => execSundownComplete_of_over clean hreset hstep hover rfl,
      execSundownComplete_of_committing clean hreset hstep⟩,
    fun hstep => ⟨execPartitionComputeReset_of_out hreset hstep,
      fun hlimit hstays => execPartitionComputeReset_of_back hreset hstep hlimit hstays rfl⟩,
    fun hstep => ⟨fun b => execPartitionReinit_of_kept b hreset hstep, execPartitionReinit_of_trained hreset hstep,
      execPartitionReinit_of_failed hreset hstep⟩,
    fun hstep hcores => execPartitionResetEnd_of_running hreset hstep hcores rfl rfl rfl rfl⟩

end Sys2Proof.Machine
end

section
/-! PROOFS. Lane pairs receive, retrain, exchange identities and are checked (R764 to R770, R835 to R841). -/

namespace Sys2Proof.Machine

section
variable {s : State} {k : Fin 6} {n : Fin 8}

/-! Flits and retrains (R764 to R770). -/

theorem execFlitReceive_of_live {f : List Byte} (c : Nat) (ok : Bool) (hlen : f.length = 256) (hlive : laneLive s k n = true) :
    execFlitReceive k n f c ok s = .next (receive s k n f c ok) := by
  simp [execFlitReceive, next, hlen, hlive]

theorem execLaneLockLoss_of_live (hlive : laneLive s k n = true) : execLaneLockLoss k n s = .next (startRetrain s k n) := by
  simp [execLaneLockLoss, next, hlive]

theorem execAckProgressTimeout_of_due (hlive : laneLive s k n = true) (hreplay : (s.lp k n).replay ≠ [])
    (hdue : (s.lp k n).lastAck + 500 ≤ s.hub) : execAckProgressTimeout k n s = .next (startRetrain s k n) := by
  have htime : (s.lp k n).lastAck + us 20 ≤ s.hub := hdue
  simp [execAckProgressTimeout, next, hlive, hreplay, htime]

theorem execRetrainComplete_of_failed (hre : (s.lp k n).retraining = true) :
    execRetrainComplete k n false s = .next (portDown s k n .down) := by
  simp [execRetrainComplete, next, hre]

theorem execRetrainComplete_of_seen (hre : (s.lp k n).retraining = true) (hseen : (s.lp k n).seen = true) :
    execRetrainComplete k n true s = .next (retrained s k n) := by
  simp [execRetrainComplete, next, hre, hseen]

theorem execPortTrainingRetry_of_due (hplan : s.plan.isSome = true) (hen : (s.port k).disable = false)
    (hst : (s.port k).st = .down ∨ (s.port k).st = .training) (hdue : (s.port k).retryAt + 50000000 ≤ s.hub) :
    execPortTrainingRetry k s = .next (startPort s k) := by
  have hwaits : ((s.port k).st == .down || (s.port k).st == .training) = true := by simpa using hst
  have htime : (s.port k).retryAt + us 2000000 ≤ s.hub := hdue
  simp [execPortTrainingRetry, next, hplan, hen, hwaits, htime]

/-! Identities (R835 to R841). -/

theorem execIdentitySend_of_due (hex : exchanging s k n = true) (hseen : (s.lp k n).seen = false)
    (hdue : ∀ t, (s.lp k n).identAt = some t → t + 25000 ≤ s.hub) : execIdentitySend k n s = .next
      { s.setLp k n { s.lp k n with locked := true, identAt := some s.hub } with
        identOut := s.identOut ++ [((k : Nat), (n : Nat), identityBlock (s.myIdentity k n))] } := by
  have htime : identityDue s (s.lp k n) = true := by
    unfold identityDue
    cases hat : (s.lp k n).identAt with
    | none => rfl
    | some t => exact decide_eq_true (hdue t hat)
  simp [execIdentitySend, next, hex, hseen, htime]

section
variable {b : List Byte} {i : Identity}

theorem execIdentityReceived_of_same (hex : exchanging s k n = true) (hin : identityIn b = some i)
    (hre : (s.lp k n).retraining = true) (hsame : (s.lp k n).identity = some i) :
    execIdentityReceived k n b s = .next (s.setLp k n { s.lp k n with seen := true, locked := true }) := by
  simp [execIdentityReceived, next, hex, hin, hre, hsame]

/-- A retrain that meets another partner fails. -/
theorem execIdentityReceived_of_other (hex : exchanging s k n = true) (hin : identityIn b = some i)
    (hre : (s.lp k n).retraining = true) (hother : (s.lp k n).identity ≠ some i) :
    execIdentityReceived k n b s = .next (portDown s k n .down) := by
  simp [execIdentityReceived, next, hex, hin, hre, hother]

/-- In a training the eighth partner's identity lets the port be checked. -/
theorem execIdentityReceived_of_training {t : State} (hex : exchanging s k n = true) (hin : identityIn b = some i)
    (hre : (s.lp k n).retraining = false) (hgood : partnerRejected s k n i = false)
    (ht : t = s.setLp k n { s.lp k n with identity := some i, seen := true }) :
    execIdentityReceived k n b s = .next (if allParts.all (fun m => (t.lp k m).seen) then portCheck t k else t) := by
  simp only [execIdentityReceived, next, hex, hin, hre, hgood, ht]
  rfl

end

theorem execAbsentLimitExpiry_of_due {a : Nat} (ha : (s.port k).absentBy = some a) (hdue : a ≤ s.hub) : execAbsentLimitExpiry k s =
    .next (logCheck (s.setPort k { s.port k with absentBy := none, check := 4 }) k 4 (s.port k).check none) := by
  simp [execAbsentLimitExpiry, next, ha, Nat.not_lt.2 hdue]

end

/-- Settles O48: a lane pair acts by its own state and the identity that its partner has sent. The retry of a port that trains still
(DEDUCED, log entry 51) and the lock that the first identity tells (DEDUCED, log entry 151) are the model's reading. -/
theorem lanesTrainAndRetrain : Obligations.LanesTrainAndRetrain := by
  unfold Obligations.LanesTrainAndRetrain
  exact fun s k n => ⟨fun f c ok => execFlitReceive_of_live c ok, fun hlive => ⟨execLaneLockLoss_of_live hlive,
      execAckProgressTimeout_of_due hlive⟩, fun hre => ⟨execRetrainComplete_of_failed hre, execRetrainComplete_of_seen hre⟩,
    execPortTrainingRetry_of_due, fun hex => ⟨execIdentitySend_of_due hex, fun b i hin =>
      ⟨execIdentityReceived_of_same hex hin, execIdentityReceived_of_other hex hin,
        fun hre hgood => execIdentityReceived_of_training hex hin hre hgood rfl⟩⟩,
    fun a => execAbsentLimitExpiry_of_due⟩

end Sys2Proof.Machine
end

section
/-! PROOFS. Packets at the heads of their classes: forwarded, held, applied and answered (R779, R783, R798, R808, R813, R817). -/

namespace Sys2Proof.Machine

section
variable {s : State} {k : Fin 6} {n : Fin 8} {i : Nat} {q : Packet}

/-- The head packet that is found meets what was asked of it. -/
theorem headPacket_fits {l : LanePair} {f : Packet → Bool} (h : headPacket l f = some (i, q)) : f q = true := by
  obtain ⟨m, -, hm⟩ := List.exists_of_findSome?_eq_some h
  cases hx : l.rxq[m]? with
  | none => simp [hx] at hm
  | some x =>
    simp only [hx, Option.ite_none_right_eq_some, Bool.and_eq_true, Option.some.injEq, Prod.mk.injEq] at hm
    obtain ⟨⟨hfits, -⟩, -, rfl⟩ := hm
    exact hfits

/-! Forwarding (R783, R784, R808). -/

theorem execPacketForward_of_head (h : headPacket (s.lp k n) (fun q => passing s q && forwardable s k n q) = some (i, q)) :
    execPacketForward k n s = .next (forward s k n i q) := by
  rw [execPacketForward, h, next]

/-- Through a usable port a packet that no reduction holds goes as soon as it can. -/
theorem execPacketForward_of_route {out : Nat} (h : headPacket (s.lp k n) (fun q => passing s q && forwardable s k n q) = some (i, q))
    (hout : s.routePort q.destModule = some out) (husable : s.portUsable out = true) (hplain : reduces q = false) :
    execPacketForward k n s = .next (txFrom (takeHead s k n i q) out n k { q with vc := s.nextVc k q.vc out }) := by
  have hgo := (Bool.and_eq_true_iff.1 (headPacket_fits h)).2
  simp only [forwardable, hout, husable, hplain] at hgo
  have hsend : canSend s out n k { q with vc := s.nextVc k q.vc out } = true := hgo
  rw [execPacketForward_of_head h]
  simp [forward, hout, husable, hplain, hsend]

theorem execPacketForward_of_no_route (h : headPacket (s.lp k n) (fun q => passing s q && forwardable s k n q) = some (i, q))
    (hout : s.routePort q.destModule = none) : execPacketForward k n s = .next (answer (takeHead s k n i q) k n q 4) := by
  rw [execPacketForward_of_head h, forward, hout]

theorem execPacketForward_of_unusable {out : Nat}
    (h : headPacket (s.lp k n) (fun q => passing s q && forwardable s k n q) = some (i, q))
    (hout : s.routePort q.destModule = some out) (husable : s.portUsable out = false) :
    execPacketForward k n s = .next (answer (noteErr (takeHead s k n i q) out 29) k n q 4) := by
  rw [execPacketForward_of_head h]
  simp [forward, hout, husable]

/-- A reduction packet that no arm matches for 1 ms is discarded. -/
theorem execReduceHoldExpiry_of_held (h : headPacket (s.lp k n) (fun q => passing s q && reduces q &&
      match tabFind (s.lp k n).heldAt q.cls with | some t => decide (t + 25000 ≤ s.hub) | none => false) = some (i, q))
    (harm : armMatch (s.part n) q = none) : execReduceHoldExpiry k n s =
      .next (answer (logEvent (noteErr (takeHead s k n i q) k 28)
        { code := 0x12C7, data := fabData k n 5 q.srcModule q.srcCtx 0 }) k n q 5) := by
  rw [execReduceHoldExpiry]
  generalize hm : headPacket _ _ = m
  obtain rfl : m = some (i, q) := hm.symm.trans h
  simp [harm, next]

theorem execArmCancelExpiry_eq (s : State) (p : Fin 8) : execArmCancelExpiry p s =
    .next (activateArms (s.setPart p { s.part p with
      arms := (s.part p).arms.filter fun e => e.2.cancelAt.all fun t => (s.part p).count < t }) p) := by
  have hsame : ((s.part p).arms.filter fun e => match e.2.cancelAt with | some t => decide ((s.part p).count < t) | none => true) =
      (s.part p).arms.filter fun e => e.2.cancelAt.all fun t => (s.part p).count < t :=
    List.filter_congr fun e _ => by cases e.2.cancelAt <;> rfl
  rw [← hsame]
  rfl

/-! Arrivals (R779, R798, R817, R1021). -/

/-- A packet of its type that this module is to apply is applied and answered, once no power state holds it. -/
theorem arrival_of_head {ty : Nat} (h : headPacket (s.lp k n) (fun q => q.ptype == ty && q.destModule == s.moduleId) = some (i, q))
    (hheld : heldForExit s q = false) : arrival s k n ty = sendAck (deliver (takeHead s k n i q) k n q).1 n
      ((deliver (takeHead s k n i q) k n q).1.ackOf q (deliver (takeHead s k n i q) k n q).2) := by
  rw [arrival, h]
  exact if_neg (by simp [hheld])

theorem exec_arrival {c : Instr} {ty : Nat}
    (h : c = .writeArrival k n ∧ ty = 0 ∨ c = .addArrival k n ∧ ty = 1 ∨ c = .signalArrival k n ∧ ty = 2) :
    exec c s = .next (arrival s k n ty) := by
  rcases h with ⟨rfl, rfl⟩ | ⟨rfl, rfl⟩ | ⟨rfl, rfl⟩ <;> rfl

theorem execFabricAckArrival_of_head
    (h : headPacket (s.lp k n) (fun q => q.ptype == 3 && q.destModule == s.moduleId) = some (i, q)) :
    execFabricAckArrival k n s = .next (takeAck (takeHead s k n i q) n q) := by
  rw [execFabricAckArrival, h, next]

section
variable {t : State} {seen : List (Nat × Nat × Nat)}

/-- An ABORT seen within the last 10 s is only noted again. -/
theorem execAbort_of_repeated (h : headPacket (s.lp k n) (fun q => q.ptype == 4) = some (i, q)) (ht : t = takeHead s k n i q)
    (hseen : seen = t.abortsSeen.filter fun a => s.hub < a.2.2 + 250000000)
    (hold : ∃ a ∈ seen, a.1 = q.srcModule ∧ a.2.1 = q.rtag) : execAbort k n s = .next { t with
      abortsSeen := seen.map fun a => if a.1 = q.srcModule ∧ a.2.1 = q.rtag then (a.1, a.2.1, s.hub) else a } := by
  subst ht
  have hany : (seen.any fun a => a.1 == q.srcModule && a.2.1 == q.rtag) = true := by simpa using hold
  rw [hseen] at hany
  rw [execAbort, h]
  simp only [hany, if_true, next, Bool.and_eq_true, beq_iff_eq, hseen]

/-- A new one is taken and flooded on. -/
theorem execAbort_of_new (h : headPacket (s.lp k n) (fun q => q.ptype == 4) = some (i, q)) (ht : t = takeHead s k n i q)
    (hseen : seen = t.abortsSeen.filter fun a => s.hub < a.2.2 + 250000000)
    (hnew : ∀ a ∈ seen, a.1 = q.srcModule → a.2.1 ≠ q.rtag) : execAbort k n s = .next (pumpAll (jobAbortLocal (floodAbort
      { t with abortsSeen := seen ++ [(q.srcModule, q.rtag, s.hub)] } q (some k.val)) q.addrLo q.rtag q.low)) := by
  subst ht
  have hany : (seen.any fun a => a.1 == q.srcModule && a.2.1 == q.rtag) = false := by simpa using hnew
  rw [hseen] at hany
  rw [execAbort, h]
  simp only [hany, Bool.false_eq_true, if_false, next, hseen]

end

end

/-- Settles O49: the head packet that a command finds is served by its route, its arm, its type or what was seen before. -/
theorem packetsAreServed : Obligations.PacketsAreServed := by
  unfold Obligations.PacketsAreServed
  exact fun s k n i q => ⟨fun h => ⟨fun out => execPacketForward_of_route h, execPacketForward_of_no_route h,
      fun out => execPacketForward_of_unusable h⟩, execReduceHoldExpiry_of_held, execArmCancelExpiry_eq s n,
    fun c ty hc h hheld => (exec_arrival hc).trans (congrArg _ (arrival_of_head h hheld)), execFabricAckArrival_of_head,
    fun h => ⟨execAbort_of_repeated h rfl rfl, execAbort_of_new h rfl rfl⟩⟩

end Sys2Proof.Machine
end

section
/-! PROOFS. BAR2 accesses and the functions (R849 to R862, R902), and the address translations of functions (R865 to R867). -/

namespace Sys2Proof.Machine

section
variable {s : State} {k : Fin 9}

/-! BAR2 accesses (R858, R859). -/

/-- A completion that goes back to function k. -/
def bar2Answer (k : Fin 9) (t : State) (ep : Bool) (b : List Byte) : State :=
  { t with cpls := t.cpls ++ [{ fn := k, ep, bytes := b }] }

section
variable {o len : Nat} {bs : List Byte}

theorem execBar2Read_of_no_window (hup : s.barUp = true) (hlive : s.fnLive k = true) (hin : o + len ≤ bar2Bytes (s.fn k))
    (hw : windowOf s k o len = none) :
    execBar2Read k o len s = .next (bar2Answer k (barUnmapped s k 0 o) false (List.replicate len 0xFF)) := by
  rw [execBar2Read, next, if_neg (by simp [hup, hlive, hin]), hw]
  rfl

theorem execBar2Write_of_no_window (hup : s.barUp = true) (hlive : s.fnLive k = true) (hin : o + bs.length ≤ bar2Bytes (s.fn k))
    (hw : windowOf s k o bs.length = none) : execBar2Write k o bs s = .next (barUnmapped s k 0 o) := by
  rw [execBar2Write, next, if_neg (by simp [hup, hlive, hin]), hw]

variable {wn : Window}

theorem execBar2Read_of_read {m : List PByte} {v : State} (hup : s.barUp = true) (hlive : s.fnLive k = true)
    (hin : o + len ≤ bar2Bytes (s.fn k)) (hw : windowOf s k o len = some wn) (hmod : windowUp s = true)
    (hread : readDva s hubUnit wn.ctx (s.ctx wn.ctx).mapVer (wn.dva + (o - wn.off)) len 17 = .ok (m, v)) :
    execBar2Read k o len s = .next (if m.any (·.2) then bar2Answer k v true [] else bar2Answer k v false (m.map (·.1))) := by
  rw [execBar2Read, next, if_neg (by simp [hup, hlive, hin]), hw]
  simp only [hmod, hread]
  rfl

theorem execBar2Read_of_down (hup : s.barUp = true) (hlive : s.fnLive k = true) (hin : o + len ≤ bar2Bytes (s.fn k))
    (hw : windowOf s k o len = some wn) (hmod : windowUp s = false) :
    execBar2Read k o len s = .next (bar2Answer k (barUnmapped s k wn.ctx o) false (List.replicate len 0xFF)) := by
  rw [execBar2Read, next, if_neg (by simp [hup, hlive, hin]), hw]
  simp only [hmod]
  rfl

theorem execBar2Read_of_fault {e : AccErr} {v : State} (hup : s.barUp = true) (hlive : s.fnLive k = true)
    (hin : o + len ≤ bar2Bytes (s.fn k)) (hw : windowOf s k o len = some wn) (hmod : windowUp s = true)
    (hread : readDva s hubUnit wn.ctx (s.ctx wn.ctx).mapVer (wn.dva + (o - wn.off)) len 17 = .error (e, v)) :
    execBar2Read k o len s = .next (bar2Answer k (barUnmapped v k wn.ctx o) false (List.replicate len 0xFF)) := by
  rw [execBar2Read, next, if_neg (by simp [hup, hlive, hin]), hw]
  simp only [hmod, hread]
  rfl

theorem execBar2Write_of_written {v : State} (hup : s.barUp = true) (hlive : s.fnLive k = true)
    (hin : o + bs.length ≤ bar2Bytes (s.fn k)) (hw : windowOf s k o bs.length = some wn) (hmod : windowUp s = true)
    (hwrite : wn.writable = true)
    (hok : writeDva s hubUnit wn.ctx (s.ctx wn.ctx).mapVer (wn.dva + (o - wn.off)) (good bs) = .ok v) :
    execBar2Write k o bs s = .next v := by
  rw [execBar2Write, next, if_neg (by simp [hup, hlive, hin]), hw]
  simp [hmod, hwrite, hok]

theorem execBar2Write_of_dropped (hup : s.barUp = true) (hlive : s.fnLive k = true) (hin : o + bs.length ≤ bar2Bytes (s.fn k))
    (hw : windowOf s k o bs.length = some wn) (hbad : windowUp s = false ∨ wn.writable = false ∨
      ∃ e, writeDva s hubUnit wn.ctx (s.ctx wn.ctx).mapVer (wn.dva + (o - wn.off)) (good bs) = .error e) :
    execBar2Write k o bs s = .next (barUnmapped s k wn.ctx o) := by
  rw [execBar2Write, next, if_neg (by simp [hup, hlive, hin]), hw]
  rcases hbad with hmod | hread | ⟨e, he⟩
  · simp [hmod]
  · simp [hread]
  · simp only [he, ite_self]

end

/-! Resizes, resets and VF Enable (R597, R598, R851, R852, R862, R902). -/

theorem cfgRequest_of_early {j : Nat} {f : State → State} (hrails : s.pins.rails = true) (hcmi : s.boot.cmi = false) :
    cfgRequest s j f = { s with cpls := s.cpls ++ [{ fn := j, rrs := true, bytes := [] }] } := by
  simp [cfgRequest, hrails, hcmi]

theorem cfgRequest_of_cmi {j : Nat} {f : State → State} (hrails : s.pins.rails = true) (hcmi : s.boot.cmi = true) :
    cfgRequest s j f = f s := by
  simp [cfgRequest, hrails, hcmi]

theorem execBar2Resize_of_size {n : Nat} (hrails : s.pins.rails = true) (hcmi : s.boot.cmi = true) (hlive : s.fnLive k = true)
    (hleast : 6 ≤ n) (hmost : n ≤ if (k : Nat) = 0 then 10 else 8) :
    execBar2Resize k n s = .next (s.setFn k { s.fn k with bar2Log2 := n - 6, bar2 := [] }) := by
  have hpf : (k = 0) = ((k : Nat) = 0) := propext Fin.ext_iff
  have htop : n ≤ if k = 0 then 10 else 8 := by simpa only [hpf] using hmost
  rw [execBar2Resize, cfgRequest_of_cmi hrails hcmi, next, if_pos (by simp [hlive, hleast, htop])]

theorem execFunctionLevelReset_of_vf (hlive : s.fnLive k = true) (hvf : (k : Nat) ≠ 0) :
    execFunctionLevelReset k s = .next (functionReset s k) := by
  have hk : k ≠ 0 := fun h => hvf (by simp [h])
  rw [execFunctionLevelReset, next, if_neg (by simp [hlive]), if_neg hk]

theorem execFunctionLevelReset_zero (s : State) : execFunctionLevelReset 0 s = .next (setVfs (functionReset s 0) false 0) := rfl

theorem execPcieLinkTrained_eq (s : State) (gts lanes : Nat) {t : State} (ht : t = { s with pcie := { s.pcie with gts, lanes } }) :
    execPcieLinkTrained gts lanes s = .next (if gts < 640 ∨ lanes < 16 then
      logEvent t { code := 0x12E4, data := [0, 0, gts, lanes] } else t) := by
  simp [execPcieLinkTrained, next, ht]

/-! ATS (R865 to R867, R546). -/

theorem execAtsInvalidation_eq (s : State) (k : Fin 9) (a : Nat) {v : State} (hv : v = s.setFn k { s.fn k with
      ats := (s.fn k).ats.filter (· != a / 4096), invDone := (s.fn k).invDone ++ [a / 4096] }) :
    execAtsInvalidation k a s = .next (if a / 4096 ∈ (s.fn k).ats then untranslate v k (a / 4096) else v) := by
  simp [execAtsInvalidation, next, setDel, hv]

/-- The nodes of function k go on with page g translated, which the cache then holds beside those of l. -/
def pageCame (s : State) (k : Fin 9) (g : Nat) (l : List Nat) : State :=
  pagesHere (s.setFn k { s.fn k with ats := setIns l g, xlReq := (s.fn k).xlReq.filter (· != g) }) k (· == g)

/-- The translation comes into a cache that has room or holds it already. -/
theorem execAtsTranslationCompletion_of_room (p : Fin 8) (n a : Nat) (hen : (s.fn k).atsEn = true)
    (hroom : a / 4096 ∈ (s.fn k).ats ∨ (s.fn k).ats.length < 2048) (hheld : Unheld s (pageCame s k (a / 4096) (s.fn k).ats)) :
    execAtsTranslationCompletion k p n a true s = .next (pageCame s k (a / 4096) (s.fn k).ats) := by
  have hkeep : ¬(decide (2048 ≤ (s.fn k).ats.length) && !(s.fn k).ats.contains (a / 4096)) = true := by
    rcases hroom with h | h
    · simp [h]
    · simp [Nat.not_le.2 h]
  rw [execAtsTranslationCompletion, next, if_neg (by simp [hen]), if_pos rfl, xlateDone]
  simp only [if_neg hkeep]
  exact congrArg _ (gate_unheld hheld)

/-- A full cache gives up its oldest entry. -/
theorem execAtsTranslationCompletion_of_full (p : Fin 8) (n a : Nat) (hen : (s.fn k).atsEn = true) (hnew : a / 4096 ∉ (s.fn k).ats)
    (hfull : 2048 ≤ (s.fn k).ats.length) (hheld : Unheld s (pageCame s k (a / 4096) ((s.fn k).ats.drop 1))) :
    execAtsTranslationCompletion k p n a true s = .next (pageCame s k (a / 4096) ((s.fn k).ats.drop 1)) := by
  have hdrop : (decide (2048 ≤ (s.fn k).ats.length) && !(s.fn k).ats.contains (a / 4096)) = true := by simp [hnew, hfull]
  rw [execAtsTranslationCompletion, next, if_neg (by simp [hen]), if_pos rfl, xlateDone]
  simp only [if_pos hdrop]
  exact congrArg _ (gate_unheld hheld)

section
variable {p : Fin 8} {n a : Nat} {v : State}

theorem execAtsTranslationCompletion_refused (hen : (s.fn k).atsEn = true) :
    execAtsTranslationCompletion k p n a false s = .next (xlateRefused s k p n a) := by
  rw [execAtsTranslationCompletion, next, if_neg (by simp [hen]), if_neg (by simp)]

/-- The one node that waits for a refused page is told. -/
theorem xlateRefused_of_waiter {q m : Nat}
    (hv : v = s.setFn k { s.fn k with xlReq := (s.fn k).xlReq.filter (· != a / 4096) })
    (hone : xlWaiters s k (· == a / 4096) = [(q, m)]) (hnamed : ∀ j, s.inst? p n = some j → j.needsHost a = false) :
    xlateRefused s k p n a = answered v q m (.refused a) := by
  subst hv
  cases hi : s.inst? p n with
  | none => simp [xlateRefused, setDel, hi, hone, List.eraseDups_cons]
  | some j => simp [xlateRefused, setDel, hi, hone, hnamed j hi, List.eraseDups_cons]

/-- So is the one that the refusal names and that needs the page. -/
theorem xlateRefused_of_named {i : Inst}
    (hv : v = s.setFn k { s.fn k with xlReq := (s.fn k).xlReq.filter (· != a / 4096) })
    (hnone : xlWaiters s k (· == a / 4096) = []) (hi : s.inst? p n = some i) (hst : i.st = .running) (hended : i.ended = false)
    (hneeds : i.needsHost a = true) (howner : (s.ctx i.ctx).owner = k) : xlateRefused s k p n a = answered v p n (.refused a) := by
  subst hv
  simp [xlateRefused, setDel, hi, hnone, hst, hended, hneeds, howner, List.eraseDups_cons]

/-- With none the completion paths break whose rings lie in the page. -/
theorem xlateRefused_of_rings (hv : v = s.setFn k { s.fn k with xlReq := (s.fn k).xlReq.filter (· != a / 4096) })
    (hnone : xlWaiters s k (· == a / 4096) = []) (hnamed : ∀ i, s.inst? p n = some i → i.needsHost a = false) :
    xlateRefused s k p n a = (ringCtxs s k p a).foldl (fun u c =>
      breakPath u c p (match u.inst? p n with | some i => i.data | none => [])) v := by
  subst hv
  cases hi : s.inst? p n with
  | none => simp [xlateRefused, setDel, hi, hnone] <;> rfl
  | some j => simp [xlateRefused, setDel, hi, hnone, hnamed j hi] <;> rfl

/-- A running node that is refused its translation ends without commit. -/
theorem answered_refused_of_running {q m : Nat} {i : Inst} (a : Nat) (hfree : (v.part q).frozen = false) (hi : v.inst? q m = some i)
    (hst : i.st = .running) (hended : i.ended = false) :
    answered v q m (.refused a) = failNode v q m 0x32E1 (hostData v i a) := by
  simp [answered, takeAnswer, hfree, hi, hst, hended]

end

end

/-- Settles O46: an access goes by its window and page, a change by the function that it names, a translation by the nodes that wait for
it. That BAR2 answers only while the module is up (DEDUCED, log entry 74) and that a hot reset clears VF Enable (DEDUCED, log entry 79)
are the model's reading. -/
theorem functionsAndWindowsAct : Obligations.FunctionsAndWindowsAct := by
  unfold Obligations.FunctionsAndWindowsAct
  refine fun s k => ⟨fun hup hlive o len bs hlen hin => ?bar2, fun hrails hcmi => ⟨fun n => congrArg _ (cfgRequest_of_early hrails hcmi),
      fun en n => congrArg _ (cfgRequest_of_early hrails hcmi)⟩, fun n => execBar2Resize_of_size, execFunctionLevelReset_of_vf,
    execFunctionLevelReset_zero s, rfl, fun en n hrails hcmi => congrArg _ (cfgRequest_of_cmi hrails hcmi),
    fun gts lanes => execPcieLinkTrained_eq s gts lanes rfl, fun a => execAtsInvalidation_eq s k a rfl, fun p n a hen => ?ats⟩
  case bar2 =>
    subst hlen
    refine ⟨fun hw => ⟨execBar2Read_of_no_window hup hlive hin hw, execBar2Write_of_no_window hup hlive hin hw⟩, fun wn hw =>
      ⟨fun m v => execBar2Read_of_read hup hlive hin hw, execBar2Read_of_down hup hlive hin hw,
        fun e v => execBar2Read_of_fault hup hlive hin hw, fun v => execBar2Write_of_written hup hlive hin hw,
        execBar2Write_of_dropped hup hlive hin hw⟩⟩
  case ats =>
    have hstep := execAtsTranslationCompletion_refused (p := p) (n := n) (a := a) hen
    refine ⟨execAtsTranslationCompletion_of_room p n a hen, execAtsTranslationCompletion_of_full p n a hen,
      fun q m i hone hi => ⟨fun hfree hst hended => ?waiter, fun hfrozen => ?frozen⟩,
      fun i hnone hi hst hended hneeds howner hfree => ?named, fun hnone hnamed => ?rings⟩
    case waiter =>
      exact hstep.trans (congrArg _ ((xlateRefused_of_waiter rfl hone.1 hone.2).trans (answered_refused_of_running a hfree hi hst hended)))
    case frozen =>
      exact hstep.trans (congrArg _ ((xlateRefused_of_waiter rfl hone.1 hone.2).trans (if_pos hfrozen)))
    case named =>
      exact hstep.trans (congrArg _ ((xlateRefused_of_named rfl hnone hi hst hended hneeds howner).trans
        (answered_refused_of_running a hfree hi hst hended)))
    case rings =>
      exact hstep.trans (congrArg _ (xlateRefused_of_rings rfl hnone hnamed))

end Sys2Proof.Machine
end

section
/-! PROOFS. RDMA connections, inbound requests and their transport (R872 to R879), and the Ethernet ports (R871, R880 to R884, R933). -/

namespace Sys2Proof.Machine

section
variable {s u v : State} {k : Fin 9} {r : Req} {h : Nat} {c : Conn}

/-! Connections open and close (R872 to R874, R879). -/

theorem execConnOpen_of_asked (hask : Asked s k 0x0120 r u) (hres : NoBits r [0x0FFC1FC0, 0xFF000000, 0xFF000000, 0xFF000000, 0, 0, 0, 0, 0,
      0xFFFF0000, 0, 0xFFFFF000, 0, 0xFFFF0000]) (hwin : wd64 r.payload 12 + wd64 r.payload 14 ≤ 2 ^ 48) (hmost : u.conns.length < 1024)
    (hctx : (u.conns.filter fun e => e.2.ctx == r.ctx).length < 64)
    (hid : freshId u (fun h => (tabFind u.conns h).isSome) 1 4294967295 u.conns.length = some (h, v))
    (hc : c = { ctx := r.ctx, fn := k, words := r.payload, qpn := Config.freeNat v.free % 2 ^ 24,
                key := Config.freeNat (v.free + 1) % 2 ^ 32, op := v.nextOp, addr := localAddr u r.payload }) :
    execConnOpen k s = .next { longOp { v with free := v.free + 2 } k r [] h 0 with conns := tabSet v.conns h c } := by
  subst hc
  rw [execConnOpen, runOp_asked hask, next]
  simp only [hid]
  refine congrArg _ (checked_go (firstBad_reserved _ hres <| firstBad_cons (by simpa using hwin) <| firstBad_cons ?_ firstBad_nil))
  simp [hmost, hctx]

theorem execConnReady_of_opening (hc : tabFind s.conns h = some c) (hst : c.st = .opening) (hop : (tabFind s.ops c.op).isSome = true) :
    execConnReady h s =
      .next (endOp { s with conns := tabSet s.conns h { c with st := .ready } } c.op 0 [h, c.qpn, c.key]) := by
  have hlive : (tabFind s.ops c.op).isNone = false := by simpa using hop
  simp [execConnReady, next, hc, hst, hlive]

/-- A teardown that has ended the operation leaves the connection as it is. -/
theorem execConnReady_of_ended (hc : tabFind s.conns h = some c) (hop : tabFind s.ops c.op = none) : execConnReady h s = .next s := by
  simp [execConnReady, next, hc, hop]

theorem execConnClose_of_unused (hask : Asked s k 0x0121 r u) (hc : tabFind u.conns (wd r.payload 0) = some c) (hmine : c.ctx = r.ctx)
    (hst : c.st ≠ .opening) (hused : connUsed u (wd r.payload 0) = false) :
    execConnClose k s = .next (okReply { u with conns := tabDel u.conns (wd r.payload 0) } k r []) := by
  have hown : (c.ctx != r.ctx || c.st == .opening) = false := by simp [hmine, hst]
  rw [execConnClose, runOp_asked hask, next]
  simp only [hc]
  exact congrArg _ (checked_go (firstBad_cons hown <| firstBad_cons hused firstBad_nil))

end

section
variable {s v : State} {h a len : Nat} {c : Conn} {key imm : W32} {bs : List Byte}

/-! Inbound requests (R875, R876). -/

/-- A write that passes its checks moves its bytes, and what follows it is done. -/
theorem inboundWrite_of_passes {key : Nat} {go : State → Conn → State} (hc : tabFind s.conns h = some c) (hup : windowUp s = true)
    (hok : inboundOk c key a bs.length true = true) (hwrite : writeDva s hubUnit c.ctx (s.ctx c.ctx).mapVer a (good bs) = .ok v)
    (hheld : Unheld s (go (chargeOwners v c.ctx a bs.length) c)) :
    inboundWrite s h key a bs go = go (chargeOwners v c.ctx a bs.length) c := by
  rw [inboundWrite, hc]
  simp only [hup, hok, hwrite]
  exact gate_unheld hheld

/-- One that does not is answered with a NAK. -/
theorem inboundWrite_of_refused {key : Nat} {go : State → Conn → State} (hc : tabFind s.conns h = some c)
    (hbad : windowUp s = false ∨ inboundOk c key a bs.length true = false ∨
      ∃ e, writeDva s hubUnit c.ctx (s.ctx c.ctx).mapVer a (good bs) = .error e) :
    inboundWrite s h key a bs go = inboundNak s h c a := by
  rw [inboundWrite, hc]
  rcases hbad with hup | hok | ⟨e, he⟩
  · simp [hup]
  · simp [hok]
  · simp only [he, ite_self]

theorem execRdmaWriteImmInbound_of_fence (hc : tabFind s.conns h = some c)
    (hfence : (fencePlace s c.ctx (imm.toNat % 4096)).isSome = true) : execRdmaWriteImmInbound h key a bs imm s =
      .next (inboundWrite s h key.toNat a bs fun s c =>
        setFence s c.ctx (imm.toNat % 4096) (fenceApply (fenceWord s c.ctx (imm.toNat % 4096)) 1 1)) := by
  have hplace : (fencePlace s c.ctx (imm.toNat % 4096)).isNone = false := by simpa using hfence
  simp [execRdmaWriteImmInbound, next, hc, hplace]

theorem execRdmaWriteInbound_of_passes (hc : tabFind s.conns h = some c) (hup : windowUp s = true)
    (hok : inboundOk c key.toNat a bs.length true = true)
    (hwrite : writeDva s hubUnit c.ctx (s.ctx c.ctx).mapVer a (good bs) = .ok v)
    (hheld : Unheld s (chargeOwners v c.ctx a bs.length)) :
    execRdmaWriteInbound h key a bs s = .next (chargeOwners v c.ctx a bs.length) :=
  congrArg _ (inboundWrite_of_passes (go := fun s _ => s) hc hup hok hwrite hheld)

/-- An Immediate adds 1 to its fence once the bytes are there. -/
theorem execRdmaWriteImmInbound_of_passes {t t1 : State} (hc : tabFind s.conns h = some c) (hup : windowUp s = true)
    (hok : inboundOk c key.toNat a bs.length true = true)
    (hwrite : writeDva s hubUnit c.ctx (s.ctx c.ctx).mapVer a (good bs) = .ok v) (ht : t = chargeOwners v c.ctx a bs.length)
    (ht1 : t1 = setFence t c.ctx (imm.toNat % 4096) (fenceApply (fenceWord t c.ctx (imm.toNat % 4096)) 1 1))
    (hfence : (fencePlace s c.ctx (imm.toNat % 4096)).isSome = true) (hheld : Unheld s t1) :
    execRdmaWriteImmInbound h key a bs imm s = .next t1 := by
  subst ht ht1
  rw [execRdmaWriteImmInbound_of_fence hc hfence]
  exact congrArg _ (inboundWrite_of_passes (go := fun s c =>
    setFence s c.ctx (imm.toNat % 4096) (fenceApply (fenceWord s c.ctx (imm.toNat % 4096)) 1 1)) hc hup hok hwrite hheld)

/-- An Immediate that names no fence of the context is refused with its write. -/
theorem execRdmaWriteImmInbound_of_no_fence (hc : tabFind s.conns h = some c) (hfence : fencePlace s c.ctx (imm.toNat % 4096) = none) :
    execRdmaWriteImmInbound h key a bs imm s = .next (inboundNak s h c a) := by
  simp [execRdmaWriteImmInbound, next, hc, hfence]

theorem execRdmaWriteImmInbound_of_refused (hc : tabFind s.conns h = some c)
    (hbad : windowUp s = false ∨ inboundOk c key.toNat a bs.length true = false ∨
      ∃ e, writeDva s hubUnit c.ctx (s.ctx c.ctx).mapVer a (good bs) = .error e) :
    execRdmaWriteImmInbound h key a bs imm s = .next (inboundNak s h c a) := by
  cases hplace : fencePlace s c.ctx (imm.toNat % 4096) with
  | none => exact execRdmaWriteImmInbound_of_no_fence hc hplace
  | some x =>
    rw [execRdmaWriteImmInbound_of_fence hc (by simp [hplace]), inboundWrite_of_refused hc hbad]

section
variable {m : List PByte}

theorem execRdmaReadInbound_of_good (hc : tabFind s.conns h = some c) (hup : windowUp s = true)
    (hok : inboundOk c key.toNat a len false = true) (hread : readDva s hubUnit c.ctx (s.ctx c.ctx).mapVer a len 17 = .ok (m, v))
    (hclean : m.any (·.2) = false) {t : State}
    (ht : t = chargeOwners { v with ethOut := v.ethOut ++
      [{ conn := h, kind := 4, addr := a, bytes := m.map (·.1), ctx := c.ctx, epoch := (v.ctx c.ctx).epoch }] } c.ctx a len)
    (hheld : Unheld s t) : execRdmaReadInbound h key a len s = .next t := by
  subst ht
  rw [execRdmaReadInbound, hc]
  simp only [hup, hok, hread, hclean]
  exact congrArg _ (gate_unheld hheld)

theorem execRdmaReadInbound_of_poison (hc : tabFind s.conns h = some c) (hup : windowUp s = true)
    (hok : inboundOk c key.toNat a len false = true) (hread : readDva s hubUnit c.ctx (s.ctx c.ctx).mapVer a len 17 = .ok (m, v))
    (hpoison : m.any (·.2) = true) : execRdmaReadInbound h key a len s = .next (inboundNak v h c a) := by
  rw [execRdmaReadInbound, hc]
  simp only [hup, hok, hread, hpoison]
  rfl

theorem execRdmaReadInbound_of_refused (hc : tabFind s.conns h = some c)
    (hbad : windowUp s = false ∨ inboundOk c key.toNat a len false = false) :
    execRdmaReadInbound h key a len s = .next (inboundNak s h c a) := by
  rw [execRdmaReadInbound, hc]
  exact congrArg _ (if_pos (by simpa using hbad))

theorem execRdmaReadInbound_of_fault {e : AccErr} (hc : tabFind s.conns h = some c) (hup : windowUp s = true)
    (hok : inboundOk c key.toNat a len false = true)
    (hread : readDva s hubUnit c.ctx (s.ctx c.ctx).mapVer a len 17 = .error (e, v)) :
    execRdmaReadInbound h key a len s = .next (inboundNak v h c a) := by
  rw [execRdmaReadInbound, hc]
  simp only [hup, hok, hread]
  rfl

end

/-! Outbound requests (R539, R871, R877, R878). -/

/-- 1 ms after the oldest request was last sent it is sent again, the eighth time in a row the connection fails. -/
theorem execRdmaRetransmitTimeout_of_due (hc : tabFind s.conns h = some c) (hout : c.outst ≠ []) (hdue : c.sentAt + 25000 ≤ s.hub) :
    execRdmaRetransmitTimeout h s = .next (if 7 ≤ c.retries then connError s h c
      else { s with conns := tabSet s.conns h { c with retries := c.retries + 1, sentAt := s.hub } }) := by
  have hwaits : connWaits s h c = true := by simp [connWaits, hout]
  have hearly : ¬s.hub < c.sentAt + us 1000 := Nat.not_lt.2 hdue
  simp [execRdmaRetransmitTimeout, next, hc, hwaits, hearly]

section
variable {p n : Nat} {rest : List (Nat × Nat)} {t : State}

/-- An ACK resolves the oldest request. -/
theorem execRdmaAckArrival_of_outstanding (nak : Bool) (hc : tabFind s.conns h = some c) (hout : c.outst = (p, n) :: rest)
    (ht : t = { s with conns := tabSet s.conns h { c with outst := rest, retries := 0, sentAt := s.hub } }) :
    execRdmaAckArrival h nak bs s = .next (answered t p n (if nak then .nak else .acknowledged)) := by
  simp only [execRdmaAckArrival, hc, hout, ht, next]

theorem answered_acknowledged_of_running {i : Inst} (hfree : (t.part p).frozen = false) (hi : t.inst? p n = some i)
    (hst : i.st = .running) (hrdma : i.overRdma = true) : answered t p n .acknowledged = t.setInst p n { i with ended := true } := by
  simp [answered, takeAnswer, hfree, hi, hst, hrdma]

theorem answered_nak_of_running {i : Inst} (hfree : (t.part p).frozen = false) (hi : t.inst? p n = some i)
    (hst : i.st = .running) (hrdma : i.overRdma = true) : answered t p n .nak = killNode t p n 0x3282 i.data := by
  simp [answered, takeAnswer, hfree, hi, hst, hrdma]

end

theorem execCongestionNotificationPacket_of_open (hc : tabFind s.conns h = some c) : execCongestionNotificationPacket h s =
    .next { s with conns := tabSet s.conns h { c with rate := rateNow s c / 2, rateAt := s.hub } } := by
  simp only [execCongestionNotificationPacket, hc, next]

/-! Ethernet ports (R871, R880 to R884, R933). -/

theorem execArpNdRequest_eq (s : State) (port : Fin 2) (a : Nat) : execArpNdRequest port a s =
    .next (if a ∈ portAddrs (tabGet [] s.ethAddr port) then
      { s with ethOut := s.ethOut ++ [{ conn := port, kind := 5, addr := a, bytes := natLe 6 (portMac s port) }] }
    else { s with ethDiscard := tabMod 0 s.ethDiscard port (· + 1) }) := by
  simp [execArpNdRequest, next, discardFrame]

/-- A port takes the current record when its link comes up; another one than it had is measured. -/
theorem execEthLinkUp_eq (s : State) (port : Fin 2) {v : State} (hv : v = { s with ethAddr := tabSet s.ethAddr port (ethBlock s port) }) :
    execEthLinkUp port s = .next (if ethBlock s port = tabGet [] s.ethAddr port then v
      else extendMr v 3 (Config.sha256 s.ethRecord)) := by
  rw [execEthLinkUp, next, hv]

/-- A record that fails its checks is logged; in Recovery nothing is. -/
theorem execEthAddressRecordWrite_of_runs (b : List Byte) (hmc : s.mcRuns = true) {t : State}
    (ht : t = { s with ethRecord := b, fwUpdates := s.fwUpdates ++ [0x12] }) :
    execEthAddressRecordWrite b s = .next (if ethRecordOk b ∨ s.boot.stage = 7 then t
      else logEvent t { code := 0x12F6, data := [0x12, s.boot.stage] }) := by
  subst ht
  by_cases hstage : s.boot.stage = 7
  · simp [execEthAddressRecordWrite, next, hmc, hstage]
  · simp [execEthAddressRecordWrite, next, hmc, hstage]

end

/-- Settles O47: a request is judged by key, window, access right and translation, an answer goes to the node of the oldest request. The
refusal of a poisoned READ and of a foreign Immediate (DEDUCED, log entry 75), the kill on a NAK (DEDUCED, log entry 77) and the module
that must be up (DEDUCED, log entry 74) are the model's reading. -/
theorem rdmaAndEthernetAct : Obligations.RdmaAndEthernetAct := by
  unfold Obligations.RdmaAndEthernetAct
  refine ⟨fun s u k r => ⟨fun h v hask hres hwin hmost hctx hid => execConnOpen_of_asked hask hres hwin hmost hctx hid rfl,
      fun h c hc hst => ⟨execConnReady_of_opening hc hst, execConnReady_of_ended hc⟩, fun c => execConnClose_of_unused⟩,
    fun s h a len c key imm bs hc => ⟨fun v hup hok hwrite => ⟨execRdmaWriteInbound_of_passes hc hup hok hwrite,
        execRdmaWriteImmInbound_of_passes hc hup hok hwrite rfl rfl⟩,
      execRdmaWriteImmInbound_of_no_fence hc, fun m v hup hok hread =>
        ⟨fun hclean => execRdmaReadInbound_of_good hc hup hok hread hclean rfl, execRdmaReadInbound_of_poison hc hup hok hread⟩,
      fun hbad => ⟨congrArg _ (inboundWrite_of_refused hc hbad), execRdmaWriteImmInbound_of_refused hc hbad⟩,
      execRdmaReadInbound_of_refused hc, fun e v => execRdmaReadInbound_of_fault hc⟩,
    fun s => ⟨fun h c hc => ⟨fun hout hdue hfew => ?again, fun hout hdue hmany => ?error, fun p n rest bs hout => ?ack,
      execCongestionNotificationPacket_of_open hc⟩, fun port a => ⟨rfl, execArpNdRequest_eq s port a, execEthLinkUp_eq s port rfl⟩,
      fun b hmc => execEthAddressRecordWrite_of_runs b hmc rfl⟩⟩
  case again => exact (execRdmaRetransmitTimeout_of_due hc hout hdue).trans (congrArg _ (if_neg (by omega)))
  case error => exact (execRdmaRetransmitTimeout_of_due hc hout hdue).trans (congrArg _ (if_pos hmany))
  case ack =>
    have hstep := fun nak => execRdmaAckArrival_of_outstanding (bs := bs) nak hc hout rfl
    exact ⟨fun i hfree hi hst hrdma => ⟨(hstep false).trans (congrArg _ (answered_acknowledged_of_running hfree hi hst hrdma)),
        (hstep true).trans (congrArg _ (answered_nak_of_running hfree hi hst hrdma))⟩,
      fun hfrozen nak => (hstep nak).trans (congrArg _ (if_pos hfrozen))⟩

end Sys2Proof.Machine
end

section
/-! PROOFS. Weights begin, arrive and end (R717 to R743, R753, R754, R1049). -/

namespace Sys2Proof.Machine

section
variable {s u : State} {k : Fin 9} {r : Req}

/-! Keys (R715). -/

/-- A message is refused for the first of its checks that fails. -/
theorem checked_refused {l : List (Bool × Nat × Nat)} {st d : Nat} {go : State} (h : firstBad l = some (st, d)) :
    checked s k r l go = refuseMsg s k r st d := by
  rw [checked, h]

theorem execWeightKeyImport_of_key {kb : List Byte} (h : Asked s k 0x0501 r u) (hres : NoBits r [0xFFFFFFF0, 0xFFFFFFFF])
    (hkey : unwrapKey u.sec.serial r.payload = some kb) : execWeightKeyImport k s = .next (okReply (settleKeys (u.setCtx r.ctx
      { u.ctx r.ctx with keysNext := tabSet (u.ctx r.ctx).keysNext (bitsOf (wd r.payload 0) 3 0) kb }) r.ctx) k r []) := by
  rw [execWeightKeyImport, runOp_asked h, next]
  simp only [hkey]
  exact congrArg _ (checked_go (firstBad_reserved _ hres <| firstBad_cons rfl firstBad_nil))

theorem execWeightKeyImport_of_no_key (h : Asked s k 0x0501 r u) (hres : NoBits r [0xFFFFFFF0, 0xFFFFFFFF])
    (hkey : unwrapKey u.sec.serial r.payload = none) : execWeightKeyImport k s = .next (refuseMsg u k r 0x0541 noField) := by
  have hnone : reservedAt [0xFFFFFFF0, 0xFFFFFFFF] r.payload 0 = none := hres
  rw [execWeightKeyImport, runOp_asked h, next]
  simp only [hkey]
  exact congrArg _ (checked_refused (by simp [firstBad, reservedCheck, hnone]))

/-! Loads and installs begin (R728 to R733, R739). -/

theorem firstBad_append_iff {l m : List (Bool × Nat × Nat)} : firstBad (l ++ m) = none ↔ firstBad l = none ∧ firstBad m = none := by
  simp only [firstBad_none_iff, List.mem_append, or_imp, forall_and]

/-- The peer of a request has been asked for its head where every check before passes, whatever these checks are. -/
theorem askHead_of_passes {c : Nat} {w : List Nat} {image : HostRd} {l m : List (Bool × Nat × Nat)} (hl : firstBad l = none)
    (hm : firstBad m = none) : askHead u c w l image = askHead u c w m image := by
  have hany : ∀ {l : List (Bool × Nat × Nat)}, firstBad l = none → l.any (·.1) = false := fun h =>
    List.any_eq_false.2 fun c hc => by simp [firstBad_none_iff.1 h c hc]
  simp only [askHead, hany hl, hany hm]

section
variable {image : HostRd} {m : NvImage} {t : State} {key : Option (List Byte)}

/-- A load begins once every check of its request passes. -/
theorem execWeightLoad_of_passes (h : Asked s k 0x0502 r u) (hop : bitOf (wd r.payload 0) 31 = false)
    (hkey : tabFind (u.ctx r.ctx).keys (bitsOf (wd r.payload 0) 15 12) = key)
    (ht : askHead u r.ctx r.payload (wParts u k r.ctx r.payload ++ wFields u r.ctx r.payload) image = t)
    (hm : namedImage t r.payload image = some m)
    (hfirst : firstBad (wParts u k r.ctx r.payload ++ wFields u r.ctx r.payload ++ imageChecks m key r.payload) = none)
    (hload : firstBad (loadChecks t r.ctx m r.payload) = none)
    (hroom : ∀ p ∈ (u.ctx r.ctx).parts, framesFor m p ≤ freeFrames t p)
    (hidle : ∀ B, tabFind (u.ctx r.ctx).bindings (wBinding r.payload) = some B → ∀ e ∈ B.gens, e.2.st ≠ .loading)
    (hfew : loadsRun t < 4) : execWeightLoad k image s = .next (beginLoad t k r m (key.getD [])) := by
  subst hkey ht
  obtain ⟨hhead, himage⟩ := firstBad_append_iff.1 hfirst
  rw [execWeightLoad, runMsg_asked h _ (by simp [hop]), next]
  simp only [hm]
  refine congrArg _ (checked_go (firstBad_append (firstBad_append (firstBad_append hhead hload) himage) (firstBad_cons ?room
    (firstBad_cons ?idle firstBad_nil))))
  case room => simpa using hroom
  case idle =>
    rw [Bool.or_eq_false_iff]
    refine ⟨List.any_eq_false.2 fun e he => ?_, decide_eq_false (by omega)⟩
    cases hB : tabFind (u.ctx r.ctx).bindings (wBinding r.payload) with
    | none => simp [hB] at he
    | some B =>
      simp only [hB] at he
      simpa using hidle B hB e he

/-- An install begins likewise, with room in the weight store. -/
theorem execInstall_of_passes {s0 h n : Nat} {v : State} {inst : List (Nat × Load)} (hask : Asked s k 0x0502 r u)
    (hop : bitOf (wd r.payload 0) 31 = true)
    (hkey : tabFind (u.ctx r.ctx).keys (bitsOf (wd r.payload 0) 15 12) = key)
    (ht : askHead u r.ctx r.payload (wParts u k r.ctx r.payload ++ wFields u r.ctx r.payload) image = t)
    (hm : namedImage t r.payload image = some m)
    (hfirst : firstBad (wParts u k r.ctx r.payload ++ wFields u r.ctx r.payload ++ imageChecks m key r.payload) = none)
    (hpf : (k : Nat) = 0) (hsource : wSource r.payload = 1 ∨ wSource r.payload = 2) (hgen : wd r.payload 1 = 0)
    (hn : hdrChunks m.header = n) (hinst : (t.loads.filter fun e => bitOf (wd e.2.words 0) 31) = inst)
    (hroom : t.nvws.images.length + inst.length < 256) (hstack : pickStack t.nvws n (Config.freeNat t.free) = some s0)
    (hfew : loadsRun t < 4)
    (hid : freshId { t with free := t.free + 1 } (fun h => (tabFind t.nvws.images h).isSome || inst.any fun e => e.2.handle == h) 1 65535
      (t.nvws.images.length + inst.length) = some (h, v)) :
    execInstall k image s = .next (enterLoad { v with nvws := { v.nvws with
      used := [0, 1, 2, 3].foldl (fun t j => tabMod 0 t j (· + stackChunks n s0 j)) v.nvws.used } } k r { m with s0 } (key.getD []) h
        (List.range n) []) := by
  subst hkey hn hinst
  obtain ⟨hhead, himage⟩ := firstBad_append_iff.1 hfirst
  obtain ⟨hparts, hfields⟩ := firstBad_append_iff.1 hhead
  have hk : k = 0 := Fin.ext hpf
  have hperm : firstBad [((k != 0 || (wSource r.payload != 1 && wSource r.payload != 2)), 0x12, atWord 0)] = none :=
    firstBad_cons (by rcases hsource with h | h <;> simp [hk, h]) firstBad_nil
  have hall := firstBad_append (firstBad_append hparts hperm) hfields
  rw [execInstall, runMsg_asked hask _ hop, next]
  simp only [askHead_of_passes hall hhead, ht, hm]
  refine congrArg _ ((checked_go (firstBad_append (firstBad_append (firstBad_append hall (firstBad_cons (by simp [hgen]) firstBad_nil))
    himage) (firstBad_cons ?room (firstBad_cons (decide_eq_false (by omega)) firstBad_nil)))).trans ?_)
  case room => simpa [State.takeFree, hstack] using hroom
  simp only [State.takeFree, hstack, hid]
  rfl

end

end

/-! Shards arrive and loads end (R717 to R720, R734 to R739). -/

section
variable {s : State} {n c : Nat} {l : Load}

/-- A good shard of an install goes into the weight store. -/
theorem execWeightShardArrival_of_install {sh : Option (List Byte)} {z : State} {plain : List Byte} (hl : tabFind s.loads n = some l)
    (hc : c ∈ l.todo) (hz : chargeLoad (shardAnswered s l) l c = z) (hplain : shardPlain z l c sh = some plain)
    (hop : bitOf (wd l.words 0) 31 = true) (hheld : Unheld s (installChunk z n l c plain)) :
    execWeightShardArrival n c sh s = .next (installChunk z n l c plain) := by
  rw [execWeightShardArrival, next, hl]
  dsimp only
  rw [if_neg (by simp [hc]), hz, hplain]
  dsimp only
  rw [if_pos hop, gate_unheld hheld]

/-- One of a load goes into the frames. -/
theorem execWeightShardArrival_of_load {sh : Option (List Byte)} {z v y : State} {plain : List Byte} (hl : tabFind s.loads n = some l)
    (hc : c ∈ l.todo) (hz : chargeLoad (shardAnswered s l) l c = z) (hplain : shardPlain z l c sh = some plain)
    (hop : bitOf (wd l.words 0) 31 = false) (hv : writeChunk z l.image (loadUnits z l) c plain = v)
    (hy : { v with loads := tabSet v.loads n { l with todo := setDel l.todo c } } = y) (hheld : Unheld s y) :
    execWeightShardArrival n c sh s = .next y := by
  rw [execWeightShardArrival, next, hl]
  dsimp only
  rw [if_neg (by simp [hc]), hz, hplain]
  dsimp only
  rw [if_neg (by simp [hop]), hv, hy, gate_unheld hheld]

/-- A bad shard is asked for again, or fails the load. -/
theorem execWeightShardArrival_of_bad {sh : Option (List Byte)} {z y : State} (hl : tabFind s.loads n = some l) (hc : c ∈ l.todo)
    (hz : chargeLoad (shardAnswered s l) l c = z) (hbad : shardPlain z l c sh = none) (hy : rereadShard z n l c = y)
    (hheld : Unheld s y) : execWeightShardArrival n c sh s = .next y := by
  rw [execWeightShardArrival, next, hl]
  dsimp only
  rw [if_neg (by simp [hc]), hz, hbad]
  dsimp only
  rw [hy, gate_unheld hheld]

theorem execWeightShardTimeout_of_due (hl : tabFind s.loads n = some l) (hc : c ∈ l.todo)
    (hdue : tabGet l.reqAt l.reReq c + wTimeout l.words ≤ s.hub) :
    execWeightShardTimeout n c s = .next (failLoad s n l 0x0545 c) := by
  simp [execWeightShardTimeout, next, hl, hc, hdue]

theorem execWeightLoadComplete_of_loaded {v : State} {f : Nat × State} (hl : tabFind s.loads n = some l) (hdone : l.todo = [])
    (hop : bitOf (wd l.words 0) 31 = false) (hv : v = { s with loads := tabDel s.loads n })
    (hf : f = (extendCmr (finishGen v l) l.ctx 0x0502 (wordsBytes l.words ++ imageHead l.image)).takeFree) :
    execWeightLoadComplete n s = .next (settleKeys (endOp f.2 l.op 0
      [Config.genStateWord 1, l.rereads, f.1 % 2 ^ 32, 0xFFFFFFFF]) l.ctx) := by
  subst hv hf
  rw [execWeightLoadComplete, next, hl]
  simp only [hdone, hop]
  rfl

theorem execWeightLoadComplete_of_installed {v : State} {f : Nat × State} (hl : tabFind s.loads n = some l) (hdone : l.todo = [])
    (hop : bitOf (wd l.words 0) 31 = true) (hv : v = { s with loads := tabDel s.loads n })
    (hf : f = (extendCmr { v with nvws := { v.nvws with images := tabSet v.nvws.images l.handle l.image } } l.ctx 0x0502
      (wordsBytes l.words ++ imageHead l.image)).takeFree) :
    execWeightLoadComplete n s = .next (settleKeys (endOp f.2 l.op 0 [f.1 % 2 ^ 32, l.rereads, l.handle, 0xFFFFFFFF]) l.ctx) := by
  subst hv hf
  rw [execWeightLoadComplete, next, hl]
  simp only [hdone, hop]
  rfl

end

/-- Settles O38: a load or an install begins with every check passed, goes on with each shard as it is good or bad, and ends with its
measurement. -/
theorem weightLoadsRun : Obligations.WeightLoadsRun := by
  unfold Obligations.WeightLoadsRun
  refine fun s u k r => ⟨fun h hres => ?key, fun image m h => ?begins, fun n c l sh hl hc => ?shard, fun n l hl hdone => ?complete⟩
  case key =>
    intro keep
    cases hkey : unwrapKey u.sec.serial r.payload with
    | none =>
      rw [show Config.gcmOpen _ _ _ _ = none from hkey]
      exact execWeightKeyImport_of_no_key h hres hkey
    | some kb =>
      rw [show Config.gcmOpen _ _ _ _ = some kb from hkey]
      exact execWeightKeyImport_of_key h hres hkey
  case begins =>
    intro t hm hfirst
    refine ⟨fun hop hload hroom hidle hfew => execWeightLoad_of_passes h hop rfl rfl hm hfirst hload hroom hidle hfew,
      fun s0 hdl v hop hpf hsource hgen => ?install⟩
    intro n inst hroom hstack hfew hid
    exact execInstall_of_passes h hop rfl rfl hm hfirst hpf hsource hgen rfl rfl hroom hstack hfew hid
  case shard =>
    intro z
    refine ⟨fun plain hplain => ⟨execWeightShardArrival_of_install hl hc rfl hplain, fun hop =>
        execWeightShardArrival_of_load hl hc rfl hplain hop rfl rfl⟩, fun hbad hfew => ?again, fun hbad hmany => ?failed,
      execWeightShardTimeout_of_due hl hc⟩
    case again => exact execWeightShardArrival_of_bad hl hc rfl hbad (if_neg (by omega))
    case failed => exact execWeightShardArrival_of_bad hl hc rfl hbad (if_pos hmany)
  case complete =>
    exact ⟨fun hop => execWeightLoadComplete_of_loaded hl hdone hop rfl rfl,
      fun hop => execWeightLoadComplete_of_installed hl hdone hop rfl rfl⟩

end Sys2Proof.Machine
end

section
/-! PROOFS. Weights end, images are erased and damaged superblocks repaired (R729, R740 to R743, R753, R754). -/

namespace Sys2Proof.Machine

section
variable {s u : State} {k : Fin 9} {r : Req}

/-! Drops (R740, R741). -/

section
variable {b g : Nat} {gen : WGen}

/-- A drop cancels the load of its generation. -/
theorem execWeightDrop_of_loading {n : Nat} {l : Load} (hb : bitsOf (wd r.payload 0) 19 16 = b) (hg : wd r.payload 1 = g)
    (h : Asked s k 0x0503 r u) (htarget : bitOf (wd r.payload 0) 31 = false) (hres : NoBits r [0x7FF0FFFF])
    (hgen : genOf u r.ctx b g = some gen) (hst : gen.st ≠ .dropping) (hload : loadFor u r.ctx b g = some (n, l)) :
    execWeightDrop k s = .next (okReply (settleKeys (endOp (cancelLoad u n) l.op 0x0547 []) r.ctx) k r []) := by
  subst hb hg
  rw [execWeightDrop, runMsg_asked h _ (by simp [htarget]), next]
  simp only [hgen, hload]
  exact congrArg _ (checked_go (firstBad_reserved _ hres <| firstBad_cons (by simpa using hst) firstBad_nil))

/-- One that no load brings is unbound at the command boundaries. -/
theorem execWeightDrop_of_bound (hb : bitsOf (wd r.payload 0) 19 16 = b) (hg : wd r.payload 1 = g)
    (h : Asked s k 0x0503 r u) (htarget : bitOf (wd r.payload 0) 31 = false) (hres : NoBits r [0x7FF0FFFF])
    (hgen : genOf u r.ctx b g = some gen) (hst : gen.st ≠ .dropping) (hload : loadFor u r.ctx b g = none) :
    execWeightDrop k s = .next (gen.bound.foldl boundaryIfIdle (modGen (longOp u k r (setInsAll (gen.units.map (·.1)) gen.bound) 0 0)
      r.ctx b g fun x => { x with st := .dropping, unbinding := x.bound })) := by
  subst hb hg
  rw [execWeightDrop, runMsg_asked h _ (by simp [htarget]), next]
  simp only [hgen, hload]
  exact congrArg _ (checked_go (firstBad_reserved _ hres <| firstBad_cons (by simpa using hst) firstBad_nil))

end

/-- A dropped generation that nothing holds is zeroed and leaves its binding. -/
theorem execWeightDropComplete_of_free {c : Fin 64} {b : Fin 16} {g : Nat} {gen : WGen} {e : Nat × LongOp} {B : Binding} {v v1 : State}
    (hgen : genOf s c b g = some gen) (hst : gen.st = .dropping) (hbound : gen.bound = [])
    (hheld : genHeld s c b g gen.units = false)
    (he : (s.ops.find? fun e => e.2.opcode == 0x0503 && e.2.ctx == c.val && !bitOf (wd e.2.payload 0) 31 &&
      bitsOf (wd e.2.payload 0) 19 16 == b.val && wd e.2.payload 1 == g) = some e)
    (hv : v = gen.units.foldl (fun s e => zeroUnits s e.1 e.2) s) (hB : B = tabGet {} (v.ctx c).bindings b)
    (hv1 : v1 = v.setCtx c { v.ctx c with bindings := tabSet (v.ctx c).bindings b { B with gens := tabDel B.gens g } }) :
    execWeightDropComplete c b g s = .next (endOp { v1 with
      repairs := v1.repairs.filter fun r => !(r.ctx == c.val && r.binding == b.val && r.gen == g) } e.1 0 []) := by
  subst hv hB hv1
  rw [execWeightDropComplete, next, hgen]
  simp only [he, hst, hbound, hheld]
  rfl

/-- An image that nothing reads is erased, and no generation names it any more (R742). -/
theorem execNvwsImageErase_of_idle {m : NvImage} (h : Asked s k 0x0503 r u) (htarget : bitOf (wd r.payload 0) 31 = true)
    (hpf : (k : Nat) = 0) (hres : NoBits r [0x7FF0FFFF]) (hm : tabFind u.nvws.images (wd r.payload 1) = some m)
    (hidle : imageBusy u (wd r.payload 1) = false) :
    execNvwsImageErase k s = .next (okReply { u with
      ctxs := tabMap u.ctxs fun _ x => { x with bindings := tabMap x.bindings fun _ B =>
        { B with gens := tabMap B.gens fun _ g => if g.image = wd r.payload 1 then { g with image := 0 } else g } }
      nvws := { u.nvws with
        images := tabDel u.nvws.images (wd r.payload 1)
        used := [0, 1, 2, 3].foldl (fun t j => tabMod 0 t j (· - stackChunks (hdrChunks m.header) m.s0 j)) u.nvws.used } } k r []) := by
  have hk : k = 0 := Fin.ext hpf
  rw [execNvwsImageErase, runMsg_asked h _ htarget, next]
  simp only [hm]
  exact congrArg _ (checked_go (firstBad_cons (by simp [hk]) <| firstBad_reserved _ hres <| firstBad_cons rfl <|
    firstBad_cons hidle firstBad_nil))

theorem execWeightQuery_of_asked (h : Asked s k 0x0504 r u) :
    execWeightQuery k s = .next (okReply u k r (Config.weightQueryWords (weightInfo u r.ctx))) := by
  rw [execWeightQuery, runOp_asked h, next]

end

/-! Repairs of superblocks (R753, R754). -/

section
variable {s : State} {c : Fin 64} {b : Fin 16} {g : Nat} {x : Repair} {gen : WGen}

/-- Chunk k of the source as a repair reads it: from the weight store, or of the shards that came. -/
def repairChunk (s : State) (gen : WGen) (ch : Nat) (src : HostRd) (k : Nat) : Option (List Byte) :=
  match src with
  | .data bs => if gen.srcKind = 0 then storedChunk s gen k else sentChunk gen ((List.range 2).map (ch + ·)) bs k
  | _ => none

/-- A superblock whose chunks are not good leaves its generation DAMAGED. -/
theorem execWeightRepairComplete_of_bad {src : HostRd} {lo hi ch : Nat}
    (hx : (s.repairs.find? fun r => r.ctx == c.val && r.binding == b.val && r.gen == g) = some x) (hgen : genOf s c b g = some gen)
    (hlo : x.off / 64 * 64 = lo) (hhi : (x.off + x.len + 63) / 64 * 64 = hi) (hch : chunkAt gen x.part x.off = ch)
    (hbytes : repairBytes gen x.part x.off lo hi (repairChunk s gen ch src) = none) :
    execWeightRepairComplete c b g src s = .next (abandonDamaged (damageGen s c b g ch)) := by
  subst hlo hhi hch
  rw [execWeightRepairComplete, next, hx]
  simp only [hgen]
  generalize hb : repairBytes _ _ _ _ _ _ = o
  obtain rfl : o = none := hb.symm.trans hbytes
  rfl

/-- Good chunks write it again. -/
theorem execWeightRepairComplete_of_good {src : HostRd} {lo hi ch : Nat} {bs : List Byte} {v : State}
    (hx : (s.repairs.find? fun r => r.ctx == c.val && r.binding == b.val && r.gen == g) = some x) (hgen : genOf s c b g = some gen)
    (hlo : x.off / 64 * 64 = lo) (hhi : (x.off + x.len + 63) / 64 * 64 = hi) (hch : chunkAt gen x.part x.off = ch)
    (hbytes : repairBytes gen x.part x.off lo hi (repairChunk s gen ch src) = some bs)
    (hv : (pieces lo (hi - lo)).foldl (fun s y =>
      writeLine s x.part (genDpa (tabGet [] gen.units x.part) y.1) (good ((bs.drop (y.1 - lo)).take y.2))) s = v) :
    execWeightRepairComplete c b g src s = .next (logEvent { v with repairs := v.repairs.erase x }
      { code := 0x12B1, ctx := c, part := some x.part, data := [c, b, g, ch] }) := by
  subst hlo hhi hch hv
  rw [execWeightRepairComplete, next, hx]
  simp only [hgen]
  generalize hb : repairBytes _ _ _ _ _ _ = o
  obtain rfl : o = some bs := hb.symm.trans hbytes
  rfl

end

/-- Settles O39: a drop goes by whether a load brings its generation, its end by what holds it, a repair by the chunks that its source
gives. -/
theorem weightsEndAndRepair : Obligations.WeightsEndAndRepair := by
  unfold Obligations.WeightsEndAndRepair
  refine fun s u k r => ⟨fun gen h htarget hres hgen hst => ⟨fun n l => execWeightDrop_of_loading rfl rfl h htarget hres hgen hst,
      execWeightDrop_of_bound rfl rfl h htarget hres hgen hst⟩, fun c b g gen e hgen hst hbound hheld he =>
      execWeightDropComplete_of_free hgen hst hbound hheld he rfl rfl rfl,
    fun m => execNvwsImageErase_of_idle, execWeightQuery_of_asked, fun c b g src x gen hx hgen =>
      ⟨execWeightRepairComplete_of_bad hx hgen rfl rfl rfl, fun bs hbytes =>
        execWeightRepairComplete_of_good hx hgen rfl rfl rfl hbytes rfl⟩⟩

end Sys2Proof.Machine
end
